-- ==== Sys2Proof/Word.lean ====
section
/-! DEFINITION. The word types of the device and their plainest arithmetic. -/

namespace Sys2Proof

/-- One byte of any memory of the device. -/
abbrev Byte := BitVec 8

/-- One 32-bit register or Rhamet cell (R2, R169). -/
abbrev Word := BitVec 32

/-- One 64-bit value, such as SI time or a larder group. -/
abbrev DWord := BitVec 64

end Sys2Proof
end

