-- ==== Sys2Proof/Machine/Bits.lean ====
section
/-! DEFINITION. Byte order, bit fields, saturation and rounding: the arithmetic that every block shares. -/

namespace Sys2Proof.Machine

/-- Little-endian bytes of a number (R1). -/
def leBytes : Nat → Nat → List Byte
  | 0, _ => []
  | n + 1, v => BitVec.ofNat 8 v :: leBytes n (v / 256)

/-- The number that little-endian bytes spell (R1). -/
def leNat : List Byte → Nat
  | [] => 0
  | b :: bs => b.toNat + 256 * leNat bs

/-- Byte `i` of a payload as a number. -/
def byteAt (l : List Byte) (i : Nat) : Nat := (l.getD i 0).toNat

/-- `n` little-endian bytes of a payload from `i`. -/
def leAt (l : List Byte) (i n : Nat) : Nat := leNat ((l.drop i).take n)

/-- The number that big-endian bytes spell, for the standards that use that order. -/
def beNat (bs : List Byte) : Nat := bs.foldl (fun a b => a * 256 + b.toNat) 0

/-- Big-endian bytes of a number. -/
def beBytes (n v : Nat) : List Byte := (leBytes n v).reverse

/-- Bits `hi` down to `lo` of a number, as a number. -/
def bitsOf (v hi lo : Nat) : Nat := (v >>> lo) % 2 ^ (hi + 1 - lo)

/-- Bit `i` of a number. -/
def bitOf (v i : Nat) : Bool := v.testBit i

/-- A number with bits `hi` down to `lo` replaced by `x`. -/
def putBits (v hi lo x : Nat) : Nat :=
  v - (bitsOf v hi lo) * 2 ^ lo + (x % 2 ^ (hi + 1 - lo)) * 2 ^ lo

/-- A Bool as a register bit. -/
def b2n (b : Bool) : Nat := if b then 1 else 0

/-- The number whose bit `i` is the `i`-th Bool. -/
def packBits : List Bool → Nat
  | [] => 0
  | b :: bs => b2n b + 2 * packBits bs

/-- The `n` low bits of a number, least significant first. -/
def unpackBits : Nat → Nat → List Bool
  | 0, _ => []
  | n + 1, v => (v % 2 == 1) :: unpackBits n (v / 2)

/-- Two's complement reading of the `n` low bits. -/
def sxNat (n v : Nat) : Int :=
  let u := v % 2 ^ n
  if 2 * u < 2 ^ n then (u : Int) else (u : Int) - (2 ^ n : Nat)

/-- The `n`-bit two's complement of an integer. -/
def ofIntN (n : Nat) (i : Int) : Nat := (i % ((2 ^ n : Nat) : Int)).toNat

/-- A counter that stops at its greatest value. -/
def satInc {n : Nat} (c : BitVec n) : BitVec n := if c = BitVec.allOnes n then c else c + 1

/-- A counter that stops at its greatest value, counting `k` events. -/
def satAdd {n : Nat} (c : BitVec n) (k : Nat) : BitVec n :=
  BitVec.ofNat n (min (c.toNat + k) (2 ^ n - 1))

/-- An integer held between two limits. -/
def clampInt (lo hi x : Int) : Int := if x < lo then lo else if hi < x then hi else x

/-- Quotient rounded to nearest, ties away from zero; the divisor is positive. -/
def divRoundAway (a : Int) (b : Nat) : Int :=
  if 0 ≤ a then ((2 * a.toNat + b) / (2 * b) : Nat) else -(((2 * (-a).toNat + b) / (2 * b) : Nat) : Int)

/-- Quotient rounded to nearest, ties to even; the divisor is positive. -/
def divRoundEven (a : Int) (b : Nat) : Int :=
  let q := a.fdiv b
  let r := 2 * (a - q * b)
  if r < b then q else if (b : Int) < r then q + 1 else if q % 2 = 0 then q else q + 1

/-- Quotient rounded to nearest, ties upward. -/
def divRoundUp (a : Int) (b : Nat) : Int := (2 * a + b).fdiv (2 * b)

/-- The greatest whole number whose square does not exceed `n`, found bit by bit. -/
def isqrtGo (n : Nat) : Nat → Nat → Nat
  | 0, r => r
  | k + 1, r => let t := r + 2 ^ k; isqrtGo n k (if t * t ≤ n then t else r)

/-- Integer square root. -/
def isqrt (n : Nat) : Nat := isqrtGo n (n.log2 / 2 + 1) 0

/-- A `Vector` with a function applied to every entry, in a form that evaluates by list recursion. -/
def vmap {α β : Type} {n : Nat} (f : α → β) (v : Vector α n) : Vector β n :=
  ⟨(v.toList.map f).toArray, by simp⟩

/-- A `Vector` with a function of index and entry applied to every entry. -/
def vmapi {α β : Type} {n : Nat} (f : Nat → α → β) (v : Vector α n) : Vector β n :=
  ⟨(v.toList.zipIdx.map (fun p => f p.2 p.1)).toArray, by simp⟩

/-- A `Vector` with one entry changed. -/
def vupd {α : Type} {n : Nat} (v : Vector α n) (i : Fin n) (f : α → α) : Vector α n :=
  v.set i (f v[i])

/-- A `Vector` with the entry at a number changed, where the number is in range. -/
def vupdN {α : Type} {n : Nat} (v : Vector α n) (i : Nat) (f : α → α) : Vector α n :=
  if h : i < n then v.set i (f v[i]) else v

/-- The entry at a number, or a default out of range. -/
def vgetD {α : Type} {n : Nat} (v : Vector α n) (i : Nat) (d : α) : α :=
  if h : i < n then v[i] else d

/-- The list with its entry at `i` replaced by `f` of it; unchanged where there is no such entry. -/
def lupd {α : Type} (l : List α) (i : Nat) (f : α → α) : List α := l.modify i f

/-- The numbers 0 to `n` − 1. -/
def upTo (n : Nat) : List Nat := List.range n

/-- Fold a state through a list of indices. -/
def forEach {σ α : Type} (l : List α) (f : α → σ → σ) (s : σ) : σ := l.foldl (fun s a => f a s) s

/-- Bytes padded with zeros to a multiple of `n`. -/
def padTo (n : Nat) (l : List Byte) : List Byte :=
  l ++ List.replicate ((n - l.length % n) % n) 0

/-- Exclusive or of two byte lists, as long as the shorter. -/
def xorBytes (a b : List Byte) : List Byte := List.zipWith (· ^^^ ·) a b

/-- One byte through a reflected CRC register. -/
def crcReflStep (poly : Nat) : Nat → Nat → Nat
  | 0, r => r
  | k + 1, r => crcReflStep poly k (if r % 2 = 1 then (r / 2) ^^^ poly else r / 2)

/-- CRC-32 of Table 0.6: reflected polynomial 0x04C1_1DB7, initial and final 0xFFFF_FFFF (R15). -/
def crc32 (bs : List Byte) : Nat :=
  (bs.foldl (fun r b => crcReflStep 0xEDB88320 8 (r ^^^ b.toNat)) 0xFFFFFFFF) ^^^ 0xFFFFFFFF

/-- One byte through a CRC register of `n` bits that shifts left. -/
def crcLeftStep (n poly : Nat) : Nat → Nat → Nat
  | 0, r => r
  | k + 1, r =>
    let s := (2 * r) % 2 ^ n
    crcLeftStep n poly k (if r.testBit (n - 1) then s ^^^ poly else s)

/-- CRC-16/CCITT of Table 0.6: polynomial 0x1021, initial 0xFFFF, no final exclusive or (R15). -/
def crc16 (bs : List Byte) : Nat :=
  bs.foldl (fun r b => crcLeftStep 16 0x1021 8 (r ^^^ (b.toNat * 256))) 0xFFFF

/-- A left-shifting CRC-8 with the given polynomial and initial value. -/
def crc8 (poly init : Nat) (bs : List Byte) : Nat :=
  bs.foldl (fun r b => crcLeftStep 8 poly 8 (r ^^^ b.toNat)) init

end Sys2Proof.Machine
end

