-- ==== Sys2Proof/Machine/Mem.lean ====
section
/-! DEFINITION. Sparse byte memories in one canonical form: addresses strictly rising, no entry equal to what an
unlisted address reads as. -/

namespace Sys2Proof.Machine

/-- A memory: the bytes that differ from the region's default, by rising address. -/
abbrev Mem := List Host.Cell

/-- One byte read; `d` gives what an unlisted address reads as. -/
def Mem.read (d : Nat → Byte) : Mem → Nat → Byte
  | [], a => d a
  | (b, v) :: m, a => if a = b then v else if a < b then d a else Mem.read d m a

/-- The list with one address set to a byte that differs from the default. -/
def Mem.insert (a : Nat) (v : Byte) : Mem → Mem
  | [] => [(a, v)]
  | (b, w) :: m => if a < b then (a, v) :: (b, w) :: m else if a = b then (a, v) :: m else (b, w) :: Mem.insert a v m

/-- The list with one address no longer listed. -/
def Mem.erase (a : Nat) : Mem → Mem
  | [] => []
  | (b, w) :: m => if a = b then m else if a < b then (b, w) :: m else (b, w) :: Mem.erase a m

/-- One byte written, keeping the canonical form. -/
def Mem.write (d : Nat → Byte) (m : Mem) (a : Nat) (v : Byte) : Mem :=
  if v = d a then Mem.erase a m else Mem.insert a v m

/-- Consecutive bytes written from an address upward. -/
def Mem.writeBytes (d : Nat → Byte) (m : Mem) (a : Nat) : List Byte → Mem
  | [] => m
  | v :: vs => Mem.writeBytes d (Mem.write d m a v) (a + 1) vs

/-- `n` consecutive bytes read from an address upward. -/
def Mem.readBytes (d : Nat → Byte) (m : Mem) (a : Nat) : Nat → List Byte
  | 0 => []
  | n + 1 => Mem.read d m a :: Mem.readBytes d m (a + 1) n

/-- A little-endian number of `n` bytes read. -/
def Mem.readLE (d : Nat → Byte) (m : Mem) (a n : Nat) : Nat := leNat (Mem.readBytes d m a n)

/-- Every address of `[lo, hi)` returned to the default. -/
def Mem.clear (m : Mem) (lo hi : Nat) : Mem := m.filter (fun c => c.1 < lo || hi ≤ c.1)

/-- All addresses of the list lie above a bound and rise strictly, and no entry holds the default. -/
def Mem.wfFrom (d : Nat → Byte) (lo : Nat) : Mem → Bool
  | [] => true
  | (b, w) :: m => decide (lo ≤ b) && w != d b && Mem.wfFrom d (b + 1) m

/-- The canonical form of a memory. -/
def Memory.wf (d : Nat → Byte) (m : Mem) : Bool := Mem.wfFrom d 0 m

/-- A memory whose unlisted bytes read 0: the worktop, the pantry banks. -/
def zeroByte : Nat → Byte := fun _ => 0

end Sys2Proof.Machine
end

