-- ==== Sys2Proof/Machine/StateImage.lean ====
section
/-! DEFINITION. The accepted program image as data: what its sections declare (R185 to R195), and what acceptance
derives from its code for each task (R126, R182, R201). -/

namespace Sys2Proof.Machine

/-- The four Rhamet types of Table 6.1. -/
inductive RhType where
  | i32 | u32 | q16 | f32
  deriving DecidableEq, Repr

/-- The class of a domain in the power plan. -/
inductive PowerClass where
  | off | on | demandOff | demandOn
  deriving DecidableEq, Repr

/-- One entry of POTS (R187). -/
structure PotDecl where
  declared : Bool
  tag : List Byte
  deriving DecidableEq, Repr

/-- One entry of ROUTE (Table 6.7). -/
structure Route where
  used : Bool
  pot : Nat
  lane : Nat
  period : Nat
  phase : Nat
  release : Nat
  length : Nat
  cold : Nat
  warm : Nat
  cyclic : Nat
  deriving DecidableEq, Repr

/-- The window of a pot in pages (Table 6.8). -/
structure WinDecl where
  base : Nat
  pages : Nat
  deriving DecidableEq, Repr

/-- A face region of OWN. -/
structure FaceRegion where
  owner : Nat
  x0 : Nat
  x1 : Nat
  y0 : Nat
  y1 : Nat
  deriving DecidableEq, Repr

/-- A larder region of OWN. -/
structure LarderRegion where
  owner : Nat
  journaled : Bool
  base : Nat
  groups : Nat
  deriving DecidableEq, Repr

/-- A hatch of OWN. `readers` has bit q for pot q. -/
structure HatchDecl where
  used : Bool
  writer : Nat
  length : Nat
  readers : Nat
  deriving DecidableEq, Repr

/-- One function of CODE (Table 6.9) with its body. -/
structure FnDecl where
  pot : Nat
  args : List RhType
  results : List RhType
  nlocals : Nat
  offset : Nat
  code : List Byte
  deriving DecidableEq, Repr

/-- One entry of the container sections (R194). -/
structure Payload where
  key : Nat
  pot : Nat
  offset : Nat
  data : List Byte
  deriving DecidableEq, Repr

/-- One value of the safe plate (R190). -/
structure SafeEntry where
  channel : Nat
  elem : Nat
  value : Word
  deriving DecidableEq, Repr

/-- What the code of a task names (R201): elements, capture streams, hatches and registers. -/
structure TaskNames where
  inputs : List (Nat × Nat)
  outputs : List (Nat × Nat)
  streams : List Nat
  hatches : List Nat
  regs : List Nat
  slots : List Nat
  deriving DecidableEq, Repr

/-- The accepted image. -/
structure Image where
  bankB : Bool
  generation : Nat
  role : Nat
  autorun : Bool
  forceGlyph : Bool
  xtalSrc : Bool
  lineEn : Bool
  netWait : Nat
  straps : Nat
  length : Nat
  codeOffset : Nat
  constOffset : Nat
  pots : List PotDecl
  routes : List Route
  windows : List WinDecl
  laneOwn : List Nat
  chanOwn : List Nat
  slotOwn : List Nat
  faceRegions : List FaceRegion
  larderRegions : List LarderRegion
  hatches : List HatchDecl
  safe : List SafeEntry
  fns : List FnDecl
  constBlocks : List (Nat × List Byte)
  retain : List (Nat × Nat)
  scripts : List Payload
  stencils : List Payload
  tables : List Payload
  power : List PowerClass
  names : List TaskNames
  work : List Nat
  deriving DecidableEq, Repr

/-- The image of a device that has accepted none: it declares nothing. -/
def noImage : Image :=
  { bankB := false, generation := 0, role := 0, autorun := false, forceGlyph := false, xtalSrc := false,
    lineEn := false, netWait := 0, straps := 0, length := 0, codeOffset := 0, constOffset := 0,
    pots := [], routes := [], windows := [], laneOwn := [], chanOwn := [],
    slotOwn := [], faceRegions := [], larderRegions := [], hatches := [], safe := [], fns := [],
    constBlocks := [], retain := [], scripts := [], stencils := [], tables := [],
    power := [], names := [], work := [] }

/-- A task's route entry where it is used. -/
def Image.route (m : Image) (t : Nat) : Option Route :=
  match m.routes[t]? with
  | some r => if r.used then some r else none
  | none => none

/-- Whether a pot is declared. -/
def Image.declared (m : Image) (p : Nat) : Bool :=
  match m.pots[p]? with
  | some d => d.declared
  | none => false

/-- The window of a pot. -/
def Image.window (m : Image) (p : Nat) : WinDecl := m.windows.getD p { base := 0, pages := 0 }

/-- The owner byte of a channel; 0xFF where it has none. -/
def Image.owner (m : Image) (c : Nat) : Nat := m.chanOwn.getD c 0xFF

/-- The names of a task's code. -/
def Image.taskNames (m : Image) (t : Nat) : TaskNames :=
  m.names.getD t { inputs := [], outputs := [], streams := [], hatches := [], regs := [], slots := [] }

/-- The class of a domain; OFF where the plan names none. -/
def Image.cls (m : Image) (d : Nat) : PowerClass := m.power.getD d .off

/-- A hatch where it is declared. -/
def Image.hatch (m : Image) (h : Nat) : Option HatchDecl :=
  match m.hatches[h]? with
  | some d => if d.used then some d else none
  | none => none

/-- A larder region where it is declared. -/
def Image.region (m : Image) (r : Nat) : Option LarderRegion :=
  match m.larderRegions[r]? with
  | some d => if d.owner < 16 then some d else none
  | none => none

/-- A face region where it is declared. -/
def Image.faceRegion (m : Image) (r : Nat) : Option FaceRegion :=
  match m.faceRegions[r]? with
  | some d => if d.owner < 16 then some d else none
  | none => none

/-- The payload of a key in a container section. -/
def payloadOf (l : List Payload) (k : Nat) : Option Payload := l.find? (fun p => p.key == k)

end Sys2Proof.Machine
end

