-- ==== Sys2Proof/Machine/StateCore.lean ====
section
/-! DEFINITION. State of the time base, the power domains, start-up and reset, the lanes, the control cycle and the
tasks, with the reset value of each group (02, 03, 04, 05, 07, 09). -/

namespace Sys2Proof.Machine

/-- States of the zero-crossing lock (Table 2.2). -/
inductive LockState where
  | free | acquire | locked | holdover
  deriving DecidableEq, Repr

/-- Source of the milestone (Table 2.3 SOURCE). -/
inductive TimeSource where
  | zc0 | zc1 | zc2 | timeBase
  deriving DecidableEq, Repr

/-- One ZC input: last accepted stamp and period in ns, the last accepted period between 45 and 65 Hz (0 before one), and the
runs of good and of accepted crossings (R38, R41, R42). -/
structure ZcInput where
  last : Option Nat
  period : Nat
  mains : Nat
  good : Nat
  accepted : Nat
  deriving DecidableEq, Repr

/-- A ZC input that has seen nothing. -/
def ZcInput.none : ZcInput := { last := Option.none, period := 0, mains := 0, good := 0, accepted := 0 }

/-- Time base, zero-crossing lock, milestone generator and time registers (02). Instants are in ns of compensated
time from power-on. `zc0Good` tells that ZC0 has given a good crossing, `sourceMove` that a change of source still moves the
milestone start (R43), `beaconLock` that the last accepted beacon carried LOCKED (R51). -/
structure TimeState where
  now : Nat
  msStart : Nat
  msLen : Nat
  wm : Nat
  count : BitVec 48
  lock : LockState
  source : TimeSource
  imgXtal : Bool
  xtalFail : Bool
  onXtal : Bool
  range : Bool
  aligned : Bool
  beacon : Bool
  phMismatch : Bool
  trimLimit : Bool
  netValid : Bool
  siValid : Bool
  zc1Ok : Bool
  zc2Ok : Bool
  zc : Vector ZcInput 3
  offsets1 : List Nat
  offsets2 : List Nat
  zc0Periods : List Nat
  zc0Good : Bool
  lockedPeriods : List Nat
  outRange : Nat
  holdMs : Nat
  target : Option Nat
  sourceMove : Bool
  zcOffset : BitVec 15
  zcPhase : BitVec 2
  zcMode : BitVec 2
  zcPending : Option (BitVec 32)
  compK : BitVec 16
  compT0 : BitVec 16
  compD : BitVec 32
  rate : Int
  dieTemp : Int
  dieShown : Int
  trim : BitVec 16
  ferr : BitVec 16
  trimFilter : Int
  beaconLock : Bool
  beaconAge : Nat
  junctionAge : Nat
  netOfs : BitVec 48
  siOfs : BitVec 64
  siOfsLoHeld : BitVec 32
  cntLoss : BitVec 8
  cntRange : BitVec 8
  cntXtal : BitVec 8
  cntMismatch : BitVec 8
  latchHi : Vector (BitVec 16) 17
  latchWm : Vector (BitVec 32) 17
  latchSi : Vector (BitVec 32) 17
  starts : List Nat
  timeFrames : List (Nat × Nat × Nat)
  deriving DecidableEq, Repr

/-- Time state right after a power-on reset (Tables 2.1 to 2.7). -/
def TimeState.reset : TimeState :=
  { now := 0, msStart := 0, msLen := 20000000, wm := 0, count := 0, lock := .free, source := .timeBase,
    imgXtal := false, xtalFail := false, onXtal := false, range := false, aligned := false, beacon := false,
    phMismatch := false, trimLimit := false, netValid := false, siValid := false, zc1Ok := false, zc2Ok := false,
    zc := Vector.replicate 3 ZcInput.none, offsets1 := [], offsets2 := [], zc0Periods := [], zc0Good := false, lockedPeriods := [],
    outRange := 0, holdMs := 0, target := none, sourceMove := false, zcOffset := 0, zcPhase := 0, zcMode := 0, zcPending := none,
    compK := 34, compT0 := 2500, compD := 0, rate := 0, dieTemp := 0, dieShown := 0, trim := 0, ferr := 0,
    trimFilter := 0, beaconLock := false, beaconAge := 0, junctionAge := 0, netOfs := 0, siOfs := 0, siOfsLoHeld := 0, cntLoss := 0, cntRange := 0,
    cntXtal := 0, cntMismatch := 0, latchHi := Vector.replicate 17 0, latchWm := Vector.replicate 17 0,
    latchSi := Vector.replicate 17 0, starts := [0], timeFrames := [] }

/-- Power domains (03, Table 3.8). `haltOn` is what R77 restores; `hostWrote` tells that a host write of PD_REQ was applied at step 1 of the present boundary (R71). -/
structure PowerState where
  on : BitVec 16
  ready : BitVec 16
  req : BitVec 16
  fault : BitVec 16
  hostWrote : Bool
  refDomain : BitVec 4
  refCause : BitVec 4
  refValid : Bool
  refused : BitVec 8
  faults : BitVec 8
  switches : BitVec 16
  haltOn : BitVec 16
  vnow : Vector (BitVec 11) 16
  vlow : Vector (BitVec 11) 16
  deriving DecidableEq, Repr

/-- Floors of Table 3.1 in mV; PD6 as it is while a carriageway is on (R61). -/
def vFloor (d : Nat) : Nat := [700, 800, 900, 900, 900, 900, 900, 900, 900, 900, 900, 900, 800, 900, 800, 900].getD d 0

/-- Power state right after a power-on reset. VNOW has no reset value in the spec: the floor of each powered
domain (DESIGN CHOICE, log 6). -/
def PowerState.reset : PowerState :=
  { on := 0x00C7, ready := 0x00C7, req := 0x00C7, fault := 0, hostWrote := false, refDomain := 0,
    refCause := 0, refValid := false, refused := 0, faults := 0, switches := 0, haltOn := 0x00C7,
    vnow := #v[700, 800, 900, 0, 0, 0, 900, 900, 0, 0, 0, 0, 0, 0, 0, 0],
    vlow := Vector.replicate 16 0x7FF }

/-- Device modes (Table 5.6). -/
inductive Mode where
  | tollgate | ready | run | halt
  deriving DecidableEq, Repr

/-- Mode commands (Table 5.6 CMD). -/
inductive ModeCmd where
  | runWarm | runCold | halt
  deriving DecidableEq, Repr

/-- How far start-up has come (Table 9.6). `second` waits for the second attempt, on bank B where it says so (R268). -/
inductive BootStep where
  | held | wait | larder | journal | select | second (bankB : Bool) | boundary | done
  deriving DecidableEq, Repr

/-- Reset kinds (Table 9.4 KIND). -/
inductive ResetKind where
  | powerOn | cold | warm
  deriving DecidableEq, Repr

/-- A recognised reset that waits for its instant or boundary (R255). -/
structure PendReset where
  source : Nat
  kind : ResetKind
  faultPd : Nat
  deriving DecidableEq, Repr

/-- Outcome of an acceptance attempt, waiting for the step 10 boundary. -/
structure BootOutcome where
  image : Option Image
  cause : Nat
  deriving DecidableEq, Repr

/-- Device mode, role, guarantees, reset, straps and start-up registers (01, 05 Table 5.6, 09). `zeroNext` tells that the
next milestone boundary becomes 0:0 (R255, R265); `strapped` that the straps have been latched since the reset. -/
structure SysState where
  mode : Mode
  start : BitVec 2
  modeResult : BitVec 2
  modePend : Option ModeCmd
  hostRunAt : Bool
  readyMs : Nat
  runMs : Nat
  role : BitVec 2
  clash : Bool
  voidOvr : BitVec 16
  voidMem : BitVec 16
  voidHob : Bool
  uncorrShared : Bool
  tollCause : BitVec 8
  tollAuto : BitVec 2
  hobMs : Option Nat
  tstrap : BitVec 3
  provEn : Bool
  hostSel : BitVec 2
  rstSource : BitVec 4
  rstKind : ResetKind
  rstPd : BitVec 4
  rstCount : BitVec 16
  pendResets : List PendReset
  resetHeld : Bool
  zeroNext : Bool
  strapped : Bool
  vfyStep : BitVec 4
  vfyDetail : BitVec 8
  vfyIndex : BitVec 16
  vfyOffset : BitVec 32
  boot : BootStep
  progress : BitVec 8
  aCause : BitVec 8
  bCause : BitVec 8
  fallback : Bool
  outcome : Option BootOutcome
  bootMs : Nat
  xtalAgree : Bool
  lastKind : ResetKind
  recorded : BitVec 32
  acked : BitVec 32
  deriving DecidableEq, Repr

/-- System state right after a power-on reset. HOSTSEL before the strap instant: LOCAL, since 0b00 is never
reported (DESIGN CHOICE, log 7). -/
def SysState.reset : SysState :=
  { mode := .tollgate, start := 0, modeResult := 0, modePend := none, hostRunAt := false,
    readyMs := 0, runMs := 0, role := 0, clash := false, voidOvr := 0, voidMem := 0, voidHob := false,
    uncorrShared := false, tollCause := 0, tollAuto := 0, hobMs := none, tstrap := 0, provEn := false, hostSel := 1,
    rstSource := 1, rstKind := .powerOn, rstPd := 0, rstCount := 0, pendResets := [], resetHeld := false, zeroNext := false, strapped := false,
    vfyStep := 0, vfyDetail := 0, vfyIndex := 0xFFFF, vfyOffset := 0xFFFFFFFF, boot := .wait, progress := 2,
    aCause := 0xFF, bCause := 0xFF, fallback := false, outcome := none, bootMs := 0, xtalAgree := false,
    lastKind := .powerOn, recorded := 0, acked := 0 }

/-- One physical lane (Table 4.2). -/
structure PhysLane where
  retired : Bool
  cause : BitVec 4
  fails : BitVec 8
  deriving DecidableEq, Repr

/-- Lanes: physical lanes, the map of logical lanes, the spare of each carriageway, failed logical lanes that wait
for their exchange, and a planned exchange (04). -/
structure LaneState where
  phys : Vector PhysLane 48
  map : Vector (Option Nat) 44
  spare : Vector (Option Nat) 4
  failing : List (Nat × Nat)
  planned : Option Nat
  xResult : BitVec 2
  hostDenied : BitVec 16
  deriving DecidableEq, Repr

/-- Lane state with no retirement and no image accepted: nothing mapped. -/
def LaneState.reset : LaneState :=
  { phys := Vector.replicate 48 { retired := false, cause := 0, fails := 0 },
    map := Vector.replicate 44 none, spare := Vector.replicate 4 none, failing := [], planned := none,
    xResult := 0, hostDenied := 0 }

/-- Pot states (Table 5.8). -/
inductive PotRun where
  | idle | run | overrun | stopped
  deriving DecidableEq, Repr

/-- Pot commands (Table 5.9 ACTION). -/
inductive PotAction where
  | stop | warm | cold
  deriving DecidableEq, Repr

/-- One pot: state, counters, pending command and the held CRC of its retained region (R166). `pendHost` tells that a host
gave the pending command, `pendByHost` that it did so at this boundary; `pendNext` is a command of a Hob commit at a milestone
boundary, which waits for the next one (R160). The held CRC is invalid while it is none (Table 9.2); `armed` tells that the pot
has started since the reset that made it so, and a change of the region makes it valid again. -/
structure PotState where
  run : PotRun
  start : BitVec 2
  overruns : BitVec 8
  restarts : BitVec 16
  pend : Option PotAction
  pendNext : Option PotAction
  pendByHost : Bool
  pendHost : Bool
  denied : BitVec 16
  memFault : BitVec 16
  arith : BitVec 16
  constF : BitVec 16
  heldCrc : Option Nat
  armed : Bool
  deriving DecidableEq, Repr

/-- A pot right after a power-on reset. -/
def PotState.reset : PotState :=
  { run := .idle, start := 0, overruns := 0, restarts := 0, pend := none, pendNext := none, pendByHost := false, pendHost := false, denied := 0,
    memFault := 0, arith := 0, constF := 0, heldCrc := none, armed := false }

/-- Which entry a release runs (R172). -/
inductive EntryKind where
  | cold | warm | cyclic
  deriving DecidableEq, Repr

/-- Overrun causes (Table 5.3). -/
inductive OvrCause where
  | late | lane | carriageway | unmapped
  deriving DecidableEq, Repr

/-- A capture entry: SI time in µs and direction, true for rising or asserting. -/
structure CapEntry where
  si : Nat
  rise : Bool
  deriving DecidableEq, Repr

/-- One latched input element: value, the value kept from the latch before, and status byte (R126 to R130). -/
structure LatchedIn where
  key : Nat
  value : Word
  prev : Word
  status : Nat
  deriving DecidableEq, Repr

/-- What one capture stream delivers at a release (R131). -/
structure LatchedCap where
  stream : Nat
  entries : List CapEntry
  further : Nat
  deriving DecidableEq, Repr

/-- A hatch copy latched at release (R111). -/
structure LatchedHatch where
  hatch : Nat
  bytes : List Byte
  gen : BitVec 32
  deriving DecidableEq, Repr

/-- Everything a task latches at its release (R126, R101, R216). -/
structure Latch where
  inputs : List LatchedIn
  caps : List LatchedCap
  hatches : List LatchedHatch
  outs : List (Nat × Word)
  regs : List (Nat × Word)
  slots : List (Nat × Word)
  larStat : List (Nat × Word)
  faceStat : List (Nat × Word)
  count : BitVec 48
  wm : Nat
  si : BitVec 64
  netMs : BitVec 48
  netSi : BitVec 64
  cyc : Nat
  die : Int
  netValid : Bool
  worktop : Mem
  larder : Mem
  deriving DecidableEq, Repr

/-- Effects a release has staged for its commit (R222). -/
structure Staged where
  stores : List (Nat × Byte)
  outs : List (Nat × Word)
  hatch : List ((Nat × Nat) × Word)
  larder : List ((Nat × Nat × Nat) × Word)
  overflow : List Nat
  regs : List (Nat × Word)
  params : List ((Nat × Nat) × Word)
  runs : List (Nat × Bool)
  fAborts : List Nat
  fRects : List (Nat × Nat)
  fStens : List Nat
  arith : Nat
  constF : Nat
  memFault : Nat
  deriving DecidableEq, Repr

/-- Nothing staged. -/
def Staged.none : Staged :=
  { stores := [], outs := [], hatch := [], larder := [], overflow := [], regs := [], params := [], runs := [],
    fAborts := [], fRects := [], fStens := [], arith := 0, constF := 0, memFault := 0 }

/-- One call frame (R170): function, offset of the next instruction in its body, operand stack top first, locals,
and the iteration counts of the loops entered, by offset of their LOOP. -/
structure Frame where
  fn : Nat
  pc : Nat
  stack : List Word
  locals : List Word
  loops : List (Nat × Nat)
  deriving DecidableEq, Repr

/-- Progress of a release. -/
inductive RelStatus where
  | running | finished | stuck
  deriving DecidableEq, Repr

/-- An open window: waymarks left to the deadline, the entry run, its frames (top first), what it latched and what
it has staged. -/
structure Window where
  left : Nat
  entry : EntryKind
  status : RelStatus
  fail : Option OvrCause
  frames : List Frame
  latch : Latch
  staged : Staged
  units : Nat
  deriving DecidableEq, Repr

/-- One task (Table 5.9) with its edge history, capture intervals and open window. `since` is the local SI time, in µs, of its
last latch, the start of its capture interval (R131); `cwLost` tells that its carriageway has faulted since its last release, so
that it overruns at its next deadline (Table 3.7). -/
structure TaskState where
  first : Bool
  ovr : Bool
  peak : BitVec 24
  kept : List (Nat × Word)
  keptOff : List Nat
  latched : Bool
  since : Nat
  caps : List (Nat × List CapEntry)
  cwLost : Bool
  entry : EntryKind
  window : Option Window
  deriving DecidableEq, Repr

/-- A task that has never released. -/
def TaskState.reset : TaskState :=
  { first := false, ovr := false, peak := 0, kept := [], keptOff := [], latched := false, since := 0,
    caps := [], cwLost := false, entry := .cold, window := none }

/-- One entry of the force table (Table 5.5). -/
structure ForceEntry where
  channel : BitVec 10
  elem : BitVec 6
  output : Bool
  en : Bool
  value : Word
  deriving DecidableEq, Repr

/-- A force entry at its reset value. -/
def ForceEntry.reset : ForceEntry := { channel := 0, elem := 0, output := false, en := false, value := 0 }

/-- One hatch: its published bytes and generation (R110). -/
structure HatchState where
  bytes : List Byte
  gen : BitVec 32
  deriving DecidableEq, Repr

/-- A hatch after any reset (R113). -/
def HatchState.reset : HatchState := { bytes := List.replicate 64 0, gen := 0 }

/-- A write by the host, accepted and waiting for step 1 of the next boundary (R106, R546). `rec` is RECORDED at the
instant of acceptance (R35), `words` the words that a STORE ABORT finds written. -/
inductive HostWrite where
  | reg (addr : Nat) (value : Word) (priv : Bool) (rec : Word) (words : Nat)
  | worktop (addr : Nat) (bytes : List Byte)
  | larder (group : Nat) (bytes : List Byte)
  deriving DecidableEq, Repr

/-- The control cycle (05) and the worktop (04). Element maps are keyed by 64 × channel + element. -/
structure CycleState where
  ofs : BitVec 8
  worktop : Mem
  pots : Vector PotState 16
  tasks : Vector TaskState 64
  hatches : Vector HatchState 64
  force : Vector ForceEntry 256
  forceN : Bool
  potResult : BitVec 2
  ovrTask : BitVec 6
  ovrCause : BitVec 4
  ovrPot : BitVec 4
  ovrCount : BitVec 16
  ovrMs : BitVec 32
  outImage : List (Nat × Word)
  presented : List (Nat × Word)
  inputs : List (Nat × Word)
  stale : List Nat
  hostQ : List HostWrite
  deriving DecidableEq, Repr

/-- The control cycle right after a power-on reset. -/
def CycleState.reset : CycleState :=
  { ofs := 0, worktop := [], pots := Vector.replicate 16 PotState.reset,
    tasks := Vector.replicate 64 TaskState.reset, hatches := Vector.replicate 64 HatchState.reset,
    force := Vector.replicate 256 ForceEntry.reset, forceN := false, potResult := 0, ovrTask := 0, ovrCause := 0,
    ovrPot := 0, ovrCount := 0, ovrMs := 0, outImage := [], presented := [], inputs := [], stale := [], hostQ := [] }

end Sys2Proof.Machine
end

