-- ==== Sys2Proof/Machine/StateMando.lean ====
section
/-! DEFINITION. State of the Mandoline converters, crossings, sample groups and script slots (10) and of the sensing
front ends (11), with reset values. -/

namespace Sys2Proof.Machine

/-- Duties of a slice (Table 10.3 DUTY). -/
inductive SliceDuty where
  | active | spare | idle | retired
  deriving DecidableEq, Repr

/-- The mismatch coefficients of a slice (R291): offset in 1/100 LSB of 14 bits, gain error in ppm, skew in ps. -/
structure Coef where
  offset : Int
  gain : Int
  skew : Int
  deriving DecidableEq, Repr

/-- Coefficients that correct nothing, as a slice has them before its first calibration (log 176). -/
def Coef.none : Coef := { offset := 0, gain := 0, skew := 0 }

/-- One slice (Table 10.3), with the coefficients of its last calibration. -/
structure Slice where
  duty : SliceDuty
  pos : Nat
  attempts : BitVec 2
  cause : BitVec 4
  fails : BitVec 8
  coef : Coef
  deriving DecidableEq, Repr

/-- What a slice number outside 0 to 8 stands for. -/
def Slice.gone : Slice := { duty := .retired, pos := 0, attempts := 0, cause := 0, fails := 0, coef := Coef.none }

/-- A change of the slice at an active position: the instant in half ns from which its ticks are another slice's, and the
coefficients of the one before; none where the position stood vacant (R293, R295). -/
structure Exchange where
  pos : Nat
  at' : Nat
  coef : Option Coef
  deriving DecidableEq, Repr

/-- A corrected sample as a step uses it: its value before clamping, and whether a stall gave it the value of the
sample before (R291, R295). -/
structure SampleVal where
  value : Int
  gap : Bool
  deriving DecidableEq, Repr

/-- One Mandoline converter (Table 10.3). `expiry` is the ns at which its calibration interval next expires; `grid` the
tick period, in half ns, of the running milestone, and `phase` the active position of that milestone's tick 0; `freed` and
`idleCal` the freed and the idle slice that a rotation is calibrating (Table 10.4); `exch` the latest changes of slices at
positions, newest first, and `stalls` the instants, in half ns, of the latest stalled ticks. -/
structure Converter where
  width : BitVec 2
  lp : Bool
  map : BitVec 32
  interval : BitVec 14
  bind : BitVec 2
  failed : Bool
  next : Nat
  idleTurn : Nat
  exchanges : BitVec 16
  slices : Vector Slice 9
  expiry : Nat
  grid : Nat
  phase : Nat
  freed : Option Nat
  idleCal : Option Nat
  exch : List Exchange
  stalls : List Nat
  deriving DecidableEq, Repr

/-- Slices of a converter of width 8 with nothing retired: S0 to S7 active, S8 spare (R297). -/
def slicesReset : Vector Slice 9 :=
  Vector.ofFn (fun i : Fin 9 => { duty := if i.val < 8 then .active else .spare, pos := if i.val < 8 then i.val else 0,
                                  attempts := 0, cause := 0, fails := 0, coef := Coef.none })

/-- A converter at its reset values. -/
def Converter.reset : Converter :=
  { width := 3, lp := false, map := 0xE4E4E4E4, interval := 100, bind := 0, failed := false, next := 0, idleTurn := 0,
    exchanges := 0, slices := slicesReset, expiry := 0, grid := 125, phase := 0, freed := none, idleCal := none, exch := [],
    stalls := [] }

/-- One crossing comparator (Table 10.7). -/
structure Crossing where
  en : Bool
  pol : Bool
  hys : BitVec 2
  input : BitVec 3
  thr : BitVec 10
  tripWa : Bool
  tripWb : Bool
  state : Bool
  asserts : BitVec 16
  deriving DecidableEq, Repr

/-- A crossing at its reset values. -/
def Crossing.reset : Crossing :=
  { en := false, pol := false, hys := 0, input := 0, thr := 0, tripWa := false, tripWb := false, state := false,
    asserts := 0 }

/-- One sample group (R305 to R307). -/
structure SampleGroup where
  used : Bool
  owner : Nat
  byCross : Bool
  source : Nat
  members : Nat
  fires : BitVec 16
  missed : BitVec 16
  deriving DecidableEq, Repr

/-- An undeclared group. -/
def SampleGroup.reset : SampleGroup :=
  { used := false, owner := 0, byCross := false, source := 0, members := 0, fires := 0, missed := 0 }

/-- States of a slot (Table 7.12 STATE). -/
inductive SlotMode where
  | idle | running | done | aborted
  deriving DecidableEq, Repr

/-- A tick of the grid: milestone count and index within the milestone (R286). -/
structure Tick where
  ms : Nat
  j : Nat
  deriving DecidableEq, Repr

/-- An entry on its way to the ring: the waymark of its instant, counted through all milestones, the instant in half
ns, and the word (R311). -/
structure RingEntry where
  wmAbs : Nat
  instant : Nat
  word : Word
  deriving DecidableEq, Repr

/-- A run in progress (R309): `last` is the instant of its last sample, marker or group conversion, `waiting` the hold
instant of a trigger met at a GSAMPLE step, `ended` the instant at which its last step had passed (half ns); `taken` counts the
samples that the present step already has from milestones before, and `held` are those of an AVERAGE. -/
structure ScriptRun where
  cursor : Tick
  step : Nat
  repeats : List (Nat × Nat)
  params : List Word
  number : Nat
  last : Nat
  waiting : Option Nat
  ended : Option Nat
  taken : Nat
  held : List SampleVal
  deriving DecidableEq, Repr

/-- One script slot (R308 to R316). -/
structure Slot where
  mode : SlotMode
  dba : Bool
  armed : Bool
  starting : Option Tick
  aborting : Option Nat
  run : Option ScriptRun
  par : Vector Word 16
  pend : List RingEntry
  write : BitVec 32
  runsPot : Nat
  runNo : Nat
  runs : BitVec 16
  ignored : BitVec 16
  deriving DecidableEq, Repr

/-- A slot at its reset values. -/
def Slot.reset : Slot :=
  { mode := .idle, dba := false, armed := false, starting := none, aborting := none, run := none,
    par := Vector.replicate 16 0, pend := [], write := 0, runsPot := 0, runNo := 0, runs := 0, ignored := 0 }

/-- The Mandolines (10). -/
structure MandoState where
  conv : Vector Converter 4
  cx : Vector Crossing 16
  cxPending : List (Nat × Word)
  groups : Vector SampleGroup 4
  slots : Vector Slot 16
  deriving DecidableEq, Repr

/-- The Mandolines at their reset values. -/
def MandoState.reset : MandoState :=
  { conv := Vector.replicate 4 Converter.reset, cx := Vector.replicate 16 Crossing.reset, cxPending := [],
    groups := Vector.replicate 4 SampleGroup.reset, slots := Vector.replicate 16 Slot.reset }

/-- One digital input (Table 11.5): filter, inversion, and the filtered level before inversion. -/
structure DigIn where
  filter : BitVec 2
  inv : Bool
  level : Bool
  pending : Option (BitVec 3)
  deriving DecidableEq, Repr

/-- A digital input at reset (R333, R334). -/
def DigIn.reset : DigIn := { filter := 0, inv := false, level := false, pending := none }

/-- What the I²C master puts on SCL and SDA: a START, a byte that it sends, a byte that it takes with its acknowledge, SCL pulses that
free a stuck SDA, a STOP (R337, Table 11.6). -/
inductive I2cSym where
  | start
  | tx (b : Byte)
  | rx (b : Byte) (ack : Bool)
  | pulses (n : Nat)
  | stop
  deriving DecidableEq, Repr

/-- One I²C device: the outcomes of its latest phases, its counters (R338, R339), and what the master sent in its latest
transaction, in fast mode or not (R337). -/
structure I2cDev where
  wire : List I2cSym
  fast : Bool
  writeFail : Option Nat
  outcome : Option (Nat × List Byte)
  status : Nat
  data : List Byte
  count : BitVec 32
  good : BitVec 16
  err : BitVec 16
  deriving DecidableEq, Repr

/-- An I²C device at reset: STATUS NO_DATA. -/
def I2cDev.reset : I2cDev :=
  { wire := [], fast := false, writeFail := none, outcome := none, status := 0xFF, data := List.replicate 8 0, count := 0, good := 0, err := 0 }

/-- The readings of one sequence (R321), as the means of R312. -/
structure SenseReads where
  sref : Nat
  temp : List Nat
  daylight : Nat
  gas : List Nat
  presence : Nat
  range : Nat
  at' : Nat
  deriving DecidableEq, Repr

/-- One gas cell (R329, R330): the bias V(GWE) − V(GRE) in mV that the device applies, none while the cell is at rest, and the
milestone at which it was last applied. -/
structure GasCell where
  bias : Option Int
  since : Nat
  deriving DecidableEq, Repr

/-- The sensing front ends (11). -/
structure SenseState where
  taken : Option SenseReads
  tempVal : Vector Word 4
  lightRange : Nat
  presReads : Nat
  detect : Bool
  belowRun : Nat
  delivered : Bool
  cells : Vector GasCell 2
  di : Vector DigIn 8
  i2c : Vector I2cDev 8
  stuck : BitVec 16
  timeout : BitVec 16
  deriving DecidableEq, Repr

/-- The sensing front ends at reset. -/
def SenseState.reset : SenseState :=
  { taken := none, tempVal := Vector.replicate 4 0, lightRange := 3, presReads := 0, detect := false, belowRun := 0,
    delivered := false, cells := Vector.replicate 2 { bias := none, since := 0 }, di := Vector.replicate 8 DigIn.reset, i2c := Vector.replicate 8 I2cDev.reset,
    stuck := 0, timeout := 0 }

end Sys2Proof.Machine
end

