-- ==== Sys2Proof/Machine/StateIo.lean ====
section
/-! DEFINITION. State of the Whisk units (15), the fan unit, actuators and SYS_SHDN (16) and the face driver (17), with
reset values. Real-valued quantities are binary32 bits. -/

namespace Sys2Proof.Machine

/-- States of a Whisk unit (Table 15.5). -/
inductive WhiskRun where
  | off | align | drive | regen | short | tripped
  deriving DecidableEq, Repr

/-- Modes of a Whisk unit (Table 15.2). -/
inductive WhiskMode where
  | off | run | brake
  deriving DecidableEq, Repr

/-- Estimator states (Table 15.7). -/
inductive EstState where
  | standstill | low | valid
  deriving DecidableEq, Repr

/-- One Whisk unit (15). `mode`, `ref` and `dir` are what the last decision took; `vector` is the voltage vector applied,
0 to 7; `angle` sums the changes of `theta` since the last estimate; `alignRun` and `lowRun` count decisions in ALIGN and
estimates in LOW; `flt` is the fault pin at its fault level; `edges` are the command pin's edges, newest first, in units
of 62.5 ns; `pinSum` sums the pin voltage in mV over the decisions of the estimate period. -/
structure Whisk where
  source : BitVec 2
  sourcePending : Option (BitVec 2)
  run : WhiskRun
  mode : WhiskMode
  ref : Word
  dir : Bool
  psa : Word
  psb : Word
  flux : Word
  theta : Word
  angle : Word
  decisions : Nat
  te : Word
  ia : Word
  ib : Word
  vdc : Word
  dpsi : Bool
  dT : Int
  vector : Nat
  ramp : Word
  integ : Word
  idRef : Word
  tref : Word
  tlim : Word
  psiRef : Word
  omega : Word
  rpm : Word
  rpmPrev : Word
  est : EstState
  rotation : Word
  dirOut : Bool
  speed : Word
  clamped : Bool
  dba : Bool
  alignRun : Nat
  lowRun : Nat
  latched : Bool
  flt : Bool
  cause : BitVec 4
  cx : BitVec 4
  trips : BitVec 16
  overRun : Nat
  vdcRun : Nat
  sbRpm : BitVec 16
  floorRpm : BitVec 16
  frac : Word
  pinSum : Nat
  lost : Bool
  edges : List (Nat × Bool)
  shorts : BitVec 16
  losses : BitVec 16
  deriving DecidableEq, Repr

/-- A unit at reset: OFF, estimator in STANDSTILL (R472). -/
def Whisk.reset : Whisk :=
  { source := 0, sourcePending := none, run := .off, mode := .off, ref := 0, dir := false, psa := 0, psb := 0,
    flux := 0, theta := 0, angle := 0, decisions := 0, te := 0, ia := 0, ib := 0, vdc := 0, dpsi := true, dT := 0,
    vector := 0, ramp := 0, integ := 0, idRef := 0, tref := 0, tlim := 0, psiRef := 0, omega := 0, rpm := 0,
    rpmPrev := 0, est := .standstill, rotation := 0, dirOut := false, speed := 0, clamped := false, dba := false,
    alignRun := 0, lowRun := 0, latched := false, flt := false, cause := 0, cx := 0, trips := 0, overRun := 0,
    vdcRun := 0, sbRpm := 0, floorRpm := 0, frac := 0, pinSum := 0, lost := false, edges := [], shorts := 0,
    losses := 0 }

/-- One fan channel (16). `y` is in 1/256 code; `result` is the last result of the loop of R479, none before the first;
`kick` counts the waymarks left; `edges` are the accepted tach edges in SI µs, newest first, and `edged` tells of one since
the last boundary; `quiet` counts the waymarks of R487; `lastOut` is OUTPUT at the last evaluation, 4,096 once it has changed
since. -/
structure Fan where
  mode : Nat
  y : Nat
  row : Nat
  rowFresh : Bool
  integ : Word
  result : Option Nat
  kick : Option Nat
  tempFail : Bool
  temp : Word
  tachLost : Bool
  warn : Bool
  alarm : Bool
  inBand : Bool
  speed : BitVec 32
  age : Word
  edges : List Nat
  edged : Bool
  quiet : Nat
  steady : Nat
  lastOut : Nat
  capture : Bool
  kicks : BitVec 16
  tachLosses : BitVec 16
  deriving DecidableEq, Repr

/-- A fan channel at reset. -/
def Fan.reset : Fan :=
  { mode := 0, y := 0, row := 0, rowFresh := true, integ := 0, result := none, kick := none, tempFail := false, temp := 0,
    tachLost := false, warn := false, alarm := false, inBand := false, speed := 0, age := 0, edges := [], edged := false,
    quiet := 0, steady := 0, lastOut := 4096, capture := false, kicks := 0, tachLosses := 0 }

/-- Motions of a floating pair (R499 MOTION). -/
inductive Motion where
  | rest | opening | closing | paused
  deriving DecidableEq, Repr

/-- One floating pair (R496 to R499); `travel` is in µs; `left` counts the waymarks of a pause, `runOn` the µs of an
over-travel or a homing run still to go; `homing` is the end it runs to, true for open. -/
structure Pair where
  travel : Nat
  motion : Motion
  homing : Option Bool
  unknown : Bool
  left : Nat
  runOn : Option Nat
  deriving DecidableEq, Repr

/-- A pair at reset: unknown (R499). -/
def Pair.reset : Pair :=
  { travel := 0, motion := .rest, homing := none, unknown := true, left := 0, runOn := none }

/-- Fan unit, actuators and SYS_SHDN (16). -/
structure FanState where
  fans : Vector Fan 6
  ao : Vector Nat 8
  aoOut : Vector (BitVec 12) 8
  doPin : Vector Bool 8
  doCount : Vector (BitVec 16) 8
  pairs : Vector Pair 4
  shdn : Bool
  shdnCause : BitVec 3
  shdnCount : BitVec 8
  shdnFirst : Bool
  hotRun : Nat
  coolRun : Nat
  ohm : BitVec 18
  lastNs : Nat
  deriving DecidableEq, Repr

/-- Fan unit at power-on: SYS_SHDN asserted with cause START (R264, Table 16.4). -/
def FanState.reset : FanState :=
  { fans := Vector.replicate 6 Fan.reset, ao := Vector.replicate 8 0, aoOut := Vector.replicate 8 0,
    doPin := Vector.replicate 8 false, doCount := Vector.replicate 8 0, pairs := Vector.replicate 4 Pair.reset,
    shdn := true, shdnCause := 1, shdnCount := 0, shdnFirst := true, hotRun := 0, coolRun := 0, ohm := 0,
    lastNs := 0 }

/-- States of the face (Table 17.3). -/
inductive FaceRun where
  | off | dark | vrevRise | clearing | anodeRise | lit | anodeFall | vrevFall
  deriving DecidableEq, Repr

/-- What an operation draws (R515). -/
inductive FaceWork where
  | rect (x0 x1 y0 y1 src : Nat)
  | stencil (key : Nat)
  deriving DecidableEq, Repr

/-- A stencil run in progress, step by step (R523): the next step, its ink and the four parameters read at its start. -/
structure StencilRun where
  step : Nat
  ink : Nat
  params : List Nat
  deriving DecidableEq, Repr

/-- An operation queued or in flight (R515, R516): `left` is the waymarks to its completion once started; `pixels`
is what it draws, by 96 × y + x; `run` is a stencil's progress. -/
structure FaceOp where
  pot : Nat
  region : Nat
  work : FaceWork
  left : Option Nat
  pixels : List (Nat × Nat)
  run : Option StencilRun
  deriving DecidableEq, Repr

/-- Status of one face region (Table 7.12). -/
structure FaceStat where
  reject : Bool
  dba : Bool
  deriving DecidableEq, Repr

/-- The face driver (17). Scan memory, gains and energies are lists by rising 96 × y + x of what differs from 0, or from
gain 4,096. `since` is the µs at which the state was entered and `frames` the whole frames since; `frameEnd` is the µs at
which the frame in progress ends; `elems` are the elements of channel 0x060 taken at the last frame start; `done` are the
regions with an operation completed at the present step 4; `transfer` is a changed-lines copy that completes at the next
boundary; `temps` are the temperatures of R525 in 1/6,553,600 °C, newest first, each with its fallback mark; `fvRun` is the
number of the next pixel of a pass, `fvDue` a pass that waits for LIT, `fvPend` its unwritten results; `headNow` and
`powerNow` gather HEAD_MIN and the dissipation of the present milestone. -/
structure FaceState where
  run : FaceRun
  since : Nat
  frames : Nat
  frameEnd : Nat
  permit : Bool
  elems : Vector Word 4
  scan : List (Nat × Nat)
  ops : List FaceOp
  done : List Nat
  crcs : List (Nat × Nat)
  transfer : List (Nat × Nat)
  energy : List (Nat × Nat)
  frac : List (Nat × DWord)
  gains : List (Nat × Nat)
  temps : List (Int × Bool)
  fallback : Bool
  gainCap : Bool
  glyph : Bool
  starved : Bool
  overheat : Bool
  fvRun : Option Nat
  fvDue : Bool
  fvOpen : BitVec 8
  fvShort : BitVec 8
  fvLastOpen : BitVec 8
  fvLastShort : BitVec 8
  fvPasses : BitVec 16
  fvPend : List (Nat × Nat)
  fvEnd : Bool
  vadj : Nat
  headMin : BitVec 12
  power : BitVec 16
  headNow : Nat
  powerNow : Nat
  opsDone : BitVec 16
  rejects : BitVec 16
  stats : Vector FaceStat 16
  deriving DecidableEq, Repr

/-- The face at reset: OFF, permit clear (R507, R508). -/
def FaceState.reset : FaceState :=
  { run := .off, since := 0, frames := 0, frameEnd := 0, permit := false, elems := Vector.replicate 4 0, scan := [],
    ops := [], done := [], crcs := [], transfer := [], energy := [], frac := [], gains := [], temps := [],
    fallback := false, gainCap := false, glyph := false, starved := false, overheat := false, fvRun := none,
    fvDue := false, fvOpen := 0, fvShort := 0, fvLastOpen := 0, fvLastShort := 0, fvPasses := 0, fvPend := [],
    fvEnd := false, vadj := 0, headMin := 0xFFF, power := 0, headNow := 0xFFF, powerNow := 0, opsDone := 0,
    rejects := 0, stats := Vector.replicate 16 { reject := false, dba := false } }

end Sys2Proof.Machine
end

