-- ==== Sys2Proof/Machine/StateNet.lean ====
section
/-! DEFINITION. State of the Hefen Line (12, 13), the host seat and the building bus (14), with reset values. -/

namespace Sys2Proof.Machine

/-- Modes of a Line frame (Table 12.8 MODE). -/
inductive LineMode where
  | tone | normal | rob4 | rob6
  deriving DecidableEq, Repr

/-- A tone map: its TMID and the code of each carrier position (R357). -/
structure ToneMap where
  tmid : Nat
  codes : List Nat
  deriving DecidableEq, Repr

/-- A frame queued for sending (R377, R380): its header fields and body in clear; it is sealed when it is sent.
`step` is the ladder step of R387, 0 for a frame whose mode Table 13.3 fixes; `slot` a slot that R374, R386 or R395
fixes; `due` the earliest instant in ns; `at'` the instant it was queued; `mode` and `map` what it goes out under, as they stood
then (R390). -/
structure QFrame where
  ftype : Nat
  place : Nat
  mode : LineMode
  bcast : Bool
  ackreq : Bool
  hop : Nat
  ldst : Nat
  osrc : Nat
  fdst : Nat
  eseq : Nat
  sr : Option (Nat × List Nat)
  body : List Byte
  step : Nat
  slot : Option Nat
  due : Nat
  at' : Nat
  map : ToneMap
  deriving DecidableEq, Repr

/-- A frame on air from this node: what is sent, and from when to when (ns); `ackBy` is
the instant at which its attempt fails (R387). `bursts` are the symbols of each burst, a tone or normal frame being one: the
tones of a tone frame, or the phases of the 40 carrier positions, in units of π/40, of each symbol of a carrier frame. -/
structure TxFrame where
  frame : QFrame
  lseq : Nat
  mode : LineMode
  tmid : Nat
  bytes : List Byte
  first : Nat
  ends : Nat
  ackBy : Nat
  bursts : List (List (List Nat))
  deriving DecidableEq, Repr

/-- A frame being received (R368): its header, with the codes of its tone map or its class, the inputs combined with their weights
(R364), its RSSI, the measured start and the timing mark (ns) of the header burst that was decoded first, whether that was burst 1,
and, once burst 1 is found as the second header, its measured start and whether its banner was decoded (R365). -/
structure RxProgress where
  mode : LineMode
  tmid : Nat
  len : Nat
  codes : List Nat
  classB : Bool
  inputs : List (Nat × List Nat)
  rssi : Nat
  start : Nat
  mark : Nat
  copy : Bool
  other : Option (Nat × Bool)
  deriving DecidableEq, Repr

/-- What became of a sample (R362): kept, zeroed, or taken while the device transmits. -/
inductive SampleFate where
  | kept | zeroed | own
  deriving DecidableEq, Repr

/-- The blanker of one receive input (R362): the latest samples that were not blanked, newest first; how many samples more are zeroed;
and what became of the last three. -/
structure Blanker where
  hist : List Int
  after : Nat
  last : List SampleFate
  deriving DecidableEq, Repr

/-- A frame that waits for its ACK (R387): its LSEQ and the instant (ns) at which the attempt fails. -/
structure AwaitAck where
  lseq : Nat
  deadline : Nat
  frame : QFrame
  deriving DecidableEq, Repr

/-- A beacon or repeat decoded from a neighbour: its HOP, its MARGIN and the milestone (R399). -/
structure BeaconHeard where
  hop : Nat
  margin : Int
  ms : Nat
  deriving DecidableEq, Repr

/-- One entry of the neighbour cache (R391), with the beacons of the last 48 milestones, which parent choice needs (R399). -/
structure Neighbour where
  addr : Nat
  mapTo : Option ToneMap
  mapAt : Nat
  issued : Option ToneMap
  issuedPrev : Option ToneMap
  lseq : Option Nat
  step : Nat
  lowRun : Nat
  heard : Nat
  beacons : List BeaconHeard
  deriving DecidableEq, Repr

/-- One entry of the route table (R403). -/
structure RouteEntry where
  dst : Nat
  next : Nat
  hops : Nat
  used : Nat
  deriving DecidableEq, Repr

/-- One entry of the junction's member table (R400). -/
structure Member where
  addr : Nat
  uid : Nat
  path : List Nat
  hop : Nat
  heard : Nat
  deriving DecidableEq, Repr

/-- A beacon repeat that waits for its milestone (R393): the network milestone it repeats, the milestone to send in,
its LOCKED and JPHASE. -/
structure BeaconRepeat where
  base : Nat
  sendAt : Nat
  locked : Bool
  jphase : Nat
  deriving DecidableEq, Repr

/-- The parameters of larder group 0x0087 (Table 13.4). -/
structure NetParams where
  netId : BitVec 16
  addr : BitVec 12
  cvStart : BitVec 3
  cvSlot : BitVec 3
  cvLead : BitVec 2
  relay : Bool
  tmRefresh : BitVec 8
  deriving DecidableEq, Repr

/-- The Hefen Line: signal path (12) and network (13). -/
structure LineState where
  cfg : BitVec 32
  cfgPend : Option (BitVec 32)
  noise : BitVec 8
  blanked : BitVec 8
  blankers : Vector Blanker 3
  phUsed : BitVec 3
  rxCarrier : BitVec 16
  rxTone : BitVec 16
  bannerFail : BitVec 16
  checkFail : BitVec 16
  burstLost : BitVec 16
  burstSaved : BitVec 16
  captured : BitVec 16
  rxPreempt : BitVec 16
  bubbles : BitVec 16
  txFrames : BitVec 16
  txCut : BitVec 16
  rx : Option RxProgress
  tx : Option TxFrame
  carrierAt : Option Nat
  busyUntil : Nat
  ownEnd : Option Nat
  bandUse : Bool
  params : NetParams
  key : List Byte
  lseq : BitVec 32
  eseq : BitVec 16
  quiet : Option Nat
  joined : Bool
  addrClash : Bool
  parent : Option Nat
  hop : Nat
  joinNext : Nat
  neigh : List Neighbour
  routes : List RouteEntry
  members : List Member
  queue : List QFrame
  awaits : List AwaitAck
  rep : Option BeaconRepeat
  recent : List (Nat × Nat × Nat)
  probe : BitVec 2
  probeDst : Nat
  probeAt : Nat
  probeMargin : BitVec 8
  probeRssi : BitVec 16
  pseq : List (Nat × Nat)
  lastSent : List (Nat × List Word)
  courierIn : List (Nat × Nat × Nat × List Word)
  convoyIn : List (Nat × Nat × Nat × List Word)
  lastPseq : List ((Nat × Nat) × Nat)
  lastFrom : List ((Nat × Nat) × Nat)
  applied : List (Nat × Nat)
  txDefer : BitVec 16
  ackFail : BitVec 16
  replay : BitVec 16
  micFail : BitVec 16
  fmtFail : BitVec 16
  hopDrop : BitVec 16
  cvLate : BitVec 16
  cvDefer : BitVec 16
  tooLong : BitVec 16
  noRoute : BitVec 16
  deriving DecidableEq, Repr

/-- Network parameters that are all 0, the factory value of group 0x0087. -/
def NetParams.zero : NetParams :=
  { netId := 0, addr := 0, cvStart := 0, cvSlot := 0, cvLead := 0, relay := false, tmRefresh := 0 }

/-- The Line at power-on reset, before PARAMETER_LOAD: LINE.PHY_CFG at its factory value. -/
def LineState.reset : LineState :=
  { cfg := 0x00400700, cfgPend := none, noise := 0, blanked := 0,
    blankers := Vector.replicate 3 { hist := [], after := 0, last := [] }, phUsed := 0, rxCarrier := 0, rxTone := 0,
    bannerFail := 0, checkFail := 0, burstLost := 0, burstSaved := 0, captured := 0, rxPreempt := 0, bubbles := 0,
    txFrames := 0, txCut := 0, rx := none, tx := none, carrierAt := none, busyUntil := 0, ownEnd := none,
    bandUse := false, params := NetParams.zero, key := List.replicate 16 0, lseq := 0, eseq := 0, quiet := none,
    joined := false, addrClash := false, parent := none, hop := 15, joinNext := 0, neigh := [],
    routes := [], members := [], queue := [], awaits := [], rep := none, recent := [], probe := 0, probeDst := 0,
    probeAt := 0, probeMargin := 0, probeRssi := 0, pseq := [], lastSent := [], courierIn := [], convoyIn := [],
    lastPseq := [], lastFrom := [], applied := [], txDefer := 0, ackFail := 0, replay := 0, micFail := 0,
    fmtFail := 0, hopDrop := 0, cvLate := 0, cvDefer := 0, tooLong := 0, noRoute := 0 }

/-- Who holds the seat (Table 14.4 HOLDER); a remote host is named by its tunnel channel (R432). -/
inductive Holder where
  | free
  | spi
  | remote (ch : Nat)
  deriving DecidableEq, Repr

/-- A response frame of Table 14.2 without START and RCRC. -/
structure Response where
  status : Nat
  seq : BitVec 8
  payload : List Byte
  deriving DecidableEq, Repr

/-- The stored response of R418 with the CRC of the request that it answers. -/
structure StoredResponse where
  crc : BitVec 16
  resp : Response
  deriving DecidableEq, Repr

/-- A tunnel channel of the junction (R431): target, whether a request awaits its response, a waiting response. -/
structure Tunnel where
  target : Nat
  awaiting : Bool
  rx : Option (List Byte)
  deriving DecidableEq, Repr

/-- The host seat and the tunnel port (14). `last` is the response frame that the seat or tunnel port sent last. -/
structure SeatState where
  holder : Holder
  priv : Bool
  estr : Bool
  e : BitVec 8
  stored : Option StoredResponse
  nonce : Option (List Byte × Nat)
  failRun : Nat
  failAt : Nat
  heard : Nat
  badCrc : BitVec 8
  badSeq : BitVec 8
  authFail : BitVec 8
  idleFree : BitVec 8
  attnBoot : Bool
  attn : BitVec 4
  attnEn : BitVec 4
  tuns : Vector (Option Tunnel) 8
  last : Option Response
  deriving DecidableEq, Repr

/-- The seat right after a power-on reset. `attn` has bit 0 for MODE up to bit 3 for TUN_RX. -/
def SeatState.reset : SeatState :=
  { holder := .free, priv := false, estr := false, e := 0, stored := none, nonce := none, failRun := 0, failAt := 0,
    heard := 0, badCrc := 0, badSeq := 0, authFail := 0, idleFree := 0, attnBoot := false, attn := 0, attnEn := 0,
    tuns := Vector.replicate 8 none, last := none }

/-- One slot of the receive or the send queue (Table 18.12): the raw data octets and the header fields. -/
structure BusSlot where
  len : BitVec 9
  seq : BitVec 8
  full : Bool
  ftype : BitVec 8
  peer : BitVec 8
  data : Mem
  deriving DecidableEq, Repr

/-- An empty slot: 0 in every word. -/
def BusSlot.reset : BusSlot := { len := 0, seq := 0, full := false, ftype := 0, peer := 0, data := [] }

/-- States of the master node machine of clause 9 that outlast one frame (R435). -/
inductive BusRun where
  | off | listen | idle | useToken | waitReply | passToken | pollMaster
  deriving DecidableEq, Repr

/-- A frame that the link puts on the bus. -/
structure BusFrame where
  ftype : Nat
  dst : Nat
  data : List Byte
  deriving DecidableEq, Repr

/-- Properties of Table 14.9, and any other. -/
inductive BacProp where
  | objectIdentifier | objectName | objectType | systemStatus | vendorName | vendorIdentifier | modelName
  | firmwareRevision | applicationSoftwareVersion | protocolVersion | protocolRevision | protocolServicesSupported
  | protocolObjectTypesSupported | objectList | maxApduLengthAccepted | segmentationSupported | apduTimeout
  | numberOfApduRetries | deviceAddressBinding | databaseRevision | maxMaster | maxInfoFrames | propertyList
  | presentValue | statusFlags | eventState | outOfService | units | covIncrement | numberOfStates
  | other (n : Nat)
  deriving DecidableEq, Repr

/-- Services of R441. -/
inductive BacService where
  | readProperty | readPropertyMultiple | writeProperty | whoIs | iAm | whoHas | iHave | subscribeCov
  deriving DecidableEq, Repr

/-- Error class and code pairs of R438, R440 and R442. -/
inductive BacError where
  | unknownObject | unknownProperty | writeAccessDenied | invalidDataType | valueOutOfRange | noSpaceToAddListElement
  | optionalFunctionalityNotSupported
  deriving DecidableEq, Repr

/-- Values that the bus service reports or is sent (R438 to R440). `enumerated` is ACTIVE 1 or INACTIVE 0, NORMAL 0,
OPERATIONAL 0, NO_SEGMENTATION 3, an object type or a units code. -/
inductive BacValue where
  | real (w : Word)
  | unsigned (n : Nat)
  | enumerated (n : Nat)
  | boolean (b : Bool)
  | text (s : List Byte)
  | objectId (type inst : Nat)
  | bits (l : List Bool)
  | objects (l : List (Nat × Nat))
  | properties (l : List BacProp)
  | services (l : List BacService)
  | types (l : List Nat)
  | empty
  deriving DecidableEq, Repr

/-- One result of a property read. -/
inductive BacResult where
  | value (v : BacValue)
  | error (e : BacError)
  deriving DecidableEq, Repr

/-- One object and property of a read. -/
structure BacRef where
  type : Nat
  inst : Nat
  prop : BacProp
  deriving DecidableEq, Repr

/-- Messages of the bus service (R438 to R442). -/
inductive BacMsg where
  | readAck (invoke : Nat) (ref : BacRef) (v : BacValue)
  | readMultiAck (invoke : Nat) (rs : List (BacRef × BacResult))
  | simpleAck (invoke : Nat) (service : BacService)
  | error (invoke : Nat) (service : BacService) (e : BacError)
  | iAm (inst : Nat)
  | iHave (type inst : Nat) (name : List Byte)
  | cov (process type inst lifetime : Nat) (v : BacValue) (flags : List Bool)
  deriving DecidableEq, Repr

/-- A COV subscription (R442): end of life in µs of SI time, and what was last notified. -/
structure CovSub where
  mac : Nat
  process : Nat
  type : Nat
  inst : Nat
  ends : Option Nat
  value : Word
  fault : Bool
  deriving DecidableEq, Repr

/-- A WriteProperty that waits for the commit that publishes it (R440). -/
structure BacWrite where
  mac : Nat
  invoke : Nat
  hatch : Nat
  word : Nat
  value : Word
  deriving DecidableEq, Repr

/-- The MS/TP link and the bus service (14). `sent` and `outbox` are the frames and messages that the last bus command
put on the bus; `replies` wait for the token; `copies` are the hatches latched at the service's release. -/
structure BusState where
  mac : BitVec 7
  baud : BitVec 3
  maxMaster : BitVec 7
  maxInfo : BitVec 4
  devInst : BitVec 22
  busEn : Bool
  run : BusRun
  next : BitVec 7
  poll : BitVec 7
  sole : Bool
  tokens : Nat
  frames : Nat
  retries : Nat
  de : Bool
  sent : List BusFrame
  rxq : Vector BusSlot 4
  txq : Vector BusSlot 4
  rxSeq : BitVec 8
  order : List Nat
  framesRx : BitVec 16
  crcErr : BitVec 16
  tokenLost : BitVec 16
  drop : BitVec 16
  copies : List (Nat × List Byte)
  replies : List (Nat × BacMsg)
  outbox : List (Nat × BacMsg)
  writes : List BacWrite
  subs : List CovSub
  deriving DecidableEq, Repr

/-- The bus right after a power-on reset. -/
def BusState.reset : BusState :=
  { mac := 0, baud := 0, maxMaster := 0, maxInfo := 0, devInst := 0, busEn := false, run := .off, next := 0, poll := 0,
    sole := false, tokens := 0, frames := 0, retries := 0, de := false, sent := [],
    rxq := Vector.replicate 4 BusSlot.reset, txq := Vector.replicate 4 BusSlot.reset, rxSeq := 0, order := [],
    framesRx := 0, crcErr := 0, tokenLost := 0, drop := 0, copies := [], replies := [], outbox := [], writes := [], subs := [] }

end Sys2Proof.Machine
end

