-- ==== Sys2Proof/Machine/StateStore.lean ====
section
/-! DEFINITION. State of the pantry, the larder and the STORE block (08), with reset values. -/

namespace Sys2Proof.Machine

/-- Bank states (Table 8.1). -/
inductive BankMode where
  | empty | writing | complete | active
  deriving DecidableEq, Repr

/-- One pantry bank: its bytes, its state, its uncorrectable words and those already reported (R227). -/
structure Bank where
  bytes : Mem
  mode : BankMode
  bad : List Nat
  reported : List Nat
  deriving DecidableEq, Repr

/-- A bank that holds nothing. -/
def Bank.blank : Bank := { bytes := [], mode := .empty, bad := [], reported := [] }

/-- STORE commands that take time (Table 8.4); `provision` counts the groups of the slot still to be written. -/
inductive StoreOp where
  | erase (b : Bool)
  | write (b : Bool) (ofs : Nat) (bytes : List Byte)
  | seal (b : Bool)
  | commit
  | provision (left : Nat)
  deriving DecidableEq, Repr

/-- The bank switch (Table 8.2 SW_STATE). -/
inductive SwitchState where
  | idle
  | verifying (bankB : Bool) (at' : Nat) (warm : Nat) (atNet asap : Bool)
  | armed (bankB : Bool) (at' : Nat) (warm : Nat) (image : Image)
  deriving DecidableEq, Repr

/-- A journaled transaction on its way (R247): the pot that owns its region (16 for the system area), the sequence number and
the first journal group of its record, its groups, the group writes done of record, mark and copies in this order, and what
the home groups already copied held before (R249). -/
structure JournalTxn where
  owner : Nat
  seq : Nat
  place : Nat
  groups : List (Nat × List Byte)
  done : Nat
  host : Bool
  old : List (Nat × List Byte)
  deriving DecidableEq, Repr

/-- A larder write on its way to its home groups (R247, R248): an immediate group, or a journaled transaction. `host` marks a
write that a host asked for (R244). -/
inductive LarderWrite where
  | imm (group : Nat) (bytes : List Byte) (host : Bool)
  | txn (t : JournalTxn)
  deriving DecidableEq, Repr

/-- A host transaction (Table 8.4 TXN_*). -/
structure HostTxn where
  region : Nat
  groups : List (Nat × List Byte)
  deriving DecidableEq, Repr

/-- Status bits of a larder region (Table 7.12). -/
structure RegionStat where
  overflow : Bool
  lost : Bool
  retired : Bool
  deriving DecidableEq, Repr

/-- An event of Table 20.2 that waits for its place in the order of R569. -/
structure LogEvent where
  code : Nat
  subject : Nat
  detail : Nat
  tag : Nat
  aux : Nat
  deriving DecidableEq, Repr

/-- The STORE block, the pantry and the larder (08). `home` holds what has reached the home groups, `queue` what is
committed and on its way, oldest first; `committedAt` is the milestone, waymark and OP of the last commit point.
`progress` is 127 where the percentage is not known (log 49). `hostLost` tells that the host command in progress has lost a write
(R244); `journalSeq` and `journalAt` are the sequence number of the next record and its first group in the journal. `logSeq` is the SEQ of the next entry, `logCount` the
entries written in the present milestone, `logLost` the events of it not written (R571). -/
structure StoreState where
  bankA : Bank
  bankB : Bank
  record : Option Bool
  recordBad : Bool
  arg0 : BitVec 32
  arg1 : BitVec 32
  buf : Vector (BitVec 32) 64
  result : BitVec 4
  op : BitVec 4
  progress : BitVec 7
  busy : Option StoreOp
  sw : SwitchState
  vfyCause : BitVec 8
  swAt : BitVec 32
  txn : Option HostTxn
  committedAt : Option (Nat × Nat × Nat)
  home : Mem
  queue : List LarderWrite
  hostLost : Bool
  journalSeq : Nat
  journalAt : Nat
  remap : List (Nat × Nat)
  spares : Nat
  lost : List Nat
  failed : List Nat
  noSpare : Bool
  wearMark : Bool
  wear : List (Nat × Nat)
  corrected : BitVec 16
  lostCount : BitVec 16
  redone : BitVec 8
  rolled : BitVec 8
  crcLost : BitVec 8
  pCorrected : BitVec 16
  pUncorr : BitVec 16
  regions : Vector RegionStat 64
  patrolWord : Nat
  patrolGroup : Nat
  logSeq : Nat
  logCount : Nat
  logLost : Nat
  logPend : List LogEvent
  deriving DecidableEq, Repr

/-- What an unlisted larder byte reads as: the factory values of Table 9.9, and 0 elsewhere (DESIGN CHOICE, log 3). -/
def larderByte (a : Nat) : Byte :=
  if a = 0x81 * 8 then 34
  else if a = 0x81 * 8 + 2 then 0xC4
  else if a = 0x81 * 8 + 3 then 0x09
  else if a = 0x83 * 8 then 0xFF
  else if a = 0x84 * 8 then 0x40
  else if a = 0x85 * 8 then 1
  else if a = 0x85 * 8 + 2 then 250
  else if a = 0x86 * 8 + 1 then 0x07
  else if a = 0x86 * 8 + 2 then 0x40
  else 0

/-- The store of a device as manufactured: banks empty, larder at factory values (DESIGN CHOICE, log 3). -/
def StoreState.reset : StoreState :=
  { bankA := Bank.blank, bankB := Bank.blank, record := none, recordBad := false, arg0 := 0, arg1 := 0,
    buf := Vector.replicate 64 0, result := 0, op := 0, progress := 0, busy := none, sw := .idle, vfyCause := 0,
    swAt := 0, txn := none, committedAt := none, home := [], queue := [], hostLost := false, journalSeq := 0, journalAt := 0, remap := [], spares := 2048, lost := [],
    failed := [], noSpare := false, wearMark := false, wear := [], corrected := 0, lostCount := 0, redone := 0,
    rolled := 0, crcLost := 0, pCorrected := 0, pUncorr := 0,
    regions := Vector.replicate 64 { overflow := false, lost := false, retired := false },
    patrolWord := 0, patrolGroup := 0, logSeq := 0, logCount := 0, logLost := 0, logPend := [] }

end Sys2Proof.Machine
end

