-- ==== Sys2Proof/Machine/StateDev.lean ====
section
/-! DEFINITION. The whole device as one value, every block's state in it, without the queue of waiting commands. -/

namespace Sys2Proof.Machine

/-- The device. `free` counts the values taken from outside the spec (see Config). -/
structure Dev where
  time : TimeState
  power : PowerState
  sys : SysState
  lane : LaneState
  cycle : CycleState
  image : Image
  store : StoreState
  mando : MandoState
  sense : SenseState
  whisk : Vector Whisk 2
  fan : FanState
  face : FaceState
  line : LineState
  seat : SeatState
  bus : BusState
  free : Nat
  deriving DecidableEq, Repr

/-- The device right after a power-on reset, at start-up step 2 of Table 9.6. -/
def Dev.reset : Dev :=
  { time := TimeState.reset, power := PowerState.reset, sys := SysState.reset, lane := LaneState.reset,
    cycle := CycleState.reset, image := noImage, store := StoreState.reset, mando := MandoState.reset,
    sense := SenseState.reset, whisk := Vector.replicate 2 Whisk.reset, fan := FanState.reset,
    face := FaceState.reset, line := LineState.reset, seat := SeatState.reset, bus := BusState.reset, free := 0 }

end Sys2Proof.Machine
end

