-- ==== Sys2Proof/Machine/Env.lean ====
section
/-! DEFINITION. What the outside world, another node or the memory cells decide, as operands of the commands that meet it. -/

namespace Sys2Proof.Machine

/-- What a read of a protected word finds in its check byte (R241). -/
inductive EccFind where
  | clean | single | double
  deriving DecidableEq, Repr

/-- What a preamble shows on one receive input (R364, R367): its level in 0.25 dBµV, and the linear SNR, in 1/16, of the 40 carriers,
or of the four tones for a tone preamble. -/
structure InputEst where
  rssi : Nat
  snr : List Nat
  deriving DecidableEq, Repr

/-- One carrier symbol as it is received: by input, how many of its 256 samples are zeroed and, by carrier position, the differential
soft metric of each bit that the carrier may carry, at the amplitudes received (R363, R364). -/
structure RxSym where
  zeroed : List Nat
  soft : List (List (List Int))
  deriving DecidableEq, Repr

/-- A preamble whose timing mark is detected (R368): what each input shows of it, the ns of its first sample and of its mark, and its
header as received: the symbols from TURN to the last of the banner, or the LEN byte of a tone frame. -/
structure PreambleEnv where
  tone : Bool
  inputs : List InputEst
  first : Nat
  mark : Nat
  header : List RxSym
  toneLen : Nat
  deriving DecidableEq, Repr

/-- One data burst as it is received: the ns of its measured start, where timing is taken from a reference symbol, and its symbols,
the reference first (R360, R365). -/
structure RxBurst where
  start : Option Nat
  syms : List RxSym
  deriving DecidableEq, Repr

/-- What reaches the receiver of a frame after its header, up to its end: for a tone frame the energies of the four tones, by symbol
after LEN and input, in the samples that are not zeroed; for a normal frame its symbols from the last of the banner on; for a robust
frame its data bursts. `snr` is the combined SNR of the 40 positions, in 0.5 dB, that preamble and header gave; `src` the neighbour
that sent the frame, for a beacon, which names no sender. -/
structure RxEnd where
  tones : List (List (List Nat))
  syms : List RxSym
  bursts : List RxBurst
  snr : List Int
  src : Nat
  deriving DecidableEq, Repr

/-- A frame delivered to the MAC (R366, R367): the report of Table 12.8 (RSSI in 0.25 dBµV, SNR of the 40 positions in 0.5 dB, inputs
combined, bursts lost, stamp in 1/16 µs), the ns of its end, its MAC frame, and the neighbour that sent it, for a beacon. -/
structure RxFrame where
  mode : LineMode
  tmid : Nat
  lost : Nat
  rssi : Nat
  snr : List Int
  phUsed : BitVec 3
  stamp : Nat
  ends : Nat
  src : Nat
  bytes : List Byte
  deriving DecidableEq, Repr

/-- The selectors of TIME (Table 7.10). -/
inductive TimeSel where
  | msLo | msHi | wm | siLo | siHi | netMsLo | netMsHi | netSiLo | netSiHi | cycle | die | netValid
  deriving DecidableEq, Repr

/-- The selectors of SELF. -/
inductive SelfSel where
  | task | pot | entry
  deriving DecidableEq, Repr

/-- What the slices convert for one sample of a script, as codes of 14 bits: the sample's own tick, the four ticks of the
converter's stream after it, and the ticks before it, the nearest first. The filter takes three of those; a stalled tick needs
one more (R291, R295). -/
structure SampleIn where
  code : Nat
  ahead : List Nat
  back : List Nat
  deriving DecidableEq, Repr

/-- What one calibration attempt measures (Table 10.5): raw offset in 1/100 LSB of 14 bits, raw gain error in ppm, raw skew in
ps, and the spread of the ground conversions in 1/100 LSB rms. -/
structure CalResult where
  offset : Int
  gain : Int
  skew : Int
  spread : Nat
  deriving DecidableEq, Repr

/-- What one event of a calibration rotation meets: how many ns after the expiry the spare is connected (Table 10.4, step 2), and
what the attempt that ends measures (steps 4 to 7). -/
structure CalEnv where
  connect : Nat
  result : CalResult
  deriving DecidableEq, Repr

/-- How one I²C transaction ended (Table 11.6): its code, how many bytes were on the wire before it did, the address among them (for
STUCK: how many SCL pulses the master sent), whether SDA stayed low after a STUCK, and the bytes read. -/
structure I2cEnd where
  code : Nat
  bytes : Nat
  sdaLow : Bool
  data : List Byte
  deriving DecidableEq, Repr

/-- What a Whisk unit measures at one decision (R448, R466): for each input the sum of its 8 corrected samples, the
command pin in mV, and whether the fault pin is high. -/
structure WhiskSample where
  iu : Nat
  iv : Nat
  iw : Nat
  vdc : Nat
  vu : Nat
  vv : Nat
  vw : Nat
  pin : Nat
  fltHigh : Bool
  deriving DecidableEq, Repr

/-- What the larder's cells show during a step of start-up (R241): the check bytes of the groups it reads that are not clean, and
the groups whose read-back after a write differs. -/
structure CellEnv where
  finds : List (Nat × EccFind)
  worn : List Nat
  deriving DecidableEq, Repr

/-- What an acceptance meets: whether the bank record cannot be read without an uncorrectable error (R268), and the check bytes
of the larder groups it reads (R241). -/
structure AcceptEnv where
  recordBad : Bool
  finds : List (Nat × EccFind)
  deriving DecidableEq, Repr

/-- What a reset meets (R232, R241, R248, R256): how many of the queued group writes were made before the power went, the groups
whose read-back then differed, how many words of a WRITE command were done, the die temperature, in 0.01 °C, at the boundary
that becomes 0:0 (R31, R50), and the ns of the event where it is later than the last boundary (R80). -/
structure ResetEnv where
  landed : Nat
  worn : List Nat
  words : Nat
  die : Int
  at' : Nat
  deriving DecidableEq, Repr

/-- One sample of a receive input at 300 kS/s (R362): its value, whether MC delivered it with GAP, and whether the device transmitted
when it was taken. -/
structure LineSample where
  value : Int
  gap : Bool
  own : Bool
  deriving DecidableEq, Repr

/-- What the memory cells show up to a boundary (R227, R241, R245): what the patrols of a milestone boundary find in the 16
pantry words and in the two larder groups; the check bytes, where not clean, of the larder groups that the device reads by itself
outside the patrol, and the groups whose read-back after the patrol's rewrite differs; the pantry words, by bank (A is false) and
number, in which an uncorrectable error has appeared; the worktop bytes in which one is reported, with what the cell then holds
(R27, R33); the die temperature sensor, in 0.01 °C (R31, R50); what the calibrations of a converter that becomes usable
measure, by converter and slice (R297); and the samples of the milestone that ends, by receive input of the Line (R362). -/
structure PatrolEnv where
  words : List EccFind
  groups : List EccFind
  reads : List (Nat × EccFind)
  worn : List Nat
  fades : List (Bool × Nat)
  tops : List (Nat × Byte)
  die : Int
  cals : List (List CalResult)
  line : List (List LineSample)
  deriving DecidableEq, Repr

/-- A request frame of Table 14.1 as it arrives whole at the seat or the tunnel port: its fields after CMD, and whether
its CRC holds. For WRITE, RESPOND, RESET and the tunnel commands `payload` holds LEN bytes (R414). -/
structure SeatReq where
  addr : BitVec 24
  len : BitVec 16
  seq : BitVec 8
  payload : List Byte
  crcOk : Bool
  deriving DecidableEq, Repr

/-- What a request meets: the fraction of the waymark at which registers are read (R56), what the check bytes of the
larder groups it reads show (R241), the words that a STORE ABORT it writes finds done (R232), and the number of the random
source for a nonce (R426). -/
structure SeatEnv where
  frac : BitVec 16
  finds : List EccFind
  words : Nat
  nonce : BitVec 256
  deriving DecidableEq, Repr

/-- What one specification of ReadPropertyMultiple asks for. -/
inductive MultiSpec where
  | one (r : BacRef)
  | all (type inst : Nat)
  | required (type inst : Nat)
  deriving DecidableEq, Repr

/-- What Who-Has asks for. -/
inductive WhoHasKey where
  | byId (type inst : Nat)
  | byName (name : List Byte)
  deriving DecidableEq, Repr

/-- Who writes a register: a host with a privileged session, one without, or a task of a pot at its commit. -/
inductive RegWriter where
  | host
  | guest
  | pot (p : Fin 16)
  deriving DecidableEq, Repr

end Sys2Proof.Machine
end

