-- ==== Sys2Proof/Machine/Float.lean ====
section
/-! DEFINITION. IEEE 754 binary32 to the extent of Table 0.6, by exact rational arithmetic and one rounding
(R173, R204): round to nearest even, subnormals kept, one canonical NaN. -/

namespace Sys2Proof.Machine

/-- The canonical NaN of Table 0.6. -/
def fNaN : Word := 0x7FC00000#32

/-- A binary32 number taken apart: `m × 2^e` with a sign, an infinity, or a NaN. -/
inductive FVal where
  | nan
  | inf (neg : Bool)
  | fin (neg : Bool) (m : Nat) (e : Int)
  deriving DecidableEq, Repr

/-- The value that 32 bits stand for. -/
def fOf (w : Word) : FVal :=
  let neg := w.msb
  let ex := bitsOf w.toNat 30 23
  let fr := bitsOf w.toNat 22 0
  if ex = 255 then (if fr = 0 then .inf neg else .nan)
  else if ex = 0 then .fin neg fr (-149)
  else .fin neg (fr + 2 ^ 23) ((ex : Int) - 150)

/-- The sign bit placed over a magnitude. -/
def fSigned (neg : Bool) (mag : Nat) : Word := BitVec.ofNat 32 (mag + (if neg then 2 ^ 31 else 0))

/-- Infinity of a sign. -/
def fInf (neg : Bool) : Word := fSigned neg 0x7F800000

/-- Quotient of naturals rounded to nearest, ties to even. -/
def natDivRne (n d : Nat) : Nat :=
  let q := n / d
  let r := 2 * (n % d)
  if r < d then q else if d < r then q + 1 else if q % 2 = 0 then q else q + 1

/-- Whether `n/d` is at least `2^k`. -/
def ratGePow (n d : Nat) (k : Int) : Bool :=
  if 0 ≤ k then d * 2 ^ k.toNat ≤ n else d ≤ n * 2 ^ (-k).toNat

/-- The greatest `k` with `2^k ≤ n/d`, both positive. -/
def ratLog2 (n d : Nat) : Int :=
  let k : Int := (n.log2 : Int) - (d.log2 : Int)
  if ratGePow n d k then k else k - 1

/-- The magnitude bits of the binary32 nearest to `n/d`. -/
def fMagOfRat (n d : Nat) : Nat :=
  if n = 0 then 0 else
  let q := max (ratLog2 n d - 23) (-149)
  let m := if 0 ≤ q then natDivRne n (d * 2 ^ q.toNat) else natDivRne (n * 2 ^ (-q).toNat) d
  let bits := if q = -149 then m else (q + 149).toNat * 2 ^ 23 + m
  min bits 0x7F800000

/-- The binary32 nearest to `±n/d`. -/
def fOfRat (neg : Bool) (n d : Nat) : Word := fSigned neg (fMagOfRat n d)

/-- The binary32 nearest to the integer `i × 2^e`; zero takes the given sign. -/
def fOfScaled (zneg : Bool) (i : Int) (e : Int) : Word :=
  if i = 0 then fSigned zneg 0
  else
    let neg := decide (i < 0)
    let n := i.natAbs
    if 0 ≤ e then fOfRat neg (n * 2 ^ e.toNat) 1 else fOfRat neg n (2 ^ (-e).toNat)

/-- A magnitude with its sign as an integer. -/
def signedMag (neg : Bool) (m : Nat) : Int := if neg then -(m : Int) else (m : Int)

/-- Binary32 sum. -/
def fAdd (a b : Word) : Word :=
  match fOf a, fOf b with
  | .nan, _ => fNaN
  | _, .nan => fNaN
  | .inf s, .inf t => if s = t then fInf s else fNaN
  | .inf s, _ => fInf s
  | _, .inf t => fInf t
  | .fin s m e, .fin t n f =>
    let g := min e f
    let x := signedMag s m * ((2 ^ (e - g).toNat : Nat) : Int) + signedMag t n * ((2 ^ (f - g).toNat : Nat) : Int)
    fOfScaled (s && t) x g

/-- The sign bit inverted, for subtraction. -/
def fFlip (a : Word) : Word := a ^^^ 0x80000000#32

/-- Binary32 difference. -/
def fSub (a b : Word) : Word := fAdd a (fFlip b)

/-- Binary32 product. -/
def fMul (a b : Word) : Word :=
  match fOf a, fOf b with
  | .nan, _ => fNaN
  | _, .nan => fNaN
  | .inf s, .inf t => fInf (s ^^ t)
  | .inf s, .fin t n _ => if n = 0 then fNaN else fInf (s ^^ t)
  | .fin s m _, .inf t => if m = 0 then fNaN else fInf (s ^^ t)
  | .fin s m e, .fin t n f => fOfScaled (s ^^ t) (signedMag (s ^^ t) (m * n)) (e + f)

/-- Binary32 quotient: non-zero by zero is infinite, zero by zero is NaN. -/
def fDiv (a b : Word) : Word :=
  match fOf a, fOf b with
  | .nan, _ => fNaN
  | _, .nan => fNaN
  | .inf _, .inf _ => fNaN
  | .inf s, .fin t _ _ => fInf (s ^^ t)
  | .fin s _ _, .inf t => fSigned (s ^^ t) 0
  | .fin s m e, .fin t n f =>
    let neg := s ^^ t
    if n = 0 then (if m = 0 then fNaN else fInf neg)
    else
      let d := e - f
      if 0 ≤ d then fOfRat neg (m * 2 ^ d.toNat) n else fOfRat neg m (n * 2 ^ (-d).toNat)

/-- A NaN made canonical, every other value through `f` (R204). -/
def fCanon (f : Word → Word) (a : Word) : Word :=
  match fOf a with
  | .nan => fNaN
  | _ => f a

/-- Sign inverted. -/
def fNeg : Word → Word := fCanon fFlip

/-- Sign cleared. -/
def fAbs : Word → Word := fCanon (fun a => a &&& 0x7FFFFFFF#32)

/-- The total order of the non-NaN values, in which −0 is less than +0. -/
def fKey (a : Word) : Int := if a.msb then -((a &&& 0x7FFFFFFF#32).toNat : Int) - 1 else (a.toNat : Int)

/-- The lesser of two, NaN if either is NaN. -/
def fMin (a b : Word) : Word :=
  match fOf a, fOf b with
  | .nan, _ => fNaN
  | _, .nan => fNaN
  | _, _ => if fKey a ≤ fKey b then a else b

/-- The greater of two, NaN if either is NaN. -/
def fMax (a b : Word) : Word :=
  match fOf a, fOf b with
  | .nan, _ => fNaN
  | _, .nan => fNaN
  | _, _ => if fKey b ≤ fKey a then a else b

/-- Correctly rounded square root. -/
def fSqrt (a : Word) : Word :=
  match fOf a with
  | .nan => fNaN
  | .inf neg => if neg then fNaN else fInf false
  | .fin neg m e =>
    if m = 0 then fSigned neg 0
    else if neg then fNaN
    else
      let e1 := if e % 2 = 0 then e - 60 else e - 61
      let n := m * 2 ^ (e - e1).toNat
      let r := isqrt n
      let x : Nat := 2 * r + (if r * r = n then 0 else 1)
      fOfScaled false (x : Int) (e1 / 2 - 1)

/-- Directions of rounding to a whole number. -/
inductive FRound where
  | floor | ceil | even | trunc
  deriving DecidableEq, Repr

/-- `m × 2^e` with a sign, rounded to a whole number. -/
def fWhole (r : FRound) (neg : Bool) (m : Nat) (e : Int) : Int :=
  if 0 ≤ e then signedMag neg (m * 2 ^ e.toNat)
  else
    let d : Nat := 2 ^ (-e).toNat
    let x := signedMag neg m
    match r with
    | .floor => x.fdiv d
    | .ceil => -((-x).fdiv d)
    | .even => divRoundEven x d
    | .trunc => signedMag neg (m / d)

/-- Rounding to a whole binary32; a zero result keeps the operand's sign. -/
def fToWhole (r : FRound) (a : Word) : Word :=
  match fOf a with
  | .nan => fNaN
  | .inf neg => fInf neg
  | .fin neg m e => fOfScaled neg (fWhole r neg m e) 0

/-- The six comparison conditions of Table 7.2. -/
inductive Cond where
  | eq | ne | lt | le | gt | ge
  deriving DecidableEq, Repr

/-- A condition over two integers. -/
def condInt (c : Cond) (a b : Int) : Bool :=
  match c with
  | .eq => a == b
  | .ne => a != b
  | .lt => decide (a < b)
  | .le => decide (a ≤ b)
  | .gt => decide (b < a)
  | .ge => decide (b ≤ a)

/-- An order key in which both zeros are equal. -/
def fOrd (a : Word) : Int := if a.msb then -((a &&& 0x7FFFFFFF#32).toNat : Int) else (a.toNat : Int)

/-- Comparison of binary32 values; with a NaN only NE holds (R205). -/
def condF (c : Cond) (a b : Word) : Bool :=
  match fOf a, fOf b with
  | .nan, _ => decide (c = .ne)
  | _, .nan => decide (c = .ne)
  | _, _ => condInt c (fOrd a) (fOrd b)

/-- Conversion of a binary32 to a bounded integer scaled by `2^k`; the Bool tells a fault (NaN). -/
def fToInt (r : FRound) (k : Nat) (lo hi : Int) (a : Word) : Int × Bool :=
  match fOf a with
  | .nan => (0, true)
  | .inf neg => (if neg then lo else hi, false)
  | .fin neg m e => (clampInt lo hi (fWhole r neg m (e + k)), false)

/-- Twice the inverse hyperbolic tangent of `n/d` < 1/2, in units of 2^−120: the odd power series. -/
def atanhGo (z2 : Nat) : Nat → Nat → Nat → Nat
  | 0, _, _ => 0
  | k + 1, p, i => p / i + atanhGo z2 k (p * z2 / 2 ^ 120) (i + 2)

/-- `2 atanh(n/d)` in units of 2^−120. -/
def atanh2 (n d : Nat) : Nat :=
  let z := n * 2 ^ 120 / d
  2 * atanhGo (z * z / 2 ^ 120) 45 z 1

/-- Natural logarithm in binary32 (R325): a fixed-point value of 120 fraction bits, rounded once. -/
def fLn (a : Word) : Word :=
  match fOf a with
  | .nan => fNaN
  | .inf neg => if neg then fNaN else fInf false
  | .fin neg m e =>
    if m = 0 then fInf true
    else if neg then fNaN
    else
      let k := m.log2
      let x : Int := (e + k) * (atanh2 1 3 : Int) + (atanh2 (m - 2 ^ k) (m + 2 ^ k) : Int)
      fOfScaled false x (-120)

/-- The binary32 nearest to a decimal `n × 10^−k`. -/
def fDec (n : Int) (k : Nat) : Word := fOfRat (decide (n < 0)) n.natAbs (10 ^ k)

/-- Alternating series of atan, in units of 2^−96. -/
def atanSeries (z2 : Nat) : Nat → Nat → Nat → Int
  | 0, _, _ => 0
  | k + 1, p, i => ((p / i : Nat) : Int) - atanSeries z2 k (p * z2 / 2 ^ 96) (i + 2)

/-- atan of `n/d` ≤ 1/2 in units of 2^−96 rad. -/
def atanSmall (n d : Nat) : Int :=
  let z := n * 2 ^ 96 / d
  atanSeries (z * z / 2 ^ 96) 50 z 1

/-- π in units of 2^−96. -/
def piFixed : Int := 16 * atanSmall 1 5 - 4 * atanSmall 1 239

/-- atan of `n/d` in [0, 1], in units of 2^−96 rad. -/
def atanUnit (n d : Nat) : Int :=
  if 2 * n ≤ d then atanSmall n d else piFixed / 4 - atanSmall (d - n) (d + n)

/-- atan2 of two integers in units of 2^−96 rad, in [−π, π); 0 of two zeros. -/
def atan2Fixed (y x : Int) : Int :=
  let a := y.natAbs
  let b := x.natAbs
  if a = 0 && b = 0 then 0
  else
    let q := if a ≤ b then atanUnit a b else piFixed / 2 - atanUnit b a
    let h := if 0 ≤ x then q else piFixed - q
    if 0 ≤ y then (if h = piFixed then -piFixed else h) else -h

/-- Two finite values brought to one scale as integers; none of a NaN or an infinity. -/
def fPair (a b : Word) : Option (Int × Int) :=
  match fOf a, fOf b with
  | .fin s m e, .fin t n f =>
    let g := min e f
    some (signedMag s m * ((2 ^ (e - g).toNat : Nat) : Int), signedMag t n * ((2 ^ (f - g).toNat : Nat) : Int))
  | _, _ => none

end Sys2Proof.Machine
end

