-- ==== Sys2Proof/Syntax.lean ====
section
/-! DEFINITION. The commands of the device: one constructor for each row of the command table. Rhamet's instructions carry the
task that runs them; operands that the outside world decides have the types of Machine/Env.lean. -/

namespace Sys2Proof

open Sys2Proof.Machine

/-- The commands, in the order of the table, each with the rule of its row. -/
inductive Instr where
  /-- POWER_ON (R265). -/
  | powerOn (e : ResetEnv)
  /-- BROWN_OUT (R254). -/
  | brownOut (e : ResetEnv)
  /-- RESET_N (R255). -/
  | resetN
  /-- RESET_WARM (R259). -/
  | resetWarm
  /-- RESET_COLD (R259). -/
  | resetCold
  /-- RESET_APPLY (R256). -/
  | resetApply (e : ResetEnv)
  /-- DOMAIN_FAULT (R80). -/
  | domainFault (n : Fin 16) (e : ResetEnv)
  /-- STRAP_LATCH (R262). -/
  | strapLatch (tstrap : BitVec 3) (prov up down : Bool)
  /-- PARAMETER_LOAD (R265). -/
  | parameterLoad (c : CellEnv)
  /-- JOURNAL_RECOVERY (R249). -/
  | journalRecovery (c : CellEnv)
  /-- IMAGE_ACCEPTANCE (R197). -/
  | imageAcceptance (e : AcceptEnv)
  /-- RETRY (R279). -/
  | retry
  /-- TOLL_AUTO_RESET (R282). -/
  | tollAutoReset (e : ResetEnv)
  /-- TOLL_AUTO_CLEAR (R282). -/
  | tollAutoClear
  /-- BOOT_READ (R272). -/
  | bootRead
  /-- ZC_CROSSING (R38). -/
  | zcCrossing (i : Fin 3) (stamp high : Nat)
  /-- ZC_TIMEOUT (R42). -/
  | zcTimeout (i : Fin 3)
  /-- HOLDOVER_EXPIRY (R42). -/
  | holdoverExpiry
  /-- XTAL_FAIL (R53). -/
  | xtalFail
  /-- XTAL_SWITCHOVER (R266). -/
  | xtalSwitchover
  /-- XTAL_START_TIMEOUT (R266). -/
  | xtalStartTimeout
  /-- XTAL_COMP (R50). -/
  | xtalComp (temp : Int)
  /-- DIE_TEMP_REFRESH (R31). -/
  | dieTempRefresh (temp : Int)
  /-- NET_CHECKPOINT (R55). -/
  | netCheckpoint
  /-- BEACON_TIMEOUT (R25). -/
  | beaconTimeout
  /-- TIME_MS_LO_READ (R56). -/
  | timeMsLoRead (who : Fin 17) (frac : BitVec 16)
  /-- TIME_SI_LO_READ (R56). -/
  | timeSiLoRead (who : Fin 17) (frac : BitVec 16)
  /-- SI_OFS_WRITE (R55). -/
  | siOfsWrite (hi : Word)
  /-- WAYMARK_BOUNDARY (R124). -/
  | waymarkBoundary (p : PatrolEnv) (e : ResetEnv)
  /-- AUTORUN (R157). -/
  | autorun
  /-- RUN_WARM (R157). -/
  | runWarm
  /-- RUN_COLD (R157). -/
  | runCold
  /-- HALT (R157). -/
  | halt
  /-- POT_STOP (R160). -/
  | potStop (p : Fin 16) (host : Bool)
  /-- POT_WARM (R160). -/
  | potWarm (p : Fin 16) (host : Bool)
  /-- POT_COLD (R160). -/
  | potCold (p : Fin 16) (host : Bool)
  /-- FORCE_TABLE_WRITE (R148). -/
  | forceTableWrite (i : Fin 256) (value : Bool) (v : Word)
  /-- FORCE_CLEAR_ALL (R154). -/
  | forceClearAll
  /-- PD_REQ_WRITE (R71). -/
  | pdReqWrite (v : Word) (host : Bool)
  /-- GUAR_ACK_RETIRE (R35). -/
  | guarAckRetire
  /-- LANE_XCHG (R92). -/
  | laneXchg (v : Word)
  /-- REGISTER_WRITE (R545). -/
  | registerWrite (w : RegWriter) (a : BitVec 24) (v : Word)
  /-- SELFTEST (R86). -/
  | selftest (k : Fin 48) (good : Bool)
  /-- LANE_STALL (R89). -/
  | laneStall (k : Fin 48)
  /-- LANE_PARITY (R89). -/
  | laneParity (k : Fin 48)
  /-- LANE_EXCHANGE (R88). -/
  | laneExchange
  /-- ERASE (R231). -/
  | erase (b : Bool)
  /-- ERASE_COMPLETE (R231). -/
  | eraseComplete
  /-- STORE_WRITE (R231). -/
  | storeWrite (b : Bool)
  /-- SEAL (R224). -/
  | storeSeal (b : Bool)
  /-- SEAL_COMPLETE (R224). -/
  | sealComplete
  /-- SWITCH (R233). -/
  | bankSwitchTo (b : Bool)
  /-- SWITCH_VERIFIED (R234). -/
  | switchVerified
  /-- BANK_SWITCH (R236). -/
  | bankSwitch
  /-- ABORT (R232). -/
  | storeAbort (words : Nat)
  /-- TXN_BEGIN (R231). -/
  | txnBegin
  /-- TXN_WRITE (R231). -/
  | txnWrite
  /-- TXN_COMMIT (R231). -/
  | txnCommit
  /-- PROVISION (R240). -/
  | provision (priv : Bool)
  /-- LARDER_WRITE_COMPLETE (R248). -/
  | larderWriteComplete (ok : Bool)
  /-- WEAR_WRITEBACK (R253). -/
  | wearWriteback
  /-- CALIBRATION_ROTATION (R292). -/
  | calibrationRotation (k : Fin 4) (e : CalEnv)
  /-- SLICE_STALL (R295). -/
  | sliceStall (k : Fin 4) (slice : Fin 9) (at' : Nat)
  /-- CROSSING_ASSERT (R300). -/
  | crossingAssert (i : Fin 16) (stamp level : Nat)
  /-- CROSSING_DEASSERT (R300). -/
  | crossingDeassert (i : Fin 16) (stamp level : Nat)
  /-- SCRIPT_START (R310). -/
  | scriptStart (n : Fin 16)
  /-- SCRIPT_ABORT (R314). -/
  | scriptAbort (n : Fin 16)
  /-- SCRIPT_END (R309). -/
  | scriptEnd (n : Fin 16)
  /-- SAMPLE (R309). -/
  | scriptSample (n : Fin 16) (vs : List SampleIn)
  /-- AVERAGE (R312). -/
  | scriptAverage (n : Fin 16) (vs : List SampleIn)
  /-- WAIT (R309). -/
  | scriptWait (n : Fin 16)
  /-- REPEAT (R309). -/
  | scriptRepeat (n : Fin 16)
  /-- MARK (R309). -/
  | scriptMark (n : Fin 16)
  /-- FIRE (R306). -/
  | scriptFire (n : Fin 16)
  /-- GSAMPLE (R306). -/
  | scriptGsample (n : Fin 16) (v : SampleIn)
  /-- SENSE_SEQUENCE (R321). -/
  | senseSequence (vs : List (List Int))
  /-- DI_LEVEL_CHANGE (R332). -/
  | diLevelChange (i : Fin 8) (level : Bool) (stamp run : Nat)
  /-- I2C_WRITE_PHASE (R337). -/
  | i2cWritePhase (es : List I2cEnd)
  /-- I2C_READ_PHASE (R337). -/
  | i2cReadPhase (es : List I2cEnd)
  /-- I2C_TIMEOUT (R338). -/
  | i2cTimeout (x : Fin 8) (read : Bool) (bytes : Nat)
  /-- PHY_CFG_APPLY (R346). -/
  | phyCfgApply
  /-- CARRIER_DETECT (R375). -/
  | carrierDetect (at' : Nat) (noise : BitVec 8)
  /-- BAND_IN_USE (R379). -/
  | bandInUse
  /-- PREAMBLE_DETECT (R368). -/
  | preambleDetect (p : PreambleEnv)
  /-- FRAME_START (R373). -/
  | frameStart (k : Fin 8) (rnd : Nat) (heard : Option Nat)
  /-- FRAME_SENT (R369). -/
  | frameSent
  /-- BEACON (R394). -/
  | beacon (f : RxEnd)
  /-- TIME_FRAME (R396). -/
  | timeFrame (f : RxEnd)
  /-- ACK (R387). -/
  | ackFrame (f : RxEnd)
  /-- ACK_TIMEOUT (R387). -/
  | ackTimeout (lseq : Nat)
  /-- MAP_ASK (R388). -/
  | mapAsk (f : RxEnd)
  /-- MAP_OFFER (R390). -/
  | mapOffer (f : RxEnd)
  /-- MAP_REFRESH (R390). -/
  | mapRefresh (n : BitVec 12)
  /-- JOIN_REQ (R400). -/
  | joinReq (f : RxEnd)
  /-- JOIN_ACC (R398). -/
  | joinAcc (f : RxEnd)
  /-- JOIN_RETRY (R398). -/
  | joinRetry
  /-- COURIER (R407). -/
  | courier (f : RxEnd)
  /-- COURIER_STALE (R407). -/
  | courierStale (g : BitVec 8) (producer : BitVec 12)
  /-- CONVOY (R409). -/
  | convoy (f : RxEnd)
  /-- TUNNEL (R432). -/
  | tunnel (f : RxEnd) (e : SeatEnv)
  /-- PROBE (R391). -/
  | probe (f : RxEnd)
  /-- PROBE_GO (R391). -/
  | probeGo (dst : BitVec 12)
  /-- PROBE_TIMEOUT (R391). -/
  | probeTimeout
  /-- JCLR (R400). -/
  | jclr (addr : BitVec 12)
  /-- IDENTIFY (R423). -/
  | identify (r : SeatReq)
  /-- TAKE (R412). -/
  | take (r : SeatReq)
  /-- RELEASE (R413). -/
  | release (r : SeatReq)
  /-- SEAT_READ (R422). -/
  | seatRead (r : SeatReq) (e : SeatEnv)
  /-- SEAT_WRITE (R422). -/
  | seatWrite (r : SeatReq) (e : SeatEnv)
  /-- CHALLENGE (R426). -/
  | challenge (r : SeatReq) (e : SeatEnv)
  /-- RESPOND (R426). -/
  | respond (r : SeatReq) (e : SeatEnv)
  /-- CLOSE (R428). -/
  | close (r : SeatReq)
  /-- SEAT_RESET (R260). -/
  | seatReset (r : SeatReq)
  /-- TUN_OPEN (R431). -/
  | tunOpen (r : SeatReq)
  /-- TUN_SEND (R431). -/
  | tunSend (r : SeatReq) (e : SeatEnv)
  /-- TUN_RECV (R431). -/
  | tunRecv (r : SeatReq)
  /-- TUN_CLOSE (R431). -/
  | tunClose (r : SeatReq)
  /-- CS_N_EARLY_RISE (R417). -/
  | csNEarlyRise
  /-- SEAT_IDLE_FREE (R413). -/
  | seatIdleFree
  /-- TOKEN (R435). -/
  | token (dst : BitVec 8)
  /-- POLL_FOR_MASTER (R433). -/
  | pollForMaster (src dst : BitVec 8)
  /-- REPLY_TO_POLL_FOR_MASTER (R433). -/
  | replyToPollForMaster (src dst : BitVec 8)
  /-- TEST_REQUEST (R541). -/
  | testRequest (src dst : BitVec 8) (data : List Byte)
  /-- TEST_RESPONSE (R433). -/
  | testResponse (dst : BitVec 8)
  /-- BACNET_DATA_EXPECTING_REPLY (R436). -/
  | bacnetDataExpectingReply (src dst : BitVec 8) (data : List Byte)
  /-- BACNET_DATA_NOT_EXPECTING_REPLY (R541). -/
  | bacnetDataNotExpectingReply (src dst : BitVec 8) (data : List Byte)
  /-- REPLY_POSTPONED (R433). -/
  | replyPostponed (dst : BitVec 8)
  /-- NO_TOKEN_TIMEOUT (R435). -/
  | noTokenTimeout
  /-- TX_SLOT_SUBMIT (R542). -/
  | txSlotSubmit (i : Fin 4)
  /-- READ_PROPERTY (R438). -/
  | readProperty (mac invoke : BitVec 8) (r : BacRef)
  /-- READ_PROPERTY_MULTIPLE (R441). -/
  | readPropertyMultiple (mac invoke : BitVec 8) (specs : List MultiSpec)
  /-- WRITE_PROPERTY (R440). -/
  | writeProperty (mac invoke : BitVec 8) (r : BacRef) (v : BacValue)
  /-- WHO_IS (R441). -/
  | whoIs (limits : Option (Nat × Nat))
  /-- WHO_HAS (R441). -/
  | whoHas (key : WhoHasKey)
  /-- SUBSCRIBE_COV (R442). -/
  | subscribeCov (mac invoke : BitVec 8) (process type inst lifetime : Nat) (confirmed : Bool)
  /-- COV_LIFETIME_EXPIRY (R442). -/
  | covLifetimeExpiry
  /-- DECISION (R449). -/
  | decision (u : Fin 2) (x : WhiskSample)
  /-- ESTIMATE (R468). -/
  | estimate (u : Fin 2) (now : Nat)
  /-- ALIGN_COMPLETE (R456). -/
  | alignComplete (u : Fin 2)
  /-- STANDSTILL_TIMEOUT (R468). -/
  | standstillTimeout (u : Fin 2)
  /-- OVERCURRENT (R470). -/
  | overcurrent (u : Fin 2)
  /-- DC_VOLTAGE (R470). -/
  | dcVoltage (u : Fin 2)
  /-- DRV_FAULT (R470). -/
  | drvFault (u : Fin 2)
  /-- CMD_LOSS (R467). -/
  | cmdLoss (u : Fin 2)
  /-- CMD_REGAINED (R467). -/
  | cmdRegained (u : Fin 2)
  /-- KICK_END (R484). -/
  | kickEnd (f : Fin 6)
  /-- TACH_EDGE (R486). -/
  | tachEdge (f : Fin 6) (stamp : Nat)
  /-- TACH_LOST (R487). -/
  | tachLost (f : Fin 6)
  /-- FAN_CAPTURE (R489). -/
  | fanCapture (go : BitVec 6)
  /-- SHDN_COMPARE (R490). -/
  | shdnCompare (die : Int) (ohm : Nat)
  /-- REVERSAL_PAUSE_END (R498). -/
  | reversalPauseEnd (k : Fin 4)
  /-- OVERTRAVEL_END (R498). -/
  | overtravelEnd (k : Fin 4)
  /-- HOMING_COMPLETE (R499). -/
  | homingComplete (k : Fin 4)
  /-- FACE_FRAME_START (R509). -/
  | faceFrameStart (k : Nat) (heads : List Nat) (fv : Option (List Int))
  /-- FACE_OPERATION_COMPLETE (R515). -/
  | faceOperationComplete (p : Fin 16)
  /-- STRESS_FLUSH (R525). -/
  | stressFlush
  /-- FV_PASS_START (R529). -/
  | fvPassStart
  /-- STENCIL_END (R523). -/
  | stencilEnd (r : Fin 16)
  /-- INK (R523). -/
  | stencilInk (r : Fin 16)
  /-- FILL (R523). -/
  | stencilFill (r : Fin 16)
  /-- MASK (R523). -/
  | stencilMask (r : Fin 16)
  /-- DIGITS (R523). -/
  | stencilDigits (r : Fin 16)
  /-- ARROW (R523). -/
  | stencilArrow (r : Fin 16)
  /-- NOP (R202). -/
  | rhNop (t : Fin 64)
  /-- PUSH_I8 (R202). -/
  | rhPushI8 (t : Fin 64) (v : BitVec 8)
  /-- PUSH_I16 (R202). -/
  | rhPushI16 (t : Fin 64) (v : BitVec 16)
  /-- PUSH_I32 (R202). -/
  | rhPushI32 (t : Fin 64) (v : Word)
  /-- PUSH_U32 (R202). -/
  | rhPushU32 (t : Fin 64) (v : Word)
  /-- PUSH_Q (R202). -/
  | rhPushQ (t : Fin 64) (v : Word)
  /-- PUSH_F (R202). -/
  | rhPushF (t : Fin 64) (v : Word)
  /-- DROP (R202). -/
  | rhDrop (t : Fin 64)
  /-- DUP (R202). -/
  | rhDup (t : Fin 64)
  /-- SWAP (R202). -/
  | rhSwap (t : Fin 64)
  /-- OVER (R202). -/
  | rhOver (t : Fin 64)
  /-- ROT (R202). -/
  | rhRot (t : Fin 64)
  /-- PICK (R202). -/
  | rhPick (t : Fin 64) (k : BitVec 8)
  /-- LD_L (R202). -/
  | rhLdL (t : Fin 64) (i : BitVec 8)
  /-- ST_L (R202). -/
  | rhStL (t : Fin 64) (i : BitVec 8)
  /-- TEE_L (R202). -/
  | rhTeeL (t : Fin 64) (i : BitVec 8)
  /-- ADD_I (R203). -/
  | rhAddI (t : Fin 64)
  /-- SUB_I (R203). -/
  | rhSubI (t : Fin 64)
  /-- MUL_I (R203). -/
  | rhMulI (t : Fin 64)
  /-- DIV_I (R203). -/
  | rhDivI (t : Fin 64)
  /-- REM_I (R203). -/
  | rhRemI (t : Fin 64)
  /-- NEG_I (R203). -/
  | rhNegI (t : Fin 64)
  /-- ABS_I (R203). -/
  | rhAbsI (t : Fin 64)
  /-- ADDS_I (R203). -/
  | rhAddsI (t : Fin 64)
  /-- SUBS_I (R203). -/
  | rhSubsI (t : Fin 64)
  /-- MULS_I (R203). -/
  | rhMulsI (t : Fin 64)
  /-- NEGS_I (R203). -/
  | rhNegsI (t : Fin 64)
  /-- ABSS_I (R203). -/
  | rhAbssI (t : Fin 64)
  /-- MIN_I (R203). -/
  | rhMinI (t : Fin 64)
  /-- MAX_I (R203). -/
  | rhMaxI (t : Fin 64)
  /-- ADD_U (R203). -/
  | rhAddU (t : Fin 64)
  /-- SUB_U (R203). -/
  | rhSubU (t : Fin 64)
  /-- MUL_U (R203). -/
  | rhMulU (t : Fin 64)
  /-- DIV_U (R203). -/
  | rhDivU (t : Fin 64)
  /-- REM_U (R203). -/
  | rhRemU (t : Fin 64)
  /-- ADDS_U (R203). -/
  | rhAddsU (t : Fin 64)
  /-- SUBS_U (R203). -/
  | rhSubsU (t : Fin 64)
  /-- MULS_U (R203). -/
  | rhMulsU (t : Fin 64)
  /-- MIN_U (R203). -/
  | rhMinU (t : Fin 64)
  /-- MAX_U (R203). -/
  | rhMaxU (t : Fin 64)
  /-- ADD_Q (R204). -/
  | rhAddQ (t : Fin 64)
  /-- SUB_Q (R204). -/
  | rhSubQ (t : Fin 64)
  /-- MUL_Q (R204). -/
  | rhMulQ (t : Fin 64)
  /-- DIV_Q (R204). -/
  | rhDivQ (t : Fin 64)
  /-- NEG_Q (R204). -/
  | rhNegQ (t : Fin 64)
  /-- ABS_Q (R204). -/
  | rhAbsQ (t : Fin 64)
  /-- MIN_Q (R204). -/
  | rhMinQ (t : Fin 64)
  /-- MAX_Q (R204). -/
  | rhMaxQ (t : Fin 64)
  /-- ADD_F (R204). -/
  | rhAddF (t : Fin 64)
  /-- SUB_F (R204). -/
  | rhSubF (t : Fin 64)
  /-- MUL_F (R204). -/
  | rhMulF (t : Fin 64)
  /-- DIV_F (R204). -/
  | rhDivF (t : Fin 64)
  /-- NEG_F (R204). -/
  | rhNegF (t : Fin 64)
  /-- ABS_F (R204). -/
  | rhAbsF (t : Fin 64)
  /-- MIN_F (R204). -/
  | rhMinF (t : Fin 64)
  /-- MAX_F (R204). -/
  | rhMaxF (t : Fin 64)
  /-- SQRT_F (R204). -/
  | rhSqrtF (t : Fin 64)
  /-- FLOOR_F (R204). -/
  | rhFloorF (t : Fin 64)
  /-- CEIL_F (R204). -/
  | rhCeilF (t : Fin 64)
  /-- ROUND_F (R204). -/
  | rhRoundF (t : Fin 64)
  /-- TRUNC_F (R204). -/
  | rhTruncF (t : Fin 64)
  /-- CMP_I (R205). -/
  | rhCmpI (t : Fin 64) (c : Cond)
  /-- CMP_U (R205). -/
  | rhCmpU (t : Fin 64) (c : Cond)
  /-- CMP_Q (R205). -/
  | rhCmpQ (t : Fin 64) (c : Cond)
  /-- CMP_F (R205). -/
  | rhCmpF (t : Fin 64) (c : Cond)
  /-- AND (R205). -/
  | rhAnd (t : Fin 64)
  /-- OR (R205). -/
  | rhOr (t : Fin 64)
  /-- XOR (R205). -/
  | rhXor (t : Fin 64)
  /-- NOT (R205). -/
  | rhNot (t : Fin 64)
  /-- SHL_I (R205). -/
  | rhShlI (t : Fin 64)
  /-- SHL_U (R205). -/
  | rhShlU (t : Fin 64)
  /-- SHR_I (R205). -/
  | rhShrI (t : Fin 64)
  /-- SHR_U (R205). -/
  | rhShrU (t : Fin 64)
  /-- ROTL (R205). -/
  | rhRotl (t : Fin 64)
  /-- ROTR (R205). -/
  | rhRotr (t : Fin 64)
  /-- CLZ (R205). -/
  | rhClz (t : Fin 64)
  /-- POPC (R205). -/
  | rhPopc (t : Fin 64)
  /-- EQZ (R205). -/
  | rhEqz (t : Fin 64)
  /-- I2U (R206). -/
  | rhI2u (t : Fin 64)
  /-- U2I (R206). -/
  | rhU2i (t : Fin 64)
  /-- I2F (R206). -/
  | rhI2f (t : Fin 64)
  /-- U2F (R206). -/
  | rhU2f (t : Fin 64)
  /-- Q2F (R206). -/
  | rhQ2f (t : Fin 64)
  /-- F2I (R206). -/
  | rhF2i (t : Fin 64)
  /-- F2U (R206). -/
  | rhF2u (t : Fin 64)
  /-- F2Q (R206). -/
  | rhF2q (t : Fin 64)
  /-- I2Q (R206). -/
  | rhI2q (t : Fin 64)
  /-- U2Q (R206). -/
  | rhU2q (t : Fin 64)
  /-- Q2I (R206). -/
  | rhQ2i (t : Fin 64)
  /-- F_BITS (R206). -/
  | rhFBits (t : Fin 64)
  /-- F_FROM (R206). -/
  | rhFFrom (t : Fin 64)
  /-- Q_BITS (R206). -/
  | rhQBits (t : Fin 64)
  /-- Q_FROM (R206). -/
  | rhQFrom (t : Fin 64)
  /-- BR (R207). -/
  | rhBr (t : Fin 64) (ofs : BitVec 16)
  /-- BRZ (R207). -/
  | rhBrz (t : Fin 64) (ofs : BitVec 16)
  /-- BRNZ (R207). -/
  | rhBrnz (t : Fin 64) (ofs : BitVec 16)
  /-- LOOP (R175). -/
  | rhLoop (t : Fin 64) (mx back : BitVec 16)
  /-- CALL (R208). -/
  | rhCall (t : Fin 64) (fn : BitVec 16)
  /-- RET (R171). -/
  | rhRet (t : Fin 64)
  /-- SELECT (R207). -/
  | rhSelect (t : Fin 64)
  /-- LD8U (R209). -/
  | rhLd8u (t : Fin 64)
  /-- LD8S (R209). -/
  | rhLd8s (t : Fin 64)
  /-- LD16U (R209). -/
  | rhLd16u (t : Fin 64)
  /-- LD16S (R209). -/
  | rhLd16s (t : Fin 64)
  /-- LD32 (R209). -/
  | rhLd32 (t : Fin 64) (ty : RhType)
  /-- ST8 (R209). -/
  | rhSt8 (t : Fin 64)
  /-- ST16 (R209). -/
  | rhSt16 (t : Fin 64)
  /-- ST32 (R209). -/
  | rhSt32 (t : Fin 64)
  /-- LDC8U (R180). -/
  | rhLdc8u (t : Fin 64)
  /-- LDC16U (R180). -/
  | rhLdc16u (t : Fin 64)
  /-- LDC32 (R180). -/
  | rhLdc32 (t : Fin 64) (ty : RhType)
  /-- IN (R210). -/
  | rhIn (t : Fin 64) (ch : BitVec 10) (el : BitVec 6) (ty : RhType)
  /-- INST (R210). -/
  | rhInst (t : Fin 64) (ch : BitVec 10) (el : BitVec 6)
  /-- OUT (R211). -/
  | rhOut (t : Fin 64) (ch : BitVec 10) (el : BitVec 6) (ty : RhType)
  /-- OUTGET (R211). -/
  | rhOutget (t : Fin 64) (ch : BitVec 10) (el : BitVec 6) (ty : RhType)
  /-- PREV (R210). -/
  | rhPrev (t : Fin 64) (ch : BitVec 10) (el : BitVec 6) (ty : RhType)
  /-- EDGE_R (R210). -/
  | rhEdgeR (t : Fin 64) (ch : BitVec 10) (el : BitVec 6)
  /-- EDGE_F (R210). -/
  | rhEdgeF (t : Fin 64) (ch : BitVec 10) (el : BitVec 6)
  /-- CAP_N (R212). -/
  | rhCapN (t : Fin 64) (ch : BitVec 10)
  /-- CAP_X (R212). -/
  | rhCapX (t : Fin 64) (ch : BitVec 10)
  /-- CAP_CP (R212). -/
  | rhCapCp (t : Fin 64) (ch : BitVec 10)
  /-- T_START (R214). -/
  | rhTStart (t : Fin 64) (ms : Bool)
  /-- T_EXP (R214). -/
  | rhTExp (t : Fin 64)
  /-- T_LEFT (R214). -/
  | rhTLeft (t : Fin 64)
  /-- TIME (R213). -/
  | rhTime (t : Fin 64) (sel : TimeSel)
  /-- REG_RD (R220). -/
  | rhRegRd (t : Fin 64) (a : BitVec 24)
  /-- REG_WR (R220). -/
  | rhRegWr (t : Fin 64) (a : BitVec 24)
  /-- SELF (R213). -/
  | rhSelf (t : Fin 64) (sel : SelfSel)
  /-- H_RD (R215). -/
  | rhHRd (t : Fin 64) (h : BitVec 6) (wd : BitVec 4) (ty : RhType)
  /-- H_WR (R215). -/
  | rhHWr (t : Fin 64) (h : BitVec 6) (wd : BitVec 4) (ty : RhType)
  /-- H_GEN (R215). -/
  | rhHGen (t : Fin 64) (h : BitVec 6)
  /-- L_RD (R216). -/
  | rhLRd (t : Fin 64) (r : BitVec 6) (half : Bool) (g : BitVec 15) (ty : RhType) (e : EccFind)
  /-- L_WR (R217). -/
  | rhLWr (t : Fin 64) (r : BitVec 6) (half : Bool) (g : BitVec 15) (ty : RhType)
  /-- L_STAT (R221). -/
  | rhLStat (t : Fin 64) (r : BitVec 6)
  /-- S_RUN (R218). -/
  | rhSRun (t : Fin 64) (n : BitVec 4)
  /-- S_STOP (R218). -/
  | rhSStop (t : Fin 64) (n : BitVec 4)
  /-- S_PAR (R218). -/
  | rhSPar (t : Fin 64) (n k : BitVec 4)
  /-- S_STAT (R221). -/
  | rhSStat (t : Fin 64) (n : BitVec 4)
  /-- F_RECT (R219). -/
  | rhFRect (t : Fin 64) (r : BitVec 4)
  /-- F_ABORT (R519). -/
  | rhFAbort (t : Fin 64) (r : BitVec 4)
  /-- F_STEN (R219). -/
  | rhFSten (t : Fin 64) (k : BitVec 16)
  /-- F_STAT (R221). -/
  | rhFStat (t : Fin 64) (r : BitVec 4)
  /-- RESET_N_RELEASE (R255). -/
  | resetNRelease
  /-- BAND_NOT_IN_USE (R379). -/
  | bandNotInUse
  /-- SPEED_COMMAND_EDGE (R466). -/
  | speedCommandEdge (u : Fin 2) (rise : Bool) (stamp : Nat)
  /-- STORE_WRITE_COMPLETE (R231). -/
  | storeWriteComplete
  /-- UNSUPPORTED_FRAME (R433). -/
  | unsupportedFrame
  /-- CRC_ERR (R436). -/
  | crcErr
  /-- T_USAGE_TIMEOUT (R435). -/
  | tUsageTimeout
  deriving DecidableEq, Repr

end Sys2Proof
end

