-- ==== Sys2Proof/Machine/Crypto.lean ====
section
/-! DEFINITION. The published standards of Table 0.6 that the device applies: SHA-256 and SHA-512, HMAC-SHA-256,
AES-128-CCM with an 8-byte integrity code, and Ed25519 verification. -/

namespace Sys2Proof.Machine

/-- Round constants of SHA-256. -/
def sha256K : List (BitVec 32) :=
  [0x428A2F98#32, 0x71374491#32, 0xB5C0FBCF#32, 0xE9B5DBA5#32, 0x3956C25B#32, 0x59F111F1#32, 0x923F82A4#32, 0xAB1C5ED5#32] ++
  [0xD807AA98#32, 0x12835B01#32, 0x243185BE#32, 0x550C7DC3#32, 0x72BE5D74#32, 0x80DEB1FE#32, 0x9BDC06A7#32, 0xC19BF174#32] ++
  [0xE49B69C1#32, 0xEFBE4786#32, 0x0FC19DC6#32, 0x240CA1CC#32, 0x2DE92C6F#32, 0x4A7484AA#32, 0x5CB0A9DC#32, 0x76F988DA#32] ++
  [0x983E5152#32, 0xA831C66D#32, 0xB00327C8#32, 0xBF597FC7#32, 0xC6E00BF3#32, 0xD5A79147#32, 0x06CA6351#32, 0x14292967#32] ++
  [0x27B70A85#32, 0x2E1B2138#32, 0x4D2C6DFC#32, 0x53380D13#32, 0x650A7354#32, 0x766A0ABB#32, 0x81C2C92E#32, 0x92722C85#32] ++
  [0xA2BFE8A1#32, 0xA81A664B#32, 0xC24B8B70#32, 0xC76C51A3#32, 0xD192E819#32, 0xD6990624#32, 0xF40E3585#32, 0x106AA070#32] ++
  [0x19A4C116#32, 0x1E376C08#32, 0x2748774C#32, 0x34B0BCB5#32, 0x391C0CB3#32, 0x4ED8AA4A#32, 0x5B9CCA4F#32, 0x682E6FF3#32] ++
  [0x748F82EE#32, 0x78A5636F#32, 0x84C87814#32, 0x8CC70208#32, 0x90BEFFFA#32, 0xA4506CEB#32, 0xBEF9A3F7#32, 0xC67178F2#32]

/-- Initial hash value of SHA-256. -/
def sha256H : List (BitVec 32) :=
  [0x6A09E667#32, 0xBB67AE85#32, 0x3C6EF372#32, 0xA54FF53A#32, 0x510E527F#32, 0x9B05688C#32, 0x1F83D9AB#32, 0x5BE0CD19#32]

/-- Round constants of SHA-512, used by Ed25519. -/
def sha512K : List (BitVec 64) :=
  [0x428A2F98D728AE22#64, 0x7137449123EF65CD#64, 0xB5C0FBCFEC4D3B2F#64, 0xE9B5DBA58189DBBC#64] ++
  [0x3956C25BF348B538#64, 0x59F111F1B605D019#64, 0x923F82A4AF194F9B#64, 0xAB1C5ED5DA6D8118#64] ++
  [0xD807AA98A3030242#64, 0x12835B0145706FBE#64, 0x243185BE4EE4B28C#64, 0x550C7DC3D5FFB4E2#64] ++
  [0x72BE5D74F27B896F#64, 0x80DEB1FE3B1696B1#64, 0x9BDC06A725C71235#64, 0xC19BF174CF692694#64] ++
  [0xE49B69C19EF14AD2#64, 0xEFBE4786384F25E3#64, 0x0FC19DC68B8CD5B5#64, 0x240CA1CC77AC9C65#64] ++
  [0x2DE92C6F592B0275#64, 0x4A7484AA6EA6E483#64, 0x5CB0A9DCBD41FBD4#64, 0x76F988DA831153B5#64] ++
  [0x983E5152EE66DFAB#64, 0xA831C66D2DB43210#64, 0xB00327C898FB213F#64, 0xBF597FC7BEEF0EE4#64] ++
  [0xC6E00BF33DA88FC2#64, 0xD5A79147930AA725#64, 0x06CA6351E003826F#64, 0x142929670A0E6E70#64] ++
  [0x27B70A8546D22FFC#64, 0x2E1B21385C26C926#64, 0x4D2C6DFC5AC42AED#64, 0x53380D139D95B3DF#64] ++
  [0x650A73548BAF63DE#64, 0x766A0ABB3C77B2A8#64, 0x81C2C92E47EDAEE6#64, 0x92722C851482353B#64] ++
  [0xA2BFE8A14CF10364#64, 0xA81A664BBC423001#64, 0xC24B8B70D0F89791#64, 0xC76C51A30654BE30#64] ++
  [0xD192E819D6EF5218#64, 0xD69906245565A910#64, 0xF40E35855771202A#64, 0x106AA07032BBD1B8#64] ++
  [0x19A4C116B8D2D0C8#64, 0x1E376C085141AB53#64, 0x2748774CDF8EEB99#64, 0x34B0BCB5E19B48A8#64] ++
  [0x391C0CB3C5C95A63#64, 0x4ED8AA4AE3418ACB#64, 0x5B9CCA4F7763E373#64, 0x682E6FF3D6B2B8A3#64] ++
  [0x748F82EE5DEFB2FC#64, 0x78A5636F43172F60#64, 0x84C87814A1F0AB72#64, 0x8CC702081A6439EC#64] ++
  [0x90BEFFFA23631E28#64, 0xA4506CEBDE82BDE9#64, 0xBEF9A3F7B2C67915#64, 0xC67178F2E372532B#64] ++
  [0xCA273ECEEA26619C#64, 0xD186B8C721C0C207#64, 0xEADA7DD6CDE0EB1E#64, 0xF57D4F7FEE6ED178#64] ++
  [0x06F067AA72176FBA#64, 0x0A637DC5A2C898A6#64, 0x113F9804BEF90DAE#64, 0x1B710B35131C471B#64] ++
  [0x28DB77F523047D84#64, 0x32CAAB7B40C72493#64, 0x3C9EBE0A15C9BEBC#64, 0x431D67C49C100D4C#64] ++
  [0x4CC5D4BECB3E42B6#64, 0x597F299CFC657E2A#64, 0x5FCB6FAB3AD6FAEC#64, 0x6C44198C4A475817#64]

/-- Initial hash value of SHA-512. -/
def sha512H : List (BitVec 64) :=
  [0x6A09E667F3BCC908#64, 0xBB67AE8584CAA73B#64, 0x3C6EF372FE94F82B#64, 0xA54FF53A5F1D36F1#64] ++
  [0x510E527FADE682D1#64, 0x9B05688C2B3E6C1F#64, 0x1F83D9ABFB41BD6B#64, 0x5BE0CD19137E2179#64]

/-- The S-box of AES, indexed by the byte. -/
def aesSbox : List Nat :=
  [99, 124, 119, 123, 242, 107, 111, 197, 48, 1, 103, 43, 254, 215, 171, 118] ++
  [202, 130, 201, 125, 250, 89, 71, 240, 173, 212, 162, 175, 156, 164, 114, 192] ++
  [183, 253, 147, 38, 54, 63, 247, 204, 52, 165, 229, 241, 113, 216, 49, 21] ++
  [4, 199, 35, 195, 24, 150, 5, 154, 7, 18, 128, 226, 235, 39, 178, 117] ++
  [9, 131, 44, 26, 27, 110, 90, 160, 82, 59, 214, 179, 41, 227, 47, 132] ++
  [83, 209, 0, 237, 32, 252, 177, 91, 106, 203, 190, 57, 74, 76, 88, 207] ++
  [208, 239, 170, 251, 67, 77, 51, 133, 69, 249, 2, 127, 80, 60, 159, 168] ++
  [81, 163, 64, 143, 146, 157, 56, 245, 188, 182, 218, 33, 16, 255, 243, 210] ++
  [205, 12, 19, 236, 95, 151, 68, 23, 196, 167, 126, 61, 100, 93, 25, 115] ++
  [96, 129, 79, 220, 34, 42, 144, 136, 70, 238, 184, 20, 222, 94, 11, 219] ++
  [224, 50, 58, 10, 73, 6, 36, 92, 194, 211, 172, 98, 145, 149, 228, 121] ++
  [231, 200, 55, 109, 141, 213, 78, 169, 108, 86, 244, 234, 101, 122, 174, 8] ++
  [186, 120, 37, 46, 28, 166, 180, 198, 232, 221, 116, 31, 75, 189, 139, 138] ++
  [112, 62, 181, 102, 72, 3, 246, 14, 97, 53, 87, 185, 134, 193, 29, 158] ++
  [225, 248, 152, 17, 105, 217, 142, 148, 155, 30, 135, 233, 206, 85, 40, 223] ++
  [140, 161, 137, 13, 191, 230, 66, 104, 65, 153, 45, 15, 176, 84, 187, 22]

/-- Cut a list into pieces of `n`, with at most `fuel` pieces. -/
def chunksOf {α : Type} (n : Nat) : Nat → List α → List (List α)
  | 0, _ => []
  | f + 1, l => if l.isEmpty then [] else l.take n :: chunksOf n f (l.drop n)

/-- Message padding of the SHA-2 family: 0x80, zeros, and the bit length in the last bytes of a block. -/
def shaPad (block lenBytes : Nat) (m : List Byte) : List Byte :=
  let k := (2 * block - (m.length + 1 + lenBytes) % block) % block
  m ++ [0x80#8] ++ List.replicate k 0 ++ beBytes lenBytes (8 * m.length)

/-- Message schedule of SHA-2: the newest word first. -/
def shaSchedule {w : Nat} (s0 s1 : BitVec w → BitVec w) : Nat → List (BitVec w) → List (BitVec w)
  | 0, ws => ws
  | n + 1, ws =>
    let x := s1 (ws.getD 1 0) + ws.getD 6 0 + s0 (ws.getD 14 0) + ws.getD 15 0
    shaSchedule s0 s1 n (x :: ws)

/-- The eight working variables of SHA-2. -/
structure ShaVars (w : Nat) where
  a : BitVec w
  b : BitVec w
  c : BitVec w
  d : BitVec w
  e : BitVec w
  f : BitVec w
  g : BitVec w
  h : BitVec w
  deriving DecidableEq, Repr

/-- One round of SHA-2. -/
def shaRound {w : Nat} (S0 S1 : BitVec w → BitVec w) (v : ShaVars w) (kw : BitVec w × BitVec w) : ShaVars w :=
  let t1 := v.h + S1 v.e + ((v.e &&& v.f) ^^^ (~~~v.e &&& v.g)) + kw.1 + kw.2
  let t2 := S0 v.a + ((v.a &&& v.b) ^^^ (v.a &&& v.c) ^^^ (v.b &&& v.c))
  { a := t1 + t2, b := v.a, c := v.b, d := v.c, e := v.d + t1, f := v.e, g := v.f, h := v.g }

/-- One block through SHA-2. -/
def shaBlock {w : Nat} (S0 S1 s0 s1 : BitVec w → BitVec w) (k : List (BitVec w)) (h : List (BitVec w))
    (blk : List Byte) : List (BitVec w) :=
  let ws := (chunksOf (w / 8) 16 blk).map (fun c => BitVec.ofNat w (beNat c))
  let sched := (shaSchedule s0 s1 (k.length - 16) ws.reverse).reverse
  let v0 : ShaVars w := { a := h.getD 0 0, b := h.getD 1 0, c := h.getD 2 0, d := h.getD 3 0,
                          e := h.getD 4 0, f := h.getD 5 0, g := h.getD 6 0, h := h.getD 7 0 }
  let v := (k.zip sched).foldl (shaRound S0 S1) v0
  List.zipWith (· + ·) h [v.a, v.b, v.c, v.d, v.e, v.f, v.g, v.h]

/-- SHA-256. -/
def sha256 (m : List Byte) : List Byte :=
  let p := shaPad 64 8 m
  let h := (chunksOf 64 p.length p).foldl
    (shaBlock (fun x => x.rotateRight 2 ^^^ x.rotateRight 13 ^^^ x.rotateRight 22)
              (fun x => x.rotateRight 6 ^^^ x.rotateRight 11 ^^^ x.rotateRight 25)
              (fun x => x.rotateRight 7 ^^^ x.rotateRight 18 ^^^ x >>> 3)
              (fun x => x.rotateRight 17 ^^^ x.rotateRight 19 ^^^ x >>> 10) sha256K) sha256H
  h.flatMap (fun x => beBytes 4 x.toNat)

/-- SHA-512, the hash inside Ed25519. -/
def sha512 (m : List Byte) : List Byte :=
  let p := shaPad 128 16 m
  let h := (chunksOf 128 p.length p).foldl
    (shaBlock (fun x => x.rotateRight 28 ^^^ x.rotateRight 34 ^^^ x.rotateRight 39)
              (fun x => x.rotateRight 14 ^^^ x.rotateRight 18 ^^^ x.rotateRight 41)
              (fun x => x.rotateRight 1 ^^^ x.rotateRight 8 ^^^ x >>> 7)
              (fun x => x.rotateRight 19 ^^^ x.rotateRight 61 ^^^ x >>> 6) sha512K) sha512H
  h.flatMap (fun x => beBytes 8 x.toNat)

/-- HMAC-SHA-256 (R426). -/
def hmacSha256 (key m : List Byte) : List Byte :=
  let k0 := if key.length ≤ 64 then key else sha256 key
  let k := k0 ++ List.replicate (64 - k0.length) 0
  sha256 (k.map (· ^^^ 0x5C#8) ++ sha256 (k.map (· ^^^ 0x36#8) ++ m))

/-- Exclusive or of two lists of byte numbers, as long as the shorter. -/
def xorNats (a b : List Nat) : List Nat := List.zipWith (· ^^^ ·) a b

/-- Bytes as the numbers that AES is computed on. -/
def byteNats (l : List Byte) : List Nat := l.map (·.toNat)

/-- The numbers of AES as bytes. -/
def natBytes (l : List Nat) : List Byte := l.map (BitVec.ofNat 8)

/-- The S-box as one number, a byte for each entry. -/
def aesBox : Nat := leNat (natBytes aesSbox)

/-- The S-box applied to one byte. -/
def aesSub (b : Nat) : Nat := (aesBox >>> (8 * b)) % 256

/-- Doubling in the field of AES. -/
def aesX2 (b : Nat) : Nat := (2 * b % 256) ^^^ (b / 128 * 0x1B)

/-- Key expansion of AES-128, newest word first. -/
def aesExpand : Nat → Nat → List (List Nat) → List (List Nat)
  | 0, _, ws => ws
  | n + 1, rc, ws =>
    let prev := ws.getD 0 []
    let old := ws.getD 3 []
    if ws.length % 4 = 0 then
      let t := ((prev.drop 1) ++ (prev.take 1)).map aesSub
      aesExpand n (aesX2 rc) (xorNats old (xorNats t [rc, 0, 0, 0]) :: ws)
    else aesExpand n rc (xorNats old prev :: ws)

/-- The eleven round keys of AES-128. -/
def aesRoundKeys (key : List Byte) : List (List Nat) :=
  let ws := (aesExpand 40 1 (chunksOf 4 4 (byteNats key)).reverse).reverse
  (chunksOf 4 11 ws).map (fun c => c.foldl (· ++ ·) [])

/-- Row shift of AES; bytes stand in column order. -/
def aesShiftRows (s : List Nat) : List Nat :=
  (List.range 16).map (fun i => s.getD ((i + 4 * (i % 4)) % 16) 0)

/-- Column mix of AES. -/
def aesMixColumns (s : List Nat) : List Nat :=
  (List.range 16).map (fun i =>
    let c := 4 * (i / 4)
    let at' := fun k => s.getD (c + (i + k) % 4) 0
    aesX2 (at' 0) ^^^ (aesX2 (at' 1) ^^^ at' 1) ^^^ at' 2 ^^^ at' 3)

/-- One AES-128 block enciphered under expanded round keys. -/
def aesEncrypt (ks : List (List Nat)) (blk : List Nat) : List Nat :=
  let s0 := xorNats blk (ks.getD 0 [])
  let s := ((ks.drop 1).take 9).foldl (fun s k => xorNats (aesMixColumns (aesShiftRows (s.map aesSub))) k) s0
  xorNats (aesShiftRows (s.map aesSub)) (ks.getD 10 [])

/-- One AES-128 block enciphered under a key. -/
def aes128 (key blk : List Byte) : List Byte := natBytes (aesEncrypt (aesRoundKeys key) (byteNats blk))

/-- CBC-MAC over whole blocks. -/
def cbcMac (ks : List (List Nat)) (m : List Byte) : List Nat :=
  (chunksOf 16 m.length m).foldl (fun x b => aesEncrypt ks (xorNats x (byteNats b))) (List.replicate 16 0)

/-- The integrity code of CCM with an 8-byte code and a 2-byte length field, over a 13-byte nonce. -/
def ccmTag (ks : List (List Nat)) (nonce aad msg : List Byte) : List Byte :=
  let flags : Nat := (if aad.isEmpty then 0 else 64) + 8 * 3 + 1
  let b0 := BitVec.ofNat 8 flags :: (nonce ++ beBytes 2 msg.length)
  let a := if aad.isEmpty then [] else padTo 16 (beBytes 2 aad.length ++ aad)
  natBytes ((cbcMac ks (b0 ++ a ++ padTo 16 msg)).take 8)

/-- Key stream block `i` of CCM. -/
def ccmStream (ks : List (List Nat)) (nonce : List Byte) (i : Nat) : List Byte :=
  natBytes (aesEncrypt ks (1 :: byteNats (nonce ++ beBytes 2 i)))

/-- A message under the key stream of CCM. -/
def ccmCrypt (ks : List (List Nat)) (nonce msg : List Byte) : List Byte :=
  ((chunksOf 16 msg.length msg).zipIdx.map (fun p => xorBytes p.1 (ccmStream ks nonce (p.2 + 1)))).foldl (· ++ ·) []

/-- AES-128-CCM: the enciphered message and its 8-byte integrity code. -/
def ccmSeal (key nonce aad msg : List Byte) : List Byte × List Byte :=
  let ks := aesRoundKeys key
  (ccmCrypt ks nonce msg, xorBytes (ccmTag ks nonce aad msg) (ccmStream ks nonce 0))

/-- AES-128-CCM opened: the message where the integrity code matches. -/
def ccmOpen (key nonce aad cipher tag : List Byte) : Option (List Byte) :=
  let ks := aesRoundKeys key
  let m := ccmCrypt ks nonce cipher
  if xorBytes (ccmTag ks nonce aad m) (ccmStream ks nonce 0) = tag then some m else none

/-- The prime 2^255 − 19 of Ed25519. -/
def edP : Nat := 2 ^ 255 - 19

/-- The group order of Ed25519. -/
def edL : Nat := 2 ^ 252 + 27742317777372353535851937790883648493

/-- Modular power, over the bits of the exponent, least significant first. -/
def powModBits (m : Nat) : List Bool → Nat → Nat → Nat
  | [], _, acc => acc
  | b :: bs, x, acc => powModBits m bs (x * x % m) (if b then acc * x % m else acc)

/-- Power in the field of Ed25519. -/
def edPow (x e : Nat) : Nat := powModBits edP (unpackBits 256 e) (x % edP) 1

/-- Inverse in the field of Ed25519. -/
def edInv (x : Nat) : Nat := edPow x (edP - 2)

/-- The curve constant d = −121665/121666 of Ed25519. -/
def edD : Nat := (edP - 121665) * edInv 121666 % edP

/-- A point of the curve in extended coordinates. -/
structure EdPoint where
  x : Nat
  y : Nat
  z : Nat
  t : Nat
  deriving DecidableEq, Repr

/-- Addition on the curve, complete over all points. -/
def edAdd (d : Nat) (p q : EdPoint) : EdPoint :=
  let a := (p.y + edP - p.x) * (q.y + edP - q.x) % edP
  let b := (p.y + p.x) * (q.y + q.x) % edP
  let c := 2 * p.t * q.t * d % edP
  let dd := 2 * p.z * q.z % edP
  let e := (b + edP - a) % edP
  let f := (dd + edP - c) % edP
  let g := (dd + c) % edP
  let h := (b + a) % edP
  { x := e * f % edP, y := g * h % edP, t := e * h % edP, z := f * g % edP }

/-- Multiplication of a point by the number whose bits, least significant first, are given. -/
def edMulBits (d : Nat) : List Bool → EdPoint → EdPoint → EdPoint
  | [], _, acc => acc
  | b :: bs, p, acc => edMulBits d bs (edAdd d p p) (if b then edAdd d acc p else acc)

/-- Multiplication of a point by a number below 2^256. -/
def edMul (d k : Nat) (p : EdPoint) : EdPoint :=
  edMulBits d (unpackBits 256 k) p { x := 0, y := 1, z := 1, t := 0 }

/-- A point decoded from its 32 bytes, where they encode one. -/
def edDecode (d : Nat) (bs : List Byte) : Option EdPoint :=
  let n := leNat bs
  let y := n % 2 ^ 255
  let sign := n / 2 ^ 255
  if edP ≤ y then none else
  let u := (y * y + edP - 1) % edP
  let v := (d * y % edP * y + 1) % edP
  let x2 := u * edInv v % edP
  let r := edPow x2 ((edP + 3) / 8)
  let r := if r * r % edP = x2 then r else r * edPow 2 ((edP - 1) / 4) % edP
  if r * r % edP ≠ x2 then none
  else if r = 0 ∧ sign = 1 then none
  else
    let x := if r % 2 = sign then r else edP - r
    some { x := x, y := y, z := 1, t := x * y % edP }

/-- The base point of Ed25519: y = 4/5 with the even x. -/
def edBase (d : Nat) : Option EdPoint := edDecode d (leBytes 32 (4 * edInv 5 % edP))

/-- Two points are the same point of the curve. -/
def edSame (p q : EdPoint) : Bool :=
  p.x * q.z % edP == q.x * p.z % edP && p.y * q.z % edP == q.y * p.z % edP

/-- Pure Ed25519 verification (Table 0.6): S·B = R + k·A with S below the group order. -/
def ed25519Verify (pk msg sig : List Byte) : Bool :=
  let d := edD
  let rb := sig.take 32
  let s := leNat (sig.drop 32)
  if pk.length ≠ 32 ∨ sig.length ≠ 64 ∨ edL ≤ s then false else
  match edDecode d pk, edDecode d rb, edBase d with
  | some a, some r, some b =>
    let k := leNat (sha512 (rb ++ pk ++ msg)) % edL
    edSame (edMul d s b) (edAdd d r (edMul d k a))
  | _, _, _ => false

end Sys2Proof.Machine
end

