-- ==== Sys2Proof/Machine/LineCode.lean ====
section
/-! DEFINITION. How a Line frame becomes symbols (R348 to R361): tone symbols, banner, scrambler, Reed–Solomon and
convolutional codes, interleaver and carrier placement. A carrier phase is counted in units of π/40. -/

namespace Sys2Proof.Machine

/-- A list cut into pieces of `n`, the last perhaps shorter. -/
def cut {α : Type} (n : Nat) (l : List α) : List (List α) := chunksOf n (l.length / n + 1) l

/-- Bits of bytes, least significant first (R354). -/
def bitsOfBytes (bs : List Byte) : List Bool := bs.flatMap (fun b => unpackBits 8 b.toNat)

/-- Bytes of bits taken eight at a time, least significant first. -/
def bytesOfBits (l : List Bool) : List Byte := (cut 8 l).map (fun c => BitVec.ofNat 8 (packBits c))

/-! ## Tone mode (R348, R349) -/

/-- The tone of two bits: the Gray code of R348. -/
def toneOf (v : Nat) : Nat := if v = 2 then 3 else if v = 3 then 2 else v

/-- The four symbols of a byte, bits [1:0] first. -/
def toneByte (b : Byte) : List Nat := (upTo 4).map (fun i => toneOf (bitsOf b.toNat (2 * i + 1) (2 * i)))

/-- The tones of a frame (Table 12.3). -/
def toneSymbols (payload : List Byte) : List Nat :=
  let head := BitVec.ofNat 8 payload.length :: payload
  [0, 3, 0, 3, 0, 3, 0, 3, 1, 2, 2, 1] ++ head.flatMap toneByte ++ (leBytes 2 (crc16 head)).flatMap toneByte

/-- Length of a tone frame in ns: 24 + 4 × LEN ms. -/
def toneNs (len : Nat) : Nat := (24 + 4 * len) * 1000000

/-! ## The banner (R353) -/

/-- Fields of a banner. -/
structure Banner where
  mode : LineMode
  copy : Bool
  classB : Bool
  len : Nat
  tmid : Nat
  deriving DecidableEq, Repr

/-- CRC-8 with polynomial x⁸ + x² + x + 1 over bits in the order sent. -/
def crc8Bits (l : List Bool) : Nat :=
  l.foldl (fun r b =>
    let t := if r.testBit 7 != b then 7 else 0
    ((2 * r) % 256) ^^^ t) 0

/-- MODE of a banner. -/
def bannerMode (m : LineMode) : Nat :=
  match m with
  | .tone => 0
  | .normal => 0
  | .rob4 => 1
  | .rob6 => 2

/-- Bits 0 to 31 of a banner. -/
def bannerHead (b : Banner) : List Bool :=
  unpackBits 32 (bannerMode b.mode + 4 * b2n b.copy + 8 * b2n b.classB + 16 * b.len + 2 ^ 15 * b.tmid)

/-- The 40 bits of a banner in the order sent; the CRC goes most significant bit first. -/
def bannerBits (b : Banner) : List Bool :=
  bannerHead b ++ (unpackBits 8 (crc8Bits (bannerHead b))).reverse

/-- The banner that 40 received bits hold, bit 0 of the number first sent; none where its CRC fails, its MODE is reserved
or its LEN lies outside the mode's range (Table 12.5). -/
def readBanner (w : BitVec 40) : Option Banner :=
  let l := unpackBits 40 w.toNat
  let head := l.take 32
  let v := packBits head
  let m := v % 4
  let len := bitsOf v 14 4
  if (unpackBits 8 (crc8Bits head)).reverse != l.drop 32 || m = 3 then none
  else if m = 0 then
    if len < 1 || 1908 < len then none
    else some { mode := .normal, copy := bitOf v 2, classB := bitOf v 3, len, tmid := bitsOf v 22 15 }
  else if len < 1 || 235 < len then none
  else some { mode := if m = 1 then .rob4 else .rob6, copy := bitOf v 2, classB := bitOf v 3, len,
              tmid := bitsOf v 22 15 }

/-! ## Coding (R354, R355) -/

/-- The scrambler x⁹ + x⁵ + 1; bit 0 of the register is s1. -/
def scramble : Nat → List Bool → List Bool
  | _, [] => []
  | r, b :: bs =>
    let f := r.testBit 8 != r.testBit 4
    (b != f) :: scramble ((2 * r + b2n f) % 512) bs

/-- Product in GF(256) with x⁸ + x⁴ + x³ + x² + 1. -/
def gfMulGo : Nat → Nat → Nat → Nat
  | 0, _, _ => 0
  | k + 1, a, b =>
    let rest := gfMulGo k (if a.testBit 7 then ((2 * a) % 256) ^^^ 0x1D else 2 * a) (b / 2)
    if b % 2 = 1 then a ^^^ rest else rest

/-- Product in GF(256). -/
def gfMul (a b : Nat) : Nat := gfMulGo 8 a b

/-- αⁱ with α = 2. -/
def gfPow : Nat → Nat
  | 0 => 1
  | i + 1 => gfMul 2 (gfPow i)

/-- The generator Π (x − αⁱ), i = 1 to n, coefficients highest degree first. -/
def rsGen : Nat → List Nat
  | 0 => [1]
  | n + 1 =>
    let g := rsGen n
    let a := gfPow (n + 1)
    List.zipWith (· ^^^ ·) (g ++ [0]) (0 :: g.map (gfMul a))

/-- One data byte through the parity register. -/
def rsStep (gen : List Nat) (p : List Nat) (b : Nat) : List Nat :=
  match p with
  | [] => []
  | h :: t => List.zipWith (· ^^^ ·) (t ++ [0]) (gen.map (gfMul (h ^^^ b)))

/-- The 16 parity bytes of a block. -/
def rsParity (block : List Byte) : List Byte :=
  let gen := (rsGen 16).drop 1
  (block.foldl (fun p b => rsStep gen p b.toNat) (List.replicate 16 0)).map (BitVec.ofNat 8)

/-- Codewords of a payload: CRC-32 appended, scrambled, cut into blocks of 239, each with its parity. -/
def codewords (payload : List Byte) : List Byte :=
  let plain := payload ++ leBytes 4 (crc32 payload)
  let mixed := bytesOfBits (scramble 511 (bitsOfBytes plain))
  (cut 239 mixed).flatMap (fun b => b ++ rsParity b)

/-- Parity of the taps of a generator over the present bit and the six before it; `r` has the present input in bit 6. -/
def convTap (g r : Nat) : Bool := (unpackBits 7 (g &&& r)).foldl (· != ·) false

/-- The rate 1/2 code: for each input bit, the Ga bit and then the Gb bit. -/
def convEncode : Nat → List Bool → List Bool
  | _, [] => []
  | past, b :: bs =>
    let r := past + 64 * b2n b
    convTap 0o133 r :: convTap 0o171 r :: convEncode (r / 2) bs

/-- Coded bits of a bit stream, with the six tail bits. -/
def codedBits (l : List Bool) : List Bool := convEncode 0 (l ++ List.replicate 6 false)

/-- C of R355. -/
def codedCount (len : Nat) : Nat :=
  let ncw := (len + 4 + 238) / 239
  2 * (8 * (len + 4 + 16 * ncw) + 6)

/-! ## Interleaving and carriers (R350, R352, R356 to R360) -/

/-- The bits of symbol `s` of a block of `S` symbols of `B` bits, by position (R356). -/
def interleaved (blk : List Bool) (S B s : Nat) : List Bool :=
  (upTo B).map (fun pos =>
    let q := (pos + B * 7 - (7 * s) % B) % B
    blk.getD (q * S + s) false)

/-- Bits that a tone-map code carries (R357). -/
def codeBits (c : Nat) : Nat := if c = 1 then 1 else if c = 2 then 2 else if c = 3 then 3 else 0

/-- B of a tone map. -/
def mapBits (codes : List Nat) : Nat := (codes.map codeBits).foldl (· + ·) 0

/-- Carriers on in a tone map. -/
def mapOn (codes : List Nat) : Nat := (codes.filter (fun c => codeBits c != 0)).length

/-- TMID 0: every carrier in DBPSK. -/
def map0 : ToneMap := { tmid := 0, codes := List.replicate 40 1 }

/-- Phase increment of the bits b0, b1, b2 of one carrier in units of π/40 (Table 12.4). -/
def phaseStep (l : List Bool) : Nat :=
  match l with
  | [b] => if b then 40 else 0
  | [a, b] => if a then (if b then 40 else 60) else (if b then 20 else 0)
  | [a, b, c] =>
    10 * (if a then (if b then (if c then 5 else 4) else (if c then 6 else 7))
          else (if b then (if c then 2 else 3) else (if c then 1 else 0)))
  | _ => 0

/-- Increments of the 40 positions of a symbol under a tone map. -/
def mapSteps : List Nat → List Bool → List Nat
  | [], _ => []
  | c :: cs, bits => phaseStep (bits.take (codeBits c)) :: mapSteps cs (bits.drop (codeBits c))

/-- Phases after an increment. -/
def turn (a b : List Nat) : List Nat := List.zipWith (fun x y => (x + y) % 80) a b

/-- HAIL: carrier position c at phase π × c × (c + 1) ÷ 40 (R351). -/
def hail : List Nat := (upTo 40).map (fun c => (c * (c + 1)) % 80)

/-- TURN: HAIL with π/2 added. -/
def hailTurn : List Nat := hail.map (fun p => (p + 20) % 80)

/-- Phases of successive symbols from the one before and their increments. -/
def runPhases : List Nat → List (List Nat) → List (List Nat)
  | _, [] => []
  | p, i :: is => turn p i :: runPhases (turn p i) is

/-- The bit position that carrier position c of a robust burst carries (Table 12.6); none for position 39 in sixfold
mode. -/
def robustBit (sixfold odd : Bool) (c : Nat) : Option Nat :=
  if sixfold then
    if c = 39 then none else some (if odd then (c + 34) % 13 else c % 13)
  else some (if odd then (if c < 20 then 19 - c else 39 - c) else c % 20)

/-- Increments of one robust symbol. -/
def robustSteps (sixfold odd : Bool) (bits : List Bool) : List Nat :=
  (upTo 40).map (fun c =>
    match robustBit sixfold odd c with
    | some p => if bits.getD p false then 40 else 0
    | none => 0)

/-- The five symbols of a banner (R353). -/
def bannerSteps (b : Banner) : List (List Nat) :=
  let coded := codedBits (bannerBits b) ++ List.replicate 8 false
  (upTo 5).map (fun s => robustSteps false b.copy (interleaved coded 5 20 s))

/-- Hail and banner: HAIL, HAIL, TURN and five symbols. -/
def headerBurst (b : Banner) : List (List Nat) := [hail, hail, hailTurn] ++ runPhases hailTurn (bannerSteps b)

/-- Bits padded with zeros to a multiple of `n`. -/
def padBits (n : Nat) (l : List Bool) : List Bool := l ++ List.replicate ((n - l.length % n) % n) false

/-- Increments of the payload symbols of a normal frame: blocks of 21 symbols and a shorter last one (R356). -/
def normalSteps (codes : List Nat) (coded : List Bool) : List (List Nat) :=
  let B := mapBits codes
  (cut (21 * B) (padBits B coded)).flatMap (fun blk =>
    let S := blk.length / B
    (upTo S).map (fun s => mapSteps codes (interleaved blk S B s)))

/-- Symbols of a normal frame. -/
def normalSymbols (m : ToneMap) (payload : List Byte) : List (List Nat) :=
  let head := headerBurst { mode := .normal, copy := false, classB := false, len := payload.length, tmid := m.tmid }
  head ++ runPhases (head.getLastD hailTurn) (normalSteps m.codes (codedBits (bitsOfBytes (codewords payload))))

/-- D of R359. -/
def dataSymbols (classB : Bool) : Nat := if classB then 6 else 8

/-- B′ of Table 12.6. -/
def robustB (sixfold : Bool) : Nat := if sixfold then 13 else 20

/-- U of R360. -/
def robustUnits (sixfold classB : Bool) (len : Nat) : Nat :=
  let n := dataSymbols classB * robustB sixfold
  (codedCount len + n - 1) / n

/-- One data burst: the reference symbol and D symbols. -/
def dataBurst (sixfold odd : Bool) (D : Nat) (blk : List Bool) : List (List Nat) :=
  hail :: runPhases hail ((upTo D).map (fun s =>
    robustSteps sixfold odd (interleaved blk D (robustB sixfold) s)))

/-- The bursts of a robust frame (R360). -/
def robustBursts (sixfold classB : Bool) (payload : List Byte) : List (List (List Nat)) :=
  let b : Banner := { mode := if sixfold then .rob6 else .rob4, copy := false, classB, len := payload.length, tmid := 0 }
  let D := dataSymbols classB
  let coded := padBits (D * robustB sixfold) (codedBits (bitsOfBytes (codewords payload)))
  headerBurst b :: headerBurst { b with copy := true } ::
    (cut (D * robustB sixfold) coded).flatMap (fun blk => [dataBurst sixfold false D blk, dataBurst sixfold true D blk])

/-- ns of `n` symbols with prefix, 953⅓ µs each. -/
def symNs (n : Nat) : Nat := n * 2860000 / 3

/-- Length in ns of a normal frame (R357). -/
def normalNs (codes : List Nat) (len : Nat) : Nat :=
  let B := mapBits codes
  2560000 + symNs (5 + (codedCount len + B - 1) / B)

/-- Length in ns of a robust frame to the end of burst 2U + 1, for a milestone of `msLen` ns (R358, R361). -/
def robustNs (sixfold classB : Bool) (len msLen : Nat) : Nat :=
  (2 * robustUnits sixfold classB len + 1) * 128 * msLen / 256 + symNs (1 + dataSymbols classB)

end Sys2Proof.Machine
end

