-- ==== Sys2Proof/Machine/LineDecode.lean ====
section
/-! DEFINITION. How symbols of a Line frame become its payload (R349, R353 to R366): combining, erasures, soft-decision Viterbi
decoding, Reed–Solomon decoding, descrambling and the check. A soft metric is positive where it speaks for a 1. -/

namespace Sys2Proof.Machine

/-! ## Soft metrics (R363, R364, R366) -/

/-- The inputs that are combined, each with its weights: the linear SNR of the 40 carriers, or of the four tones. -/
abbrev Inputs := List (Nat × List Nat)

/-- Whether a symbol is an erasure on an input: more than 64 of its 256 samples are zeroed (R363). -/
def RxSym.erased (s : RxSym) (i : Nat) : Bool := 64 < s.zeroed.getD i 0

/-- The amplitude scaling of a symbol on an input, 256 ÷ (256 − zeroed). -/
def RxSym.scale (s : RxSym) (i : Nat) : Rat := 256 / ((256 - s.zeroed.getD i 0 : Nat) : Rat)

/-- What one input adds to the metric of bit `b` of carrier `c`: a differential decision takes the symbol and the one before, and an
erasure contributes nothing to it (log 186). -/
def inputMetric (i w : Nat) (prev cur : RxSym) (c b : Nat) : Rat :=
  if cur.erased i || prev.erased i then 0
  else (w : Rat) * (((cur.soft.getD i []).getD c []).getD b 0 : Int) * cur.scale i * prev.scale i

/-- The weighted metrics of the combined inputs, summed (R364). -/
def symMetric (inputs : Inputs) (prev cur : RxSym) (c b : Nat) : Rat :=
  (inputs.map (fun p => inputMetric p.1 (p.2.getD c 0) prev cur c b)).sum

/-- The metrics of a symbol by bit position under a tone map (R357). -/
def mapMetrics (inputs : Inputs) (codes : List Nat) (prev cur : RxSym) : List Rat :=
  codes.zipIdx.flatMap (fun q => (upTo (codeBits q.1)).map (fun b => symMetric inputs prev cur q.2 b))

/-- The coded bits of a block from its symbols of `B` positions each: the inverse of R356. -/
def deinterleave {α : Type} (z : α) (B : Nat) (rows : List (List α)) : List α :=
  let S := rows.length
  (upTo (S * B)).map (fun i => (rows.getD (i % S) []).getD ((i / S + 7 * (i % S)) % B) z)

/-- The metrics of a normal frame's coded stream; the first symbol is the one before the payload. -/
def normalMetrics (inputs : Inputs) (codes : List Nat) (syms : List RxSym) : List Rat :=
  (cut 21 ((syms.zip syms.tail).map (fun p => mapMetrics inputs codes p.1 p.2))).flatMap (deinterleave 0 (mapBits codes))

/-- The copies of bit position `pos` of symbol `s` that a burst carries (Table 12.6). -/
def copyMetric (inputs : Inputs) (sixfold odd : Bool) (burst : List RxSym) (s pos : Nat) : Rat :=
  match burst[s]?, burst[s + 1]? with
  | some p, some q =>
    (((upTo 40).filter (fun c => robustBit sixfold odd c == some pos)).map (fun c => symMetric inputs p q c 0)).sum
  | _, _ => 0

/-- The metrics of the banner's 92 coded bits under the placement of one header burst (R353). -/
def bannerMetrics (inputs : Inputs) (copy : Bool) (header : List RxSym) : List Rat :=
  (upTo 92).map (fun i => copyMetric inputs false copy header (i % 5) ((i / 5 + 7 * (i % 5)) % 20))

/-- The metrics of one unit: every copy of each coded bit, over both bursts (R366); a burst that was not found has none. -/
def unitMetrics (inputs : Inputs) (sixfold : Bool) (D : Nat) (even odd : List RxSym) : List Rat :=
  let B := robustB sixfold
  (upTo (D * B)).map (fun i =>
    let pos := (i / D + 7 * (i % D)) % B
    copyMetric inputs sixfold false even (i % D) pos + copyMetric inputs sixfold true odd (i % D) pos)

/-- The metrics of a robust frame from its data bursts in order. -/
def robustMetrics (inputs : Inputs) (sixfold : Bool) (D : Nat) : List (List RxSym) → List Rat
  | even :: odd :: rest => unitMetrics inputs sixfold D even odd ++ robustMetrics inputs sixfold D rest
  | _ => []

/-! ## The convolutional code (R355, R366) -/

/-- The input whose coded bits are exactly these, if there is one that leaves the register at 0: the Ga bit gives the input, the Gb
bit must agree. Where the signs of all metrics are such a stream, no other is more likely. -/
def codedInput : Nat → List Bool → Option (List Bool)
  | past, a :: b :: rest =>
    let x := convTap 0o133 past != a
    let r := past + 64 * b2n x
    if convTap 0o171 r = b then (codedInput (r / 2) rest).map (x :: ·) else none
  | past, [] => if past = 0 then some [] else none
  | _, [_] => none

/-- A survivor of the Viterbi algorithm: its metric and its input, newest first; none for a state not reached yet. -/
abbrev Survivor := Option (Rat × List Bool)

/-- The better of two survivors. -/
def better (a b : Survivor) : Survivor :=
  match a, b with
  | none, x => x
  | x, none => x
  | some x, some y => if x.1 < y.1 then some y else some x

/-- A survivor extended by the input that takes register `r` (present input in bit 6) to its next state. -/
def Survivor.extend (s : Survivor) (r : Nat) (ma mb : Rat) : Survivor :=
  s.map (fun x =>
    (x.1 + (if convTap 0o133 r then ma else -ma) + (if convTap 0o171 r then mb else -mb), r.testBit 6 :: x.2))

/-- One step: the state after register `r` is r / 2, so each state has two that lead to it. -/
def viterbiStep (st : List Survivor) (ma mb : Rat) : List Survivor :=
  (upTo 64).map (fun n =>
    better (Survivor.extend (st.getD (2 * n % 64) none) (2 * n) ma mb)
      (Survivor.extend (st.getD ((2 * n + 1) % 64) none) (2 * n + 1) ma mb))

/-- The steps over all metrics. -/
def viterbiRun : List Survivor → List Rat → List Survivor
  | st, ma :: mb :: rest => viterbiRun (viterbiStep st ma mb) rest
  | st, _ => st

/-- The most likely input of a stream that starts and ends with the register at 0. -/
def viterbi (ms : List Rat) : List Bool :=
  match (viterbiRun (some (0, []) :: List.replicate 63 none) ms).headD none with
  | some x => x.2.reverse
  | none => []

/-- Soft-decision decoding of a stream, without its six tail bits. -/
def decodeStream (ms : List Rat) : List Bool :=
  let x := match codedInput 0 (ms.map (fun m => decide (0 < m))) with
    | some x => x
    | none => viterbi ms
  x.take (x.length - 6)

/-! ## Reed–Solomon decoding (R354, R366) -/

/-- The inverse in GF(256). -/
def gfInv (a : Nat) : Nat := ((upTo 256).find? (fun x => gfMul a x == 1)).getD 0

/-- The value of a polynomial, lowest degree first. -/
def gfEval (p : List Nat) (x : Nat) : Nat := p.foldr (fun c v => gfMul v x ^^^ c) 0

/-- Syndromes 1 to 16 of a received word, first byte of highest degree. -/
def syndromes (cw : List Byte) : List Nat :=
  (upTo 16).map (fun i => gfEval (cw.reverse.map (·.toNat)) (gfPow (i + 1)))

/-- Sum of two polynomials. -/
def gfAdd : List Nat → List Nat → List Nat
  | [], q => q
  | p, [] => p
  | a :: p, b :: q => (a ^^^ b) :: gfAdd p q

/-- The registers of the Berlekamp–Massey algorithm: locator, its last version, its length, shift and last discrepancy. -/
structure Locator where
  c : List Nat
  b : List Nat
  len : Nat
  shift : Nat
  disc : Nat

/-- One step of the Berlekamp–Massey algorithm. -/
def Locator.step (s : List Nat) (k : Locator) (n : Nat) : Locator :=
  let d := (upTo (k.len + 1)).foldl (fun v i => v ^^^ gfMul (k.c.getD i 0) (s.getD (n - i) 0)) 0
  if d = 0 then { k with shift := k.shift + 1 }
  else
    let f := gfMul d (gfInv k.disc)
    let c := gfAdd k.c (List.replicate k.shift 0 ++ k.b.map (gfMul f))
    if 2 * k.len ≤ n then { c, b := k.c, len := n + 1 - k.len, shift := 1, disc := d } else { k with c, shift := k.shift + 1 }

/-- The error locator of 16 syndromes. -/
def locator (s : List Nat) : Locator :=
  (upTo 16).foldl (Locator.step s) { c := [1], b := [1], len := 0, shift := 1, disc := 1 }

/-- The error at the coefficient of degree `k`: 0 where the locator has no root there (Forney's formula). -/
def errorAt (s loc : List Nat) (k : Nat) : Nat :=
  let inv := gfInv (gfPow k)
  if gfEval loc inv ≠ 0 then 0
  else
    let omega := (upTo 16).map (fun n => (upTo (n + 1)).foldl (fun v i => v ^^^ gfMul (loc.getD i 0) (s.getD (n - i) 0)) 0)
    let deriv := (upTo (loc.length - 1)).map (fun i => if i % 2 = 0 then loc.getD (i + 1) 0 else 0)
    gfMul (gfEval omega inv) (gfInv (gfEval deriv inv))

/-- A received codeword with the errors of its locator corrected. -/
def rsCorrect (cw : List Byte) : List Byte :=
  let s := syndromes cw
  let k := locator s
  cw.zipIdx.map (fun p => p.1 ^^^ BitVec.ofNat 8 (errorAt s k.c (cw.length - 1 - p.2)))

/-- Whether a word is a codeword, and its data. -/
def rsData (cw : List Byte) : Option (List Byte) :=
  let data := cw.take (cw.length - 16)
  if rsParity data = cw.drop (cw.length - 16) then some data else none

/-- The data of the codeword within eight byte errors of a received word; none where there is no such codeword. -/
def rsDecode (cw : List Byte) : Option (List Byte) :=
  match rsData cw with
  | some x => some x
  | none => if (locator (syndromes cw)).len ≤ 8 then rsData (rsCorrect cw) else none

/-! ## The payload (R349, R354, R366) -/

/-- Every piece through a partial function; none where one fails. -/
def allOf {α β : Type} (f : α → Option β) : List α → Option (List β)
  | [] => some []
  | x :: xs => match f x, allOf f xs with
    | some y, some ys => some (y :: ys)
    | _, _ => none

/-- The payload of `len` bytes that decoded bits hold: every codeword decodes, the scrambling is removed and the CRC-32 holds. -/
def openPayload (len : Nat) (bits : List Bool) : Option (List Byte) :=
  match allOf rsDecode (cut 255 (bytesOfBits bits)) with
  | none => none
  | some blocks =>
    let plain := bytesOfBits (scramble 511 (bitsOfBytes blocks.flatten))
    if plain.drop len = leBytes 4 (crc32 (plain.take len)) then some (plain.take len) else none

/-- The payload of a carrier frame from the metrics of its coded stream and what pads it. -/
def carrierPayload (len : Nat) (ms : List Rat) : Option (List Byte) :=
  openPayload len (decodeStream (ms.take (codedCount len)))

/-- The tone that a symbol carries: the one of greatest weighted energy over the combined inputs (R348, R364). -/
def toneHeard (inputs : Inputs) (energies : List (List Nat)) : Nat :=
  let e := fun (t : Nat) => (inputs.map (fun p => p.2.getD t 0 * (energies.getD p.1 []).getD t 0)).sum
  (upTo 4).foldl (fun m t => if e m < e t then t else m) 0

/-- The byte that four tone symbols carry, bits [1:0] first; the Gray code of R348 is its own inverse. -/
def byteOfTones (ts : List Nat) : Byte := BitVec.ofNat 8 (ts.foldr (fun t v => toneOf t + 4 * v) 0)

/-- The payload of a tone frame of LEN `len` from the symbols after LEN; none where its CRC fails (R349). -/
def tonePayload (inputs : Inputs) (len : Nat) (syms : List (List (List Nat))) : Option (List Byte) :=
  let bytes := (cut 4 (syms.map (toneHeard inputs))).map byteOfTones
  let p := bytes.take len
  if p.length = len && bytes.drop len = leBytes 2 (crc16 (BitVec.ofNat 8 len :: p)) then some p else none

/-- The banner that a header burst carries, tried under both placements (R353): its COPY must be that of its placement. -/
def headerBanner (inputs : Inputs) (header : List RxSym) : Option Banner :=
  let read := fun (copy : Bool) =>
    match readBanner (BitVec.ofNat 40 (packBits ((decodeStream (bannerMetrics inputs copy header)).take 40))) with
    | some b => if b.copy = copy then some b else none
    | none => none
  match read false with
  | some b => some b
  | none => read true

end Sys2Proof.Machine
end

