-- ==== Sys2Proof/Config.lean ====
section
/-! DEFINITION. What one part fixes and what the manual leaves open: constants without a body, so that nothing can be
proved of their values. -/

namespace Sys2Proof.Config

/-- The 64-bit unique number of the part, fixed at manufacture (R273). -/
opaque uid : BitVec 64

/-- The filter of R51: the value that TRIM moves towards, in 10 ns, from the one before and the error in ns. The spec
names a filter and gives none. -/
opaque trimFilter : Int → Int → Int

/-- How discipline moves TIME.XCOMP_D from the rate error FERR (02 Table 2.4). The spec states no law. -/
opaque disciplineD : BitVec 32 → BitVec 16 → BitVec 32

/-- The text of the BACnet property Firmware_Revision (14 Table 14.9 names it and gives no value). -/
opaque firmwareRevision : List (BitVec 8)

/-- The value of the BACnet property Database_Revision (14 Table 14.9 names it and gives no value). -/
opaque databaseRevision : Nat

/-- The core voltage in mV at which a domain's controller stands (R61), by domain and reading. The spec bounds it by the
floor and the ceiling of Table 3.1 and gives no value. -/
opaque coreVoltage : Nat → Nat → Nat

/-- The output, in V, of the fractional-delay filter of R291 for a skew in ps, from the corrected samples of the stream around the
sample, in V and in the order of their ticks. The spec gives it 8 taps and no coefficients. -/
opaque fractionalDelay : Int → List Rat → Rat

/-- The error of the device's atan2 in 0.0001°, by its operands (R449). The spec bounds it by ±0.01°. -/
opaque atanError : BitVec 32 → BitVec 32 → Int

/-- What a 16-bit field shows of a value that does not fit it, where the spec states neither a limit nor a wrap. -/
opaque narrow16 : Nat → BitVec 16

/-- The result of a LOOP fan before its first evaluation (R479), by reading. The spec states none. -/
opaque loopStart : Nat → Nat

/-- Whether a quantity that the spec shows in whole units without a rounding rule is shown one unit above its floor. -/
opaque roundUp : Nat → Bool

/-- The fraction, in 1/65,536, of a DUTY command pin over an estimate period in which no period of the pin ends (R466), by
instant. The spec states none. -/
opaque dutyHold : Nat → Nat

/-- STORE.STAT.PROGRESS between the start and the end of a command, by instant. The spec bounds it by 0 and 100. -/
opaque storePercent : Nat → Nat

end Sys2Proof.Config
end

