-- ==== Sys2Proof/Machine/Ops.lean ====
section
/-! DEFINITION. Operations that several blocks share: time readings, usable domains, SYS.GUAR, attention bits, the larder
and the fault log. -/

namespace Sys2Proof.Machine

/-! ## Maps -/

/-- Key of an element in the element maps. -/
def elemKey (channel elem : Nat) : Nat := 64 * channel + elem

/-- The value of a key in an element map; 0 where it has none. -/
def mapGet (m : List (Nat × Word)) (k : Nat) : Word :=
  match m.find? (fun p => p.1 == k) with
  | some p => p.2
  | none => 0

/-- A value put under a key. -/
def mapPut {κ α : Type} [DecidableEq κ] (m : List (κ × α)) (k : κ) (v : α) : List (κ × α) :=
  (k, v) :: m.filter (fun p => p.1 ≠ k)

/-- The value under a key of any map. -/
def mapFind {κ α : Type} [DecidableEq κ] (m : List (κ × α)) (k : κ) : Option α :=
  (m.find? (fun p => p.1 = k)).map (·.2)

/-! ## Time -/

/-- Local SI time in µs (R54). -/
def Dev.si (d : Dev) : Nat := d.time.now / 1000 % 2 ^ 64

/-- The local milestone count. -/
def Dev.ms (d : Dev) : Nat := d.time.count.toNat

/-- The network milestone number of the present milestone (R55). -/
def Dev.netMs (d : Dev) : Nat := (d.time.count.toNat + d.time.netOfs.toNat) % 2 ^ 48

/-- The start, in ns, of waymark `w` of the present milestone, `w` up to 256: 256 equal parts (R47). -/
def Dev.wmStart (d : Dev) (w : Nat) : Nat := d.time.msStart + w * d.time.msLen / 256

/-- Start, in ns, and length of a milestone by its count; milestones to come are taken as long as the present one. -/
def Dev.milestone (d : Dev) (ms : Nat) : Nat × Nat :=
  let now := d.ms
  if now ≤ ms then (d.time.msStart + (ms - now) * d.time.msLen, d.time.msLen)
  else
    let a := d.time.starts.getD (now - ms) d.time.msStart
    let b := d.time.starts.getD (now - ms - 1) d.time.msStart
    (a, b - a)

/-- The milestone, at most `k` before milestone `ms`, that holds an instant in ns. -/
def Dev.msOf (d : Dev) (t : Nat) : Nat → Nat → Nat
  | 0, ms => ms
  | k + 1, ms => if t < (d.milestone ms).1 then Dev.msOf d t k (ms - 1) else ms

/-- The instant, in ns, that lies `n` of this device's waymarks after an instant, or before it. -/
def Dev.plusWm (d : Dev) (t : Nat) (n : Int) : Nat :=
  let ms := d.msOf t 63 d.ms
  let m := d.milestone ms
  let len : Int := ((max 1 m.2 : Nat) : Int)
  let a : Int := 256 * ((t - m.1 : Nat) : Int) + n * len
  let k := ((ms : Int) + a / (256 * len)).toNat
  let p := d.milestone k
  p.1 + ((a % (256 * len)) * (p.2 : Int) / (256 * len)).toNat

/-- The converter input that tick `j` of a bound converter converts (R447, Table 12.1); `three` is three-phase coupling. -/
def boundInput (bind : BitVec 2) (three : Bool) (j : Nat) : Nat :=
  if bind = 1 then j % 8
  else if j % 4 = 0 then 0
  else if three && j % 4 < 3 then j % 4
  else 8

/-- The mean of a list; 0 of none. -/
def meanOf (l : List Nat) : Nat := if l.isEmpty then 0 else l.foldl (· + ·) 0 / l.length

/-- The mean of the last 8 ZC0 periods in ns, 0 before the first good crossing: TIME.PERIOD. -/
def TimeState.meanPeriod (t : TimeState) : Nat := if t.zc0Good then meanOf t.zc0Periods else 0

/-- TIME.PERIOD of the device. -/
def Dev.period (d : Dev) : Nat := d.time.meanPeriod

/-- The period that 13 R394 uses: TIME.PERIOD, or 20,000,000 ns while it reads 0. -/
def Dev.periodT (d : Dev) : Nat := if d.period = 0 then 20000000 else d.period

/-- Whether the lock is locked in the sense of R44; `junction` for the junction's shorter list. -/
def Dev.locked44 (d : Dev) (junction : Bool) : Bool :=
  d.time.lock == .locked && d.time.aligned && !d.time.xtalFail &&
    (junction || (d.time.beacon && !d.time.trimLimit && !d.time.phMismatch))

/-- C(n) of the present milestone (R121). -/
def Dev.cycleCount (d : Dev) : Nat := (d.time.count.toNat + d.cycle.ofs.toNat) % 256

/-! ## Domains, mode and role -/

/-- Whether domain `n` is usable (R82 READY). -/
def Dev.pd (d : Dev) (n : Nat) : Bool := d.power.ready.getLsbD n

/-- Whether domain `n` is powered. -/
def Dev.pdOn (d : Dev) (n : Nat) : Bool := d.power.on.getLsbD n

/-- Whether a converter is usable: its domain, PD8 + c, is (Table 10.1). -/
def Dev.convUsable (d : Dev) (c : Nat) : Bool := d.pd (8 + c)

/-- Whether a converter is failed (R302). -/
def Dev.convFailed (d : Dev) (c : Nat) : Bool := (vgetD d.mando.conv c Converter.reset).failed

/-- LINE.PHY_STAT.RX_READY (Table 12.9): PD12 and PD10 usable and MC not failed. -/
def Dev.rxReady (d : Dev) : Bool := d.pd 12 && d.pd 10 && !d.convFailed 2

/-- Whether the node holds the junction role: the image declares it and the node has not declined it (R16, R19). -/
def Dev.junction (d : Dev) : Bool := d.sys.role == 3 && !d.sys.clash

/-! ## SYS.GUAR (Table 1.6, Table 1.7) -/

/-- RETIRE_PEND: ACKED differs from RECORDED (R580). -/
def Dev.retirePend (d : Dev) : Bool := d.sys.recorded != d.sys.acked

/-- SYS.GUAR.VOID: bit p is 1 whenever any row of Table 1.7 applies to pot p (R33). -/
def Dev.void (d : Dev) : BitVec 16 :=
  if d.sys.voidHob || d.sys.uncorrShared || d.retirePend then 0xFFFF
  else d.sys.voidOvr ||| d.sys.voidMem

/-- SYS.GUAR. -/
def Dev.guar (d : Dev) : Nat :=
  d.void.toNat + b2n d.retirePend * 2 ^ 16 + b2n d.sys.uncorrShared * 2 ^ 17 + b2n d.seat.priv * 2 ^ 18

/-- Whether a bit that was 0 before is 1 after. -/
def roseBits {n : Nat} (a b : BitVec n) : Bool := (b &&& ~~~a) != 0

/-- BUS.ATTN bits of a change of the mode or of the guarantees (Table 14.5: MODE, GUAR). A reset leaves MODE at its reset
value, though it may change the mode. -/
def Dev.settle (before after : Dev) : Dev :=
  let m : BitVec 4 := if before.sys.mode = after.sys.mode || after.sys.boot != .done then 0 else 1
  let g : BitVec 4 :=
    if roseBits before.void after.void || (!before.retirePend && after.retirePend) then 4 else 0
  { after with seat := { after.seat with attn := after.seat.attn ||| m ||| g } }

/-- BUS.ATTN.STORE: a STORE command finished. -/
def Dev.attnStore (d : Dev) : Dev := { d with seat := { d.seat with attn := d.seat.attn ||| 2 } }

/-- BUS.ATTN.TUN_RX: a tunnel response arrived. -/
def Dev.attnTun (d : Dev) : Dev := { d with seat := { d.seat with attn := d.seat.attn ||| 8 } }

/-- The level of ATTN_N: asserted is true (R429). -/
def Dev.attnN (d : Dev) : Bool := d.seat.attnBoot || (d.seat.attn &&& d.seat.attnEn) != 0

/-! ## The larder: reads and queued writes (R216, R246 to R248) -/

/-- The newest value that a queued write holds for a group. -/
def queuedGroup (g : Nat) : List LarderWrite → Option (List Byte)
  | [] => none
  | w :: ws =>
    match queuedGroup g ws with
    | some b => some b
    | none =>
      match w with
      | .imm h b _ => if h = g then some b else none
      | .txn t => (t.groups.reverse.find? (fun p => p.1 == g)).map (·.2)

/-- The eight bytes of a logical group as every load sees them: 0 while lost or failed (R243, R244), else the newest
queued value, else the home group. -/
def StoreState.group (s : StoreState) (g : Nat) : List Byte :=
  if s.lost.contains g || s.failed.contains g then List.replicate 8 0
  else
    match queuedGroup g s.queue with
    | some b => b
    | none => Mem.readBytes larderByte s.home (8 * g) 8

/-- Bytes `lo` to `lo + n − 1` of a group as a number. -/
def StoreState.groupLE (s : StoreState) (g lo n : Nat) : Nat := leNat ((s.group g |>.drop lo).take n)

/-- Whether a group holds its data: neither lost nor failed (R243, R244). -/
def StoreState.sound (s : StoreState) (g : Nat) : Bool := !s.lost.contains g && !s.failed.contains g

/-- Whether a number lies outside a range. -/
def outside (v lo hi : Nat) : Bool := decide (v < lo) || decide (hi < v)

/-- The checks of Table 9.9 and of R345, R397 and R434 over the device parameters. `role` and `lineEn` are the image's. -/
def StoreState.paramOk (s : StoreState) (g role : Nat) (lineEn : Bool) : Bool :=
  let n := s.groupLE g
  if g = 0x80 then
    let v := n 0 4
    decide (bitsOf v 14 0 ≤ 22222) && bitsOf v 17 16 != 3 && decide (bitsOf v 19 18 ≤ 1) && !bitOf v 15 && bitsOf v 31 20 == 0 &&
      n 4 4 == 0
  else if g = 0x81 then decide (n 0 2 ≤ 200) && decide (-5000 ≤ sxNat 16 (n 2 2)) && decide (sxNat 16 (n 2 2) ≤ 15000)
  else if g = 0x83 then (n 0 1 ≤ 1 || n 0 1 == 0xFF) && n 1 3 == 0
  else if g = 0x84 then n 1 7 == 0
  else if g = 0x85 then n 0 1 ≤ 1 && n 1 1 == 0 && n 4 4 == 0
  else if g = 0x86 then
    let v := n 0 4
    decide (bitsOf v 1 0 ≤ 1) && bitsOf v 3 2 == 0 && bitsOf v 10 8 != 0 && bitsOf v 15 11 == 0 &&
      (bitsOf v 23 16 == 0 || decide (32 ≤ bitsOf v 23 16)) && bitsOf v 31 24 == 0 && n 4 4 == 0
  else if g = 0x87 then
    let addr := n 2 2
    let b4 := n 4 1
    let b5 := n 5 1
    decide (addr < 4096) && !bitOf b4 3 && !bitOf b4 7 && decide (b5 < 8) && n 7 1 == 0 &&
      (!lineEn || (b4 / 16 != 0 && b5 % 4 != 3 && n 0 2 != 0 && (role == 3) == (addr == 0)))
  else if g = 0x8B then
    let v := n 4 4
    if bitOf v 31 then
      decide (n 0 1 ≤ 127) && decide (n 1 1 ≤ 5) && !outside (n 2 1) (n 0 1) 127 && !outside (n 3 1) 1 8 &&
        decide (bitsOf v 21 0 ≤ 4194302) && bitsOf v 30 22 == 0
    else n 0 8 == 0
  else true

/-- A parameter group as it is loaded: its factory value where it is lost or its check fails (R270, Table 9.9). -/
def StoreState.param (s : StoreState) (g : Nat) : List Byte :=
  if s.sound g && s.paramOk g 0 false then s.group g else Mem.readBytes larderByte [] (8 * g) 8

/-- STORE.STAT of a command that has finished or been refused (Table 8.2). -/
def StoreState.setResult (s : StoreState) (op result : Nat) : StoreState :=
  { s with result := BitVec.ofNat 4 result, op := BitVec.ofNat 4 op }

/-- An immediate write of a group, queued for its home; a failed group discards it (R244), a lost one is lost no more
(R243). A host write that is discarded sets RESULT to NO_SPARE. -/
def StoreState.writeImmBy (host : Bool) (s : StoreState) (g : Nat) (b : List Byte) : StoreState :=
  if s.failed.contains g then (if host then { s with result := 0xD, hostLost := true } else s)
  else { s with queue := s.queue ++ [.imm g b host], lost := s.lost.filter (· != g) }

/-- An immediate write by the device or a task. -/
def StoreState.writeImm (s : StoreState) (g : Nat) (b : List Byte) : StoreState := s.writeImmBy false g b

/-- Groups of a journal record of `n` data groups: its header, its index groups of four targets each, and the data. -/
def recordLength (n : Nat) : Nat := 1 + (n + 3) / 4 + n

/-- A journaled transaction of a pot's region queued for its home groups; its record takes the journal's next groups in turn. -/
def StoreState.writeTxn (host : Bool) (owner : Nat) (s : StoreState) (gs : List (Nat × List Byte)) : StoreState :=
  let keep := gs.filter (fun p => !s.failed.contains p.1)
  if keep.isEmpty then s
  else
    { s with
      queue := s.queue ++ [.txn { owner, seq := s.journalSeq, place := s.journalAt, groups := keep, done := 0, host, old := [] }]
      journalSeq := (s.journalSeq + 1) % 2 ^ 32, journalAt := (s.journalAt + recordLength keep.length + 1) % 2048
      lost := s.lost.filter (fun g => !(keep.any (fun p => p.1 == g))) }

/-- A write of part of a group: bytes from `lo` replaced. -/
def StoreState.writePart (s : StoreState) (g lo : Nat) (b : List Byte) : StoreState :=
  let old := s.group g
  s.writeImm g (old.take lo ++ b ++ old.drop (lo + b.length))

/-- An operation of the larder and its records, on the whole device. -/
def Dev.onStore (d : Dev) (f : StoreState → StoreState) : Dev := { d with store := f d.store }

/-! ## The fault log (R567 to R571) -/

/-- Whether one event comes before another within a step (R569): ascending CODE, then ascending SUBJECT. -/
def LogEvent.before (a b : LogEvent) : Bool :=
  a.code < b.code || (a.code == b.code && a.subject < b.subject)

/-- An event put in its place among those of the same step. -/
def insertEvent (e : LogEvent) : List LogEvent → List LogEvent
  | [] => [e]
  | f :: fs => if e.before f then e :: f :: fs else f :: insertEvent e fs

/-- An event of Table 20.2, to be written at the end of its step. -/
def Dev.event (d : Dev) (code subject detail tag aux : Nat) : Dev :=
  d.onStore fun s =>
    { s with logPend := insertEvent { code, subject, detail, tag, aux } s.logPend }

/-- The milestone stamp and the NET flag (R568). -/
def Dev.logStamp (d : Dev) : Nat × Bool := if d.time.netValid then (d.netMs, true) else (d.ms, false)

/-- The four groups of an entry (Table 20.1). -/
def logGroups (stamp : Nat × Bool) (seq : Nat) (e : LogEvent) : List (List Byte) :=
  [leBytes 4 seq ++ leBytes 4 (stamp.1 % 2 ^ 32),
   leBytes 2 (stamp.1 / 2 ^ 32) ++ leBytes 1 e.code ++ leBytes 1 (b2n stamp.2) ++ leBytes 2 e.subject ++
     leBytes 2 e.detail,
   leBytes 8 e.tag,
   leBytes 4 e.aux ++ leBytes 4 seq]

/-- One entry written as four immediate larder writes in the order 0 to 3 (R570), or counted as not written once the
milestone has its four (R571). -/
def writeEntry (stamp : Nat × Bool) (s : StoreState) (e : LogEvent) : StoreState :=
  if 4 ≤ s.logCount then { s with logLost := s.logLost + 1 }
  else
    let base := 0x600 + 4 * (s.logSeq % 192)
    let s1 := (logGroups stamp s.logSeq e).zipIdx.foldl (fun s p => s.writeImm (base + p.2) p.1) s
    { s1 with logSeq := (s.logSeq + 1) % 2 ^ 32, logCount := s.logCount + 1 }

/-- The events of a step written in their order. -/
def Dev.logFlush (d : Dev) : Dev :=
  d.onStore fun s => s.logPend.foldl (writeEntry d.logStamp) { s with logPend := [] }

/-- At a milestone boundary: the LOG_LOST entry of the milestone that ended (R571). -/
def Dev.logNewMs (d : Dev) : Dev :=
  d.onStore fun s =>
    let s1 := { s with logCount := 0, logLost := 0 }
    if s.logLost = 0 then s1
    else writeEntry d.logStamp s1 { code := 0x13, subject := 0, detail := min s.logLost 0xFFFF, tag := 0, aux := 0 }

/-- The TAG of a pot as the number of its eight bytes (R187). -/
def Dev.tag (d : Dev) (p : Nat) : Nat :=
  match d.image.pots[p]? with
  | some q => leNat (q.tag.take 8)
  | none => 0

/-! ## Uncorrectable memory errors (Table 1.4, Table 1.7) -/

/-- An uncorrectable error in memory of pot `p` only; the Hob's counts as shared (Table 1.6). -/
def Dev.uncorrPot (d : Dev) (kind p aux : Nat) : Dev :=
  if p = 0 then { d with sys := { d.sys with uncorrShared := true } }.event 0x0B kind 0xFFFF 0 aux
  else { d with sys := { d.sys with voidMem := d.sys.voidMem ||| (1#16 <<< p) } }.event 0x0B kind p (d.tag p) aux

/-- An uncorrectable error in memory that serves more than one pot. -/
def Dev.uncorrShared (d : Dev) (kind aux : Nat) : Dev :=
  { d with sys := { d.sys with uncorrShared := true } }.event 0x0B kind 0xFFFF 0 aux

/-! ## Larder retirement (R241 to R244) -/

/-- The larder region that holds a logical group, by number. -/
def Dev.regionOf (d : Dev) (g : Nat) : Option (Nat × LarderRegion) :=
  (d.image.larderRegions.zipIdx.find? (fun p =>
    p.1.owner < 16 && p.1.base ≤ g && g < p.1.base + p.1.groups)).map (fun p => (p.2, p.1))

/-- A status bit of the region that holds a group. -/
def Dev.onRegion (d : Dev) (g : Nat) (f : RegionStat → RegionStat) : Dev :=
  match d.regionOf g with
  | some (r, _) => d.onStore fun s => { s with regions := vupdN s.regions r f }
  | none => d

/-- The count of a wear block. -/
def StoreState.wearOf (s : StoreState) (b : Nat) : Nat :=
  match s.wear.find? (fun p => p.1 == b) with
  | some p => p.2
  | none => 0

/-- One write counted in the wear block of a group; WEAR is set when the count passes 8 × 10⁹ (R253). -/
def Dev.countWear (d : Dev) (g : Nat) : Dev :=
  let b := g / 64
  let n := d.store.wearOf b + 1
  let d1 := d.onStore fun s => { s with wear := (b, n) :: s.wear.filter (fun p => p.1 != b) }
  if 8000000000 < n && !d.store.wearMark then
    (d1.onStore fun s => { s with wearMark := true }).event 0x12 b 0 0 0
  else d1

/-- The eight bytes of a group written to its cells, counted as one write. -/
def Dev.cellWrite (d : Dev) (g : Nat) (b : List Byte) : Dev :=
  (d.countWear g).onStore fun s => { s with home := Mem.writeBytes larderByte s.home (8 * g) b }

/-- The eight bytes that the cells of a group hold. -/
def StoreState.cells (s : StoreState) (g : Nat) : List Byte := Mem.readBytes larderByte s.home (8 * g) 8

/-- Group `j` of the remap table: for each of four spares the logical group that it holds, with bit 15 set (DESIGN CHOICE, log
77). -/
def StoreState.remapGroup (s : StoreState) (j : Nat) : List Byte :=
  (upTo 4).flatMap fun i =>
    match s.remap.find? (fun p => p.2 == 4 * j + i) with
    | some p => leBytes 2 (0x8000 + p.1)
    | none => [0, 0]

/-- A failing group is mapped to the lowest free spare, in one copy of the remap table and then in the other, or marked failed
and lost if none is free (R242, R244, Table 7.12). The physical number of spare k is 30,720 + k (DESIGN CHOICE, log 20). `cause`
is the DETAIL of Table 20.2. -/
def Dev.retireGroup (d : Dev) (g cause : Nat) : Dev :=
  if d.store.spares = 0 then
    ((d.onStore fun s =>
      { s with failed := g :: s.failed.filter (· != g), lost := g :: s.lost.filter (· != g), noSpare := true }).onRegion g
      (fun r => { r with lost := true })).event 0x0A g 0 0 0
  else
    let k := 2048 - d.store.spares
    let d1 := d.onStore fun s => { s with remap := (g, k) :: s.remap, spares := s.spares - 1 }
    let row := d1.store.remapGroup (k / 4)
    (((d1.cellWrite (0x200 + k / 4) row).cellWrite (0x400 + k / 4) row).onRegion g
      (fun r => { r with retired := true })).event 0x09 g cause 0 (30720 + k)

/-- A group whose data a double-bit error has destroyed: it holds 0, is lost and counted, and is retired (R241 to R243). -/
def Dev.loseGroup (d : Dev) (g : Nat) : Dev :=
  (d.onStore fun s =>
    { s with lost := g :: s.lost, lostCount := satInc s.lostCount,
             home := Mem.writeBytes larderByte s.home (8 * g) (List.replicate 8 0) }).retireGroup g 1

/-- The same group of the other copy of the remap table. -/
def remapMate (g : Nat) : Nat := if g < 0x400 then g + 0x200 else g - 0x200

/-- A double-bit error in the remap table (R579): the group is retired and rewritten from the other copy, unless that cannot be
read either; then the mapping is lost, and with it what its groups held (DEDUCED, log 174). `mate` tells that the other copy
shows a double-bit error at the same time. -/
def Dev.remapFind (d : Dev) (g : Nat) (mate : Bool) : Dev :=
  if mate || !d.store.sound (remapMate g) then
    (d.onStore fun s =>
      { s with lost := g :: (s.remap.filter (fun p => p.2 / 4 == g % 0x200)).map (·.1) ++ s.lost
               remap := s.remap.filter (fun p => p.2 / 4 != g % 0x200) }).retireGroup g 1
  else (d.retireGroup g 1).cellWrite g ((d.retireGroup g 1).store.cells (remapMate g))

/-- A read of a group with what its check byte shows: a single-bit error is corrected, counted and written back; a
double-bit error loses the data, retires the group and is reported once (R241, R243). The remap table and the wear
counters recover without loss (R579); `mate` is as in `remapFind`. -/
def Dev.larderFindBy (d : Dev) (g : Nat) (e : EccFind) (mate : Bool) : Dev :=
  match e with
  | .clean => d
  | .single =>
    if d.store.lost.contains g then d
    else (d.onStore fun s => { s with corrected := satInc s.corrected }).cellWrite g (d.store.cells g)
  | .double =>
    if d.store.lost.contains g || d.store.failed.contains g then d
    else if 0x200 ≤ g && g < 0x600 then d.remapFind g mate
    else if 0xC00 ≤ g && g < 0xDE0 then
      (d.retireGroup g 1).cellWrite g (leBytes 8 ((d.retireGroup g 1).store.wearOf (g - 0xC00)))
    else
      let d2 := (d.loseGroup g).onRegion g (fun r => { r with lost := true })
      match d.regionOf g with
      | some (_, r) => d2.uncorrPot 2 r.owner g
      | none => d2.uncorrShared 2 g

/-- A read of one group, the other copy of a remap group being sound. -/
def Dev.larderFind (d : Dev) (g : Nat) (e : EccFind) : Dev := d.larderFindBy g e false

/-- Reads of several groups: what the check bytes show of those that are not clean (R241). -/
def Dev.larderReads (finds : List (Nat × EccFind)) (d : Dev) : Dev :=
  finds.foldl (fun d f => d.larderFindBy f.1 f.2 (mapFind finds (remapMate f.1) == some .double)) d

/-- A read of a lost group sets LOST in its region's status (R243). -/
def Dev.markLostRead (d : Dev) (g : Nat) : Dev :=
  if d.store.lost.contains g || d.store.failed.contains g then d.onRegion g (fun r => { r with lost := true }) else d

/-! ## Retirement and acknowledgement records (R34, R580) -/

/-- The record of one lane or slice retirement: the record group first, RECORDED second. -/
def Dev.recordRetirement (d : Dev) (kind unit cause : Nat) : Dev :=
  let n := d.sys.recorded.toNat
  let s1 := d.store.writeImm (0x101 + n) (leBytes 1 kind ++ leBytes 1 unit ++ leBytes 1 cause ++ [0] ++
    leBytes 4 (d.ms % 2 ^ 32))
  let s2 := s1.writeImm 0x100 (leBytes 4 (n + 1) ++ leBytes 4 d.sys.acked.toNat)
  { d with store := s2, sys := { d.sys with recorded := BitVec.ofNat 32 (n + 1) } }

/-- An acknowledgement writes ACKED (R35, R574): `upto` is RECORDED when the write was accepted. One RETIRE_ACK entry counts
what it acknowledges; with nothing pending it has no effect. -/
def Dev.ackRetire (upto : Word) (d : Dev) : Dev :=
  let n := (upto - d.sys.acked).toNat
  if upto.toNat ≤ d.sys.acked.toNat then d
  else
    let s1 := d.store.writeImm 0x100 (leBytes 4 d.sys.recorded.toNat ++ leBytes 4 upto.toNat)
    { d with store := s1, sys := { d.sys with acked := upto } }.event 0x0C 0 (min n 0xFFFF) 0 0

end Sys2Proof.Machine
end

