-- ==== Sys2Proof/Machine/Line.lean ====
section
/-! DEFINITION. The signal path of the Hefen Line (12) and access to the medium (R375 to R379). -/

namespace Sys2Proof.Machine

/-- An operation on the Line's state. -/
def Dev.onLine (d : Dev) (f : LineState → LineState) : Dev := { d with line := f d.line }

/-- LINE.PHY_STAT.DCLASS: class A while the lock is FREE or TIME.PERIOD is at least 17,900,000 ns (R359). -/
def Dev.classB (d : Dev) : Bool := !(d.time.lock == .free || decide (17900000 ≤ d.period))

/-- The tone map that a received TMID names: the fixed map, or one this node has issued (R357, R389). -/
def LineState.issuedMap (l : LineState) (tmid : Nat) : Option ToneMap :=
  if tmid = 0 then some map0
  else
    let maps := l.neigh.flatMap (fun n => n.issued.toList ++ n.issuedPrev.toList)
    maps.find? (fun m => m.tmid == tmid)

/-- Length of a frame in ns from its first sample. -/
def frameNs (mode : LineMode) (codes : List Nat) (classB : Bool) (len msLen : Nat) : Nat :=
  match mode with
  | .tone => toneNs len
  | .normal => normalNs codes len
  | .rob4 => robustNs false classB len msLen
  | .rob6 => robustNs true classB len msLen

/-- Length in ns of a frame's last symbol. -/
def lastSymNs (mode : LineMode) : Nat :=
  match mode with
  | .tone => 1000000
  | _ => symNs 1

/-- Whether a mode is robust. -/
def LineMode.robust (m : LineMode) : Bool := m == .rob4 || m == .rob6

/-! ## Coupling (R341, R342, R344) -/

/-- Three-phase coupling (Table 12.2 COUPLING). -/
def LineState.three (l : LineState) : Bool := bitsOf l.cfg.toNat 1 0 = 1

/-- The receive inputs of the coupling: the AIN pins that the ticks of the bound MC convert (Table 12.1). -/
def LineState.coupled (l : LineState) : List Nat := ((upTo 4).map (boundInput 2 l.three)).filter (· ≠ 8)

/-- Whether PHASE_MASK enables phase `p`. -/
def LineState.phaseOn (l : LineState) (p : Nat) : Bool := bitOf l.cfg.toNat (8 + p)

/-- The inputs that may be combined: coupled, with their PHASE_MASK bit 1. -/
def LineState.enabled (l : LineState) : List Nat := l.coupled.filter l.phaseOn

/-- The inputs that are combined in a frame, each with its weights (R364): in three-phase coupling its linear SNR, 0 where that is
below 0 dB, and no input whose weights are all 0; in one-phase coupling the one input, with equal weights. -/
def LineState.combine (l : LineState) (est : List InputEst) : Inputs :=
  l.enabled.filterMap (fun i =>
    let snr := match est[i]? with
      | some e => e.snr
      | none => []
    let w := if l.three then snr.map (fun x => if x < 16 then 0 else x) else List.replicate 40 16
    if w.all (· == 0) then none else some (i, w))

/-- RSSI: the level on the strongest combined input (Table 12.8). -/
def rssiOf (inputs : Inputs) (est : List InputEst) : Nat :=
  (inputs.map (fun p => match est[p.1]? with
    | some e => e.rssi
    | none => 0)).foldl max 0

/-! ## A frame being received (R365, R368) -/

/-- The number of bursts of a robust frame (R361). -/
def RxProgress.bursts (r : RxProgress) : Nat := 2 + 2 * robustUnits (r.mode == .rob6) r.classB r.len

/-- The end, in ns, of a frame being received; that of a robust frame by the receiver's own waymarks. -/
def Dev.rxEnds (d : Dev) (r : RxProgress) : Nat :=
  match r.mode with
  | .tone => r.start + toneNs r.len
  | .normal => r.start + normalNs r.codes r.len
  | _ => d.plusWm r.start ((128 * (r.bursts - 1 - b2n r.copy) : Nat) : Int) + symNs (1 + dataSymbols r.classB)

/-- The start of its last symbol. -/
def Dev.rxLast (d : Dev) (r : RxProgress) : Nat := d.rxEnds r - lastSymNs r.mode

/-- A frame whose header has been decoded is received from now on, and the medium is busy to its end (R375). -/
def Dev.beginRx (d : Dev) (r : RxProgress) : Dev :=
  d.onLine fun l => { l with rx := some r, carrierAt := none, busyUntil := max l.busyUntil (d.rxEnds r) }

/-- The header of an acquired preamble (R349, R353, R357): a good one starts a reception, a bad one is counted. -/
def Dev.readHeader (d : Dev) (p : PreambleEnv) : Dev :=
  let fail := d.onLine fun l => { l with rx := none, bannerFail := satInc l.bannerFail }
  let inputs := d.line.combine p.inputs
  let r : RxProgress :=
    { mode := .tone, tmid := 0, len := p.toneLen, codes := [], classB := false, inputs, rssi := rssiOf inputs p.inputs,
      start := p.first, mark := p.mark, copy := false, other := none }
  if p.tone then
    if p.toneLen < 1 || 32 < p.toneLen then d.onLine fun l => { l with rx := none, checkFail := satInc l.checkFail }
    else d.beginRx r
  else
    match headerBanner inputs p.header with
    | none => fail
    | some b =>
      match b.mode with
      | .normal =>
        match d.line.issuedMap b.tmid with
        | some m => d.beginRx { r with mode := .normal, tmid := b.tmid, len := b.len, codes := m.codes }
        | none => fail
      | m => d.beginRx { r with mode := m, len := b.len, codes := map0.codes, classB := b.classB, copy := b.copy }

/-- Whether a preamble lies in the search for burst 1 of the robust frame being received (R365). -/
def Dev.secondHeader (d : Dev) (r : RxProgress) (p : PreambleEnv) : Bool :=
  !p.tone && r.mode.robust && !r.copy && r.other.isNone &&
    decide (((p.first : Int) - (d.plusWm r.start 128 : Int)).natAbs ≤ 150000)

/-- PREAMBLE_DETECT: a reception starts, or a preamble stronger by 8.00 dB captures the receiver (R368); one found in the search for
burst 1 is the frame's second header (R365); nothing is received while the device sends (R369) or is not ready (R371). -/
def Dev.preamble (p : PreambleEnv) (d : Dev) : Dev :=
  if !d.rxReady || d.line.tx.isSome then d
  else
    match d.line.rx with
    | none => d.readHeader p
    | some r =>
      if d.secondHeader r p then
        d.onLine fun l => { l with rx := some { r with other := some (p.first, (headerBanner r.inputs p.header).isSome) } }
      else if d.rxEnds r ≤ p.first then d.readHeader p
      else if p.first < d.rxLast r && decide (r.rssi + 32 ≤ rssiOf (d.line.combine p.inputs) p.inputs) then
        (d.onLine fun l => { l with captured := satInc l.captured }).readHeader p
      else d

/-! ## The end of a frame (R363, R365 to R367) -/

/-- The data bursts that the receiver finds: the search for burst `h` is centred on the start of the last burst found, `at'`, and its
half width is 150 µs, and 60 µs more for each interval beyond two (R365). A burst that is not found has no symbols. -/
def Dev.searchBursts (d : Dev) : Nat → Nat → Nat → List RxBurst → List (List RxSym)
  | _, _, _, [] => []
  | h, j, at', b :: rest =>
    let want := d.plusWm at' ((128 * (h - j) : Nat) : Int)
    let half := 150000 + 60000 * (h - j - 2)
    match b.start with
    | some t =>
      if ((t : Int) - (want : Int)).natAbs ≤ half then b.syms :: Dev.searchBursts d (h + 1) h t rest
      else [] :: Dev.searchBursts d (h + 1) j at' rest
    | none => [] :: Dev.searchBursts d (h + 1) j at' rest

/-- The data bursts of the frame being received. -/
def Dev.dataBursts (d : Dev) (r : RxProgress) (e : RxEnd) : List (List RxSym) :=
  let bs := e.bursts.take (r.bursts - 2)
  if r.copy then d.searchBursts 2 1 r.start bs
  else
    match r.other with
    | some (t, _) => d.searchBursts 2 1 t bs
    | none => d.searchBursts 2 0 r.start bs

/-- Whether a data burst is lost: every symbol is an erasure on every combined input, or it was not found (R363). -/
def burstLost (inputs : Inputs) (burst : List RxSym) : Bool := burst.all (fun s => inputs.all (fun p => s.erased p.1))

/-- The bursts lost in a frame: data bursts, and header bursts whose banner was not decoded (R363). -/
def Dev.lostBursts (d : Dev) (r : RxProgress) (e : RxEnd) : Nat :=
  if !r.mode.robust then 0
  else
    let data := d.dataBursts r e
    let missing := r.bursts - 2 - data.length
    let head := if r.copy then 1 else match r.other with
      | some (_, true) => 0
      | _ => 1
    (data.filter (burstLost r.inputs)).length + missing + head

/-- The payload of the frame being received; none where it is dropped (R349, R366). -/
def Dev.decodeRx (d : Dev) (r : RxProgress) (e : RxEnd) : Option (List Byte) :=
  match r.mode with
  | .tone => tonePayload r.inputs r.len e.tones
  | .normal => carrierPayload r.len (normalMetrics r.inputs r.codes e.syms)
  | m => carrierPayload r.len (robustMetrics r.inputs (m == .rob6) (dataSymbols r.classB) (d.dataBursts r e))

/-- A frame's timing mark (ns): that of burst 0, also where burst 1 was decoded first (DEDUCED, log 187). -/
def Dev.rxMark (d : Dev) (r : RxProgress) : Nat := if r.copy then d.plusWm r.mark (-128) else r.mark

/-- A counter of frames that were dropped at the check, by what was lost (R366). -/
def LineState.countDrop (l : LineState) (mode : LineMode) (lost : Nat) : LineState :=
  if mode.robust && 0 < lost then { l with burstLost := satInc l.burstLost }
  else { l with checkFail := satInc l.checkFail }

/-- A frame delivered: RX_TONE or RX_CARRIER, BURST_SAVED, PH_USED (R366, Table 12.9). -/
def LineState.countGood (l : LineState) (f : RxFrame) : LineState :=
  let l1 := if f.mode = .tone then { l with rxTone := satInc l.rxTone } else { l with rxCarrier := satInc l.rxCarrier }
  let l2 := if f.mode.robust && 0 < f.lost then { l1 with burstSaved := satInc l1.burstSaved } else l1
  { l2 with phUsed := f.phUsed }

/-- The report of a frame with its payload (Table 12.8). -/
def Dev.reportOf (d : Dev) (r : RxProgress) (e : RxEnd) (bytes : List Byte) : RxFrame :=
  { mode := r.mode, tmid := r.tmid, lost := d.lostBursts r e, rssi := r.rssi, snr := e.snr,
    phUsed := BitVec.ofNat 3 ((r.inputs.map (fun p => 2 ^ p.1)).sum), stamp := d.rxMark r * 16 / 1000, ends := d.rxEnds r,
    src := e.src, bytes }

/-- The frame being received has ended: it is delivered with its report, or dropped and counted (R366, R367). Where none is being
received, since its preamble was ignored, or it was abandoned, captured or pre-empted, nothing is delivered (R368, R369). -/
def Dev.received (e : RxEnd) (d : Dev) : Dev × Option RxFrame :=
  match d.line.rx with
  | none => (d, none)
  | some r =>
    if !d.rxReady then (d, none)
    else
      let d0 := d.onLine fun l => { l with rx := none }
      match d.decodeRx r e with
      | none => (d0.onLine fun l => l.countDrop r.mode (d.lostBursts r e), none)
      | some bytes => (d0.onLine fun l => l.countGood (d.reportOf r e bytes), some (d.reportOf r e bytes))

/-- CARRIER_DETECT: carrier stamped at `at'` ns, with the noise level of the noisiest input (R375). -/
def Dev.carrier (at' : Nat) (noise : BitVec 8) (d : Dev) : Dev :=
  if d.rxReady then
    d.onLine fun l => { l with noise, carrierAt := if at' < l.busyUntil then l.carrierAt else some at' }
  else d

/-- Whether the medium is busy for this node at an instant in ns (R375). -/
def Dev.busyAt (d : Dev) (t : Nat) : Bool :=
  d.line.bandUse || decide (t < d.line.busyUntil) || d.line.tx.isSome ||
  (match d.line.rx with
   | some r => decide (t < d.rxEnds r)
   | none => false) ||
  (match d.line.carrierAt with
   | some c => decide (t < c + 132 * d.time.msLen / 256)
   | none => false) ||
  (match d.line.ownEnd with
   | some e => decide (t < e + 2000000)
   | none => false)

/-- MARGIN of a frame in 0.25 dB (Table 12.8): the lowest over the carriers on of SNR less 4, 7 or 12 dB. -/
def marginOf (codes : List Nat) (snr : List Int) : Int :=
  let ms := (List.zip codes snr).filterMap (fun p =>
    if p.1 = 0 then none
    else some (2 * p.2 - (if p.1 = 2 then 28 else if p.1 = 3 then 48 else 16)))
  match ms with
  | [] => 0
  | m :: rest => rest.foldl min m

/-- MARGIN of a received frame; tone and robust frames are judged as DBPSK. -/
def LineState.margin (l : LineState) (f : RxFrame) : Int :=
  match f.mode with
  | .normal =>
    match l.issuedMap f.tmid with
    | some m => marginOf m.codes f.snr
    | none => marginOf map0.codes f.snr
  | _ => marginOf map0.codes f.snr

/-- The wait for an ACK that a frame asks for. -/
def TxFrame.await (t : TxFrame) : List AwaitAck :=
  if t.frame.ackreq then [{ lseq := t.lseq, deadline := t.ackBy, frame := t.frame }] else []

/-- A frame being sent is cut and counted in TX_CUT (R371); no ACK of it can come, so its attempt fails in time (R387). -/
def LineState.cutTx (l : LineState) : LineState :=
  match l.tx with
  | some t => { l with tx := none, txCut := satInc l.txCut, awaits := l.awaits ++ t.await }
  | none => l

/-- PD12 switched off: the frame being sent is cut, the one being received dropped without a count (R371). -/
def LineState.offPd12 (l : LineState) : LineState := { l.cutTx with rx := none }

/-- MC failed or PD10 not usable: the frame being received counts in CHECK_FAIL (R371). -/
def LineState.loseMc (l : LineState) : LineState :=
  let l1 := if l.rx.isSome then { l with rx := none, checkFail := satInc l.checkFail } else l
  l1.cutTx

/-- A phase step under R45 cuts or drops a robust frame in progress (R371). -/
def LineState.phaseStep (l : LineState) : LineState :=
  let l1 := match l.rx with
    | some r => if r.mode.robust then { l with rx := none, checkFail := satInc l.checkFail } else l
    | none => l
  match l1.tx with
  | some t => if t.mode.robust then l1.cutTx else l1
  | none => l1

/-- PHY_CFG_APPLY: a written LINE.PHY_CFG takes effect at a milestone boundary with no frame in progress (R346). -/
def Dev.phyCfgApply (d : Dev) : Dev :=
  match d.line.cfgPend with
  | some w =>
    if d.time.wm = 0 && d.line.tx.isNone && d.line.rx.isNone then
      d.onLine fun l => { l with cfg := w, cfgPend := none }
    else d
  | none => d

/-! ## The impulse blanker (R362) -/

/-- A blanker with nothing before it. -/
def Blanker.empty : Blanker := { hist := [], after := 0, last := [] }

/-- Whether a sample lies further from the running mean than K ÷ 16 times the running rms, both over the last 256 samples that were
not blanked. -/
def Blanker.beyond (b : Blanker) (k : Nat) (x : Int) : Bool :=
  let w := b.hist.take 256
  let n : Int := (w.length : Nat)
  let s := w.sum
  let q := (w.map (fun v => v * v)).sum
  decide ((k : Int) * k * q * n < 256 * (n * x - s) * (n * x - s)) && n ≠ 0

/-- One sample through the blanker: what it leaves, how many samples it zeroes, and whether a bubble begins. A sample beyond the
threshold, or with GAP, is zeroed with the 2 before it and the 6 after it; none that is the device's own (log 188). -/
def Blanker.step (k : Nat) (b : Blanker) (x : LineSample) : Blanker × Nat × Bool :=
  if x.own then ({ b with after := 0, last := (SampleFate.own :: b.last).take 3 }, 0, false)
  else if x.gap || b.beyond k x.value then
    let near := b.last.take 2
    let back := (near.filter (· == .kept)).length
    let fates := near.map (fun f => if f = .own then SampleFate.own else .zeroed) ++ b.last.drop 2
    ({ hist := b.hist.drop back, after := 6, last := (SampleFate.zeroed :: fates).take 3 }, 1 + back, !b.last.contains .zeroed)
  else if 0 < b.after then ({ b with after := b.after - 1, last := (SampleFate.zeroed :: b.last).take 3 }, 1, false)
  else ({ hist := (x.value :: b.hist).take 258, after := 0, last := (SampleFate.kept :: b.last).take 3 }, 0, false)

/-- The samples of one input: samples zeroed and bubbles. -/
def Blanker.run (k : Nat) (b : Blanker) (xs : List LineSample) : Blanker × Nat × Nat :=
  xs.foldl (fun s x =>
    let r := s.1.step k x
    (r.1, s.2.1 + r.2.1, s.2.2 + b2n r.2.2)) (b, 0, 0)

/-- The blanker over the milestone that has ended: BLANKED, in percent of the samples of the coupled inputs, and BUBBLES; off with
BLANK_K 0 and without a receiver. -/
def Dev.blanker (samples : List (List LineSample)) (d : Dev) : Dev :=
  let k := bitsOf d.line.cfg.toNat 23 16
  if d.rxReady && k ≠ 0 then
    let ins := d.line.coupled
    let runs := ins.map (fun i => (i, (vgetD d.line.blankers i Blanker.empty).run k (samples.getD i [])))
    let all := (ins.map (fun i => (samples.getD i []).length)).sum
    let zeroed := (runs.map (fun r => r.2.2.1)).sum
    let share := 100 * zeroed / max 1 all
    let up := 100 * zeroed % max 1 all ≠ 0 && Config.roundUp d.time.now
    d.onLine fun l =>
      { l with blanked := BitVec.ofNat 8 (min 100 (share + b2n up)),
               blankers := runs.foldl (fun v r => vupdN v r.1 (fun _ => r.2.1)) l.blankers,
               bubbles := satAdd l.bubbles (runs.map (fun r => r.2.2.2)).sum }
  else d.onLine fun l => { l with blanked := 0, blankers := Vector.replicate 3 Blanker.empty }

/-! ## The LTX pins (R341, R343, R344, R348, R350, R358) -/

/-- What an LTX pin presents: high impedance, 0, one tone at a phase in 1/150 cycle, or carriers of equal amplitude at phases in
π/640, of position 0 upwards; `att` is the attenuation in dB below full scale (TXLVL). -/
inductive LtxLevel where
  | highZ
  | zero
  | tone (att phase : Nat)
  | carriers (att : Nat) (phases : List Nat)
  deriving DecidableEq, Repr

/-- Sample `t` of a carrier symbol: carrier index k = 84 + c is at 2π × k × t ÷ 256 + φ (R350). -/
def carrierPhases (t : Nat) (phi : List Nat) : List Nat := phi.zipIdx.map (fun p => (5 * (84 + p.2) * t + 16 * p.1) % 1280)

/-- Sample `t` of a tone symbol: 110, 114, 118 and 122 kHz are 55, 57, 59 and 61 of 150 cycles per sample (R348). -/
def tonePhase (tone t : Nat) : Nat := (55 + 2 * tone) * t % 150

/-- Sample `n` of a burst: in a tone frame symbols of 300 samples; else a header's first three symbols of 256 samples and then symbols
of 286, the first 30 repeating the symbol's last 30; none past the end. -/
def burstSample (mode : LineMode) (header : Bool) (att : Nat) (syms : List (List Nat)) (n : Nat) : LtxLevel :=
  if mode = .tone then
    match syms[n / 300]? with
    | some s => .tone att (tonePhase (s.headD 0) (n % 300))
    | none => .zero
  else
    let at' := if header && n < 768 then (n / 256, n % 256)
      else
        let m := if header then n - 768 else n
        ((if header then 3 else 0) + m / 286, (m % 286 + 226) % 256)
    match syms[at'.1]? with
    | some s => .carriers att (carrierPhases at'.2 s)
    | none => .zero

/-- The start of burst `h` of the frame being sent: h × 128 of the transmitter's waymarks after its transmit instant, and 50.0 µs
(R343, R358). -/
def Dev.txBurst (d : Dev) (t : TxFrame) (h : Nat) : Nat :=
  if h = 0 then t.first else d.plusWm (t.first - 50000) ((128 * h : Nat) : Int) + 50000

/-- The end of the frame being sent. -/
def Dev.txEnds (d : Dev) (t : TxFrame) : Nat :=
  if t.mode.robust then
    let h := t.bursts.length - 1
    d.txBurst t h + symNs (t.bursts.getLastD []).length
  else t.ends

/-- The burst that a frame presents at an instant in ns: the last one that has begun. -/
def Dev.burstAt (d : Dev) (t : TxFrame) (at' : Nat) : Nat :=
  (upTo t.bursts.length).foldl (fun m h => if d.txBurst t h ≤ at' then h else m) 0

/-- The state of pin LTXp at an instant in ns: high impedance while PD12 is not usable, and on a phase that COUPLING or PHASE_MASK
leaves out; 0 between bursts and while nothing is sent. -/
def Dev.ltxPin (d : Dev) (p : Fin 3) (at' : Nat) : LtxLevel :=
  let l := d.line
  if !d.pd 12 || !(l.coupled.contains p.val) || !l.phaseOn p.val then .highZ
  else
    match l.tx with
    | none => .zero
    | some t =>
      if at' < t.first then .zero
      else
        let h := d.burstAt t at'
        burstSample t.mode (!t.mode.robust || h < 2) (2 * bitsOf l.cfg.toNat 7 4) (t.bursts.getD h [])
          ((at' - d.txBurst t h) * 3 / 10000)

/-- TX_ACTIVE: from the frame's first sample to the end of its last burst (Table 12.9). -/
def Dev.txActive (d : Dev) : Bool :=
  match d.line.tx with
  | some t => decide (t.first ≤ d.time.now)
  | none => false

/-- A milestone that begins within a robust frame places the bursts to come (R358). -/
def Dev.retimeTx (d : Dev) : Dev :=
  match d.line.tx with
  | some t =>
    let ends := d.txEnds t
    d.onLine fun l => { l with tx := some { t with ends, ackBy := t.ackBy + ends - t.ends } }
  | none => d

/-- The Line at a milestone that begins with a step of the phase (R371). -/
def Dev.lineStep (steps : Bool) (d : Dev) : Dev := if steps then d.onLine LineState.phaseStep else d.retimeTx

/-- A write of LINE.PHY_CFG: reserved bits keep 0; a reserved encoding leaves its field as it was (R5). -/
def LineState.writeCfg (l : LineState) (w : BitVec 32) : LineState :=
  let old := (l.cfgPend.getD l.cfg).toNat
  let v := w.toNat
  let coupling := if bitsOf v 1 0 < 2 then bitsOf v 1 0 else bitsOf old 1 0
  let mask := if bitsOf v 10 8 = 0 then bitsOf old 10 8 else bitsOf v 10 8
  let k := bitsOf v 23 16
  let blank := if k = 0 || 32 ≤ k then k else bitsOf old 23 16
  { l with cfgPend := some (BitVec.ofNat 32 (coupling + 16 * bitsOf v 7 4 + 256 * mask + 65536 * blank)) }

end Sys2Proof.Machine
end

