-- ==== Sys2Proof/Machine/NetBase.lean ====
section
/-! DEFINITION. MAC frames of the Hefen Line, their security, the neighbour cache, routes and the transmit queue (R377,
R380 to R391, R401 to R404). -/

namespace Sys2Proof.Machine

/-! ## Remote I/O groups (R404) -/

/-- A remote I/O group as the image declares it. -/
structure GroupDecl where
  convoy : Bool
  e : Nat
  phase : Nat
  prio : Nat
  staleN : Nat
  producers : List Nat
  deriving DecidableEq, Repr

/-- The declaration of group `g`, from SCRIPTS KEY 0x0400 + g. -/
def Image.group (m : Image) (g : Nat) : Option GroupDecl :=
  match payloadOf m.scripts (0x400 + g) with
  | some p =>
    some { convoy := byteAt p.data 0 = 1, e := byteAt p.data 1, phase := byteAt p.data 2, prio := byteAt p.data 3,
           staleN := byteAt p.data 5,
           producers := (upTo (byteAt p.data 4)).map (fun i => leAt p.data (0x10 + 2 * i) 2 % 4096) }
  | none => none

/-- The groups that the image declares, ascending. -/
def Image.groups (m : Image) : List (Nat × GroupDecl) :=
  (upTo 256).filterMap (fun g => (m.group g).map (fun x => (g, x)))

/-- Elements that a node produces, ascending. -/
def GroupDecl.elemsOf (x : GroupDecl) (addr : Nat) : List Nat :=
  (x.producers.zipIdx.filter (fun p => p.1 == addr)).map (·.2)

/-- The presented values of the elements that this node produces in a group. -/
def Dev.producedValues (d : Dev) (g : Nat) (x : GroupDecl) : List Word :=
  (x.elemsOf d.line.params.addr.toNat).map (fun i => mapGet d.cycle.presented (elemKey (0x100 + g) i))

/-! ## Headers (Table 13.2) -/

/-- A MAC frame taken apart; `sr` holds IDX and the addresses. -/
structure Mac where
  ftype : Nat
  bcast : Bool
  ackreq : Bool
  linkKey : Bool
  hop : Nat
  netId : Nat
  lsrc : Nat
  ldst : Nat
  osrc : Nat
  fdst : Nat
  eseq : Nat
  lseq : Nat
  sr : Option (Nat × List Nat)
  body : List Byte
  deriving DecidableEq, Repr

/-- The source-route block. -/
def srBytes (sr : Option (Nat × List Nat)) : List Byte :=
  match sr with
  | none => []
  | some (idx, as) =>
    BitVec.ofNat 8 (as.length + 16 * idx) :: leBytes 11 (as.reverse.foldl (fun n a => n * 4096 + a) 0)

/-- The clear header with its source-route block: the associated data of R383. -/
def Mac.header (m : Mac) : List Byte :=
  leBytes 1 (m.ftype + 16 * b2n m.bcast + 32 * b2n m.ackreq + 64 * b2n m.linkKey + 128 * b2n m.sr.isSome) ++
  leBytes 1 m.hop ++ leBytes 2 m.netId ++ leBytes 3 (m.lsrc + 4096 * m.ldst) ++ leBytes 3 (m.osrc + 4096 * m.fdst) ++
  leBytes 2 m.eseq ++ leBytes 4 m.lseq ++ srBytes m.sr

/-- The nonce of R383. -/
def Mac.nonce (m : Mac) : List Byte :=
  leBytes 2 m.netId ++ leBytes 2 m.lsrc ++ leBytes 4 m.lseq ++ m.header.take 1 ++ [0, 0, 0, 0]

/-- The link key of two nodes (R382). -/
def deriveLinkKey (key : List Byte) (a b : Nat) : List Byte :=
  aes128 key ([0x4C, 0x4B] ++ leBytes 2 (min a b) ++ leBytes 2 (max a b) ++ List.replicate 10 0)

/-- The key of a frame: the link key of LSRC and LDST for a unicast frame with KEY 1, else the network key (R382). -/
def Mac.keyOf (m : Mac) (key : List Byte) : List Byte := if m.linkKey && !m.bcast then deriveLinkKey key m.lsrc m.ldst else key

/-- A frame sealed under AES-128-CCM (R382). -/
def Mac.seal (m : Mac) (key : List Byte) : List Byte :=
  let (c, t) := ccmSeal (m.keyOf key) m.nonce m.header m.body
  m.header ++ c ++ t

/-- The header and the still sealed body of a received frame; none where its form breaks R380. -/
def parseMac (bs : List Byte) : Option (Mac × List Byte) :=
  let b0 := byteAt bs 0
  let b1 := byteAt bs 1
  let src := leAt bs 4 3
  let end2 := leAt bs 7 3
  let hasSr := bitOf b0 7
  let n := byteAt bs 16 % 8
  let idx := bitsOf (byteAt bs 16) 6 4
  let addrs := leAt bs 17 11
  let hlen := if hasSr then 28 else 16
  let ft := b0 % 16
  let sr := if hasSr then some (idx, (upTo n).map (fun i => bitsOf addrs (12 * i + 11) (12 * i))) else none
  if bs.length < hlen + 8 then none
  else if ft < 2 || 11 < ft || 16 ≤ b1 || b1 % 16 = 0 || 8 < b1 % 16 then none
  else if bitOf b0 4 && src / 4096 != 0xFFF then none
  else if hasSr && bitOf (byteAt bs 16) 7 then none
  else
    some ({ ftype := ft, bcast := bitOf b0 4, ackreq := bitOf b0 5, linkKey := bitOf b0 6, hop := b1 % 16,
            netId := leAt bs 2 2, lsrc := src % 4096, ldst := src / 4096, osrc := end2 % 4096, fdst := end2 / 4096,
            eseq := leAt bs 10 2, lseq := leAt bs 12 4, sr, body := [] }, bs.drop hlen)

/-! ## Neighbours, routes, next hop -/

/-- A cache entry for a neighbour just heard. -/
def Neighbour.fresh (addr now : Nat) : Neighbour :=
  { addr, mapTo := none, mapAt := 0, issued := none, issuedPrev := none, lseq := none, step := 0, lowRun := 0,
    heard := now, beacons := [] }

/-- The entry heard least recently among those that may be replaced (R391). -/
def oldestNeighbour (keep : List Nat) (l : List Neighbour) : Option Neighbour :=
  l.foldl (fun o n =>
    if keep.contains n.addr then o
    else
      match o with
      | none => some n
      | some m => if n.heard < m.heard then some n else o) none

/-- The cache with an entry for a neighbour: a new one replaces the one heard least recently when 32 are held; the parent
and the junction are never replaced (R391). -/
def LineState.touch (l : LineState) (addr now : Nat) : LineState :=
  if l.neigh.any (fun n => n.addr == addr) then
    { l with neigh := l.neigh.map (fun n => if n.addr == addr then { n with heard := now } else n) }
  else if l.neigh.length < 32 then { l with neigh := l.neigh ++ [Neighbour.fresh addr now] }
  else
    match oldestNeighbour (0 :: l.parent.toList) l.neigh with
    | some o => { l with neigh := l.neigh.filter (fun n => n.addr != o.addr) ++ [Neighbour.fresh addr now] }
    | none => l

/-- A neighbour's entry changed. -/
def LineState.onNeigh (l : LineState) (addr : Nat) (f : Neighbour → Neighbour) : LineState :=
  { l with neigh := l.neigh.map (fun n => if n.addr == addr then f n else n) }

/-- A neighbour's entry. -/
def LineState.neighbour (l : LineState) (addr : Nat) : Option Neighbour := l.neigh.find? (fun n => n.addr == addr)

/-- The route learnt from an accepted frame (R403). -/
def LineState.learn (l : LineState) (dst via hops now : Nat) : LineState :=
  match l.routes.find? (fun r => r.dst == dst) with
  | some r =>
    if hops < r.hops then
      { l with routes := l.routes.map (fun r => if r.dst == dst then { r with next := via, hops, used := now } else r) }
    else l
  | none =>
    let new : RouteEntry := { dst, next := via, hops, used := now }
    if l.routes.length < 64 then { l with routes := l.routes ++ [new] }
    else
      let oldest := l.routes.foldl (fun m r => if r.used < m.used then r else m) (l.routes.headD new)
      { l with routes := l.routes.filter (fun r => r.dst != oldest.dst) ++ [new] }

/-- The next hop of a unicast frame and the source-route block it leaves with (R402). -/
def LineState.nextHop (l : LineState) (junction : Bool) (fdst : Nat) (sr : Option (Nat × List Nat)) :
    Option (Nat × Option (Nat × List Nat)) :=
  match sr with
  | some (idx, as) =>
    if h : idx < as.length then some (as[idx], some (idx + 1, as)) else some (fdst, sr)
  | none =>
    let plain : Option Nat :=
      if fdst = 0 then l.parent
      else
        match l.routes.find? (fun r => r.dst == fdst) with
        | some r => some r.next
        | none => if l.neigh.any (fun n => n.addr == fdst) then some fdst else l.parent
    match (if junction then l.members.find? (fun m => m.addr == fdst) else none) with
    | some m =>
      match m.path with
      | [] => some (fdst, none)
      | a :: _ => some (a, some (1, m.path))
    | none => plain.map (fun a => (a, none))

/-! ## The transmit queue (R377, R378, R381, R387) -/

/-- A frame of a type, at Table 13.3's place and mode, before it is addressed. -/
def QFrame.base (ftype place : Nat) (mode : LineMode) (body : List Byte) : QFrame :=
  { ftype, place, mode, bcast := false, ackreq := false, hop := 1, ldst := 0, osrc := 0, fdst := 0, eseq := 0,
    sr := none, body, step := 0, slot := none, due := 0, at' := 0, map := map0 }

/-- The mode and tone map that a frame is queued with (R387, R390). -/
def LineState.sendMode (l : LineState) (q : QFrame) : LineMode × ToneMap :=
  if q.step = 0 then (q.mode, map0)
  else if q.step = 1 then
    match l.neighbour q.ldst with
    | some n =>
      match n.mapTo with
      | some m => (.normal, m)
      | none => (.normal, map0)
    | none => (.normal, map0)
  else if q.step = 2 then (.normal, map0)
  else if q.step = 3 then (.rob4, map0)
  else (.rob6, map0)

/-- LEN of a queued frame (R380); a beacon's is its own body and integrity code (R392). -/
def QFrame.len (q : QFrame) : Nat :=
  if q.ftype = 1 then q.body.length + 8 else 16 + (if q.sr.isSome then 12 else 0) + q.body.length + 8

/-- A frame queued, unless it would last more than 1.000 s, which is counted in TOO_LONG (R378). -/
def Dev.enqueue (d : Dev) (q : QFrame) : Dev :=
  let (mode, m) := d.line.sendMode q
  if 1000000000 < frameNs mode m.codes d.classB q.len d.time.msLen then
    d.onLine fun l => { l with tooLong := satInc l.tooLong }
  else d.onLine fun l => { l with queue := l.queue ++ [{ q with mode, map := m, at' := d.time.now }] }

/-- A fresh end-to-end sequence number. -/
def Dev.nextEseq (d : Dev) : Dev × Nat :=
  let e := d.line.eseq + 1
  (d.onLine fun l => { l with eseq := e }, e.toNat)

/-- This node's address. -/
def Dev.addr (d : Dev) : Nat := d.line.params.addr.toNat

/-- A MAP_ASK to a neighbour (R390). -/
def Dev.askMap (d : Dev) (n : Nat) : Dev :=
  let (d1, e) := d.nextEseq
  d1.enqueue { QFrame.base 4 1 .rob4 [] with ldst := n, osrc := d.addr, fdst := n, eseq := e }

/-- A MAP_ASK goes ahead of a unicast frame to a neighbour without a map (R390). The frames of the map exchange itself, and a
PROBE, which needs no map, call for none; nor does a second frame while a MAP_ASK waits (DEDUCED, log 168). -/
def Dev.mapFor (d : Dev) (n : Nat) : Dev :=
  let has := match d.line.neighbour n with
    | some x => x.mapTo.isSome
    | none => false
  if has || d.line.queue.any (fun q => q.ftype == 4 && q.ldst == n) then d else d.askMap n

/-- A broadcast that this node originates. -/
def Dev.sendBroadcast (d : Dev) (ftype place : Nat) (mode : LineMode) (body : List Byte) : Dev :=
  let (d1, e) := d.nextEseq
  d1.enqueue { QFrame.base ftype place mode body with bcast := true, ldst := 0xFFF, osrc := d.addr, fdst := 0xFFF,
                                                      eseq := e }

/-- The ladder step that a frame on the map of a link starts at (R387): its map, else TMID 0, or robust fourfold on a link
whose neighbour has offered TMID 0 (R388). -/
def LineState.startStep (l : LineState) (n : Nat) : Nat :=
  match l.neighbour n with
  | some x => if x.mapTo.isSome then 1 else if x.step = 3 then 3 else 2
  | none => 2

/-- A unicast frame towards its next hop on the acknowledgement ladder; `robust` where Table 13.3 requires robust mode.
Without a next hop it is dropped and counted in NO_ROUTE (R402); without a map for the link a MAP_ASK goes first (R390). -/
def Dev.sendRouted (d : Dev) (q : QFrame) (robust : Bool) : Dev :=
  match d.line.nextHop d.junction q.fdst q.sr with
  | none => d.onLine fun l => { l with noRoute := satInc l.noRoute }
  | some (n, sr) =>
    let start := d.line.startStep n
    let d2 := (d.mapFor n).enqueue { q with ldst := n, sr, ackreq := true, step := if robust then 3 else start }
    d2.onLine fun l => { l with routes := l.routes.map (fun r => if r.dst == q.fdst then { r with used := d.ms } else r) }

/-- A unicast frame that this node originates. -/
def Dev.sendTo (d : Dev) (ftype place fdst : Nat) (body : List Byte) (robust : Bool) : Dev :=
  let (d1, e) := d.nextEseq
  d1.sendRouted { QFrame.base ftype place .normal body with osrc := d.addr, fdst, eseq := e } robust

/-- The JOIN_REQ of a member (R398). -/
def Dev.joinReq (d : Dev) : Dev :=
  let body := leBytes 8 Config.uid.toNat ++ leBytes 1 d.sys.role.toNat ++ leBytes 1 d.line.hop ++
    leBytes 1 (b2n d.line.params.relay) ++ [0]
  (d.sendTo 6 2 0 body true).onLine fun l => { l with joinNext := d.ms + 64 }

/-- The neighbour and the HOP of the beacon that make it the parent: lowest HOP in the last 48 milestones, then highest MARGIN,
then lower address (R399). -/
def LineState.bestParent (l : LineState) (ms : Nat) : Option (Nat × BeaconHeard) :=
  (l.neigh.flatMap (fun n => (n.beacons.filter (fun b => decide (ms < b.ms + 48))).map (fun b => (n.addr, b)))).foldl
    (fun o n =>
      match o with
      | none => some n
      | some m =>
        if n.2.hop < m.2.hop || (n.2.hop == m.2.hop &&
            (decide (m.2.margin < n.2.margin) || (n.2.margin == m.2.margin && decide (n.1 < m.1)))) then some n
        else o) none

/-- Parent and hop chosen afresh; a joined member whose parent changes joins again (R398, R399). -/
def Dev.chooseParent (d : Dev) : Dev :=
  if d.junction then d
  else
    match d.line.bestParent d.ms with
    | none => d.onLine fun l => { l with parent := none, hop := 15 }
    | some (a, b) =>
      let d1 := d.onLine fun l => { l with parent := some a, hop := b.hop + 1 }
      if d.line.joined && d.line.parent != some a then (d1.onLine fun l => { l with joined := false }).joinReq else d1

/-- A tone map from the SNR of the 40 positions in 0.5 dB (R388). -/
def codesFromSnr (snr : List Int) : List Nat :=
  (upTo 40).map (fun c =>
    let x := snr.getD c (-1000)
    if 28 ≤ x then 3 else if 18 ≤ x then 2 else if 12 ≤ x then 1 else 0)

/-- The lowest TMID from 1 that the receiver does not hold for any neighbour (R389). -/
def LineState.freeTmid (l : LineState) : Nat :=
  let held := l.neigh.flatMap (fun n => (n.issued.toList ++ n.issuedPrev.toList).map (·.tmid))
  ((upTo 255).map (· + 1)).find? (fun t => !held.contains t) |>.getD 0

/-- A MAP_OFFER to a neighbour, built from the SNR of its frame (R388). With fewer than 10 carriers it carries TMID 0. -/
def Dev.offerMap (d : Dev) (n : Nat) (snr : List Int) : Dev :=
  let codes := codesFromSnr snr
  let bytes (cs : List Nat) : List Byte := leBytes 10 (cs.reverse.foldl (fun v c => 4 * v + c) 0)
  let (d1, e) := d.nextEseq
  let frame (body : List Byte) : QFrame :=
    { QFrame.base 5 1 .rob4 body with ldst := n, osrc := d.addr, fdst := n, eseq := e }
  if mapOn codes < 10 then d1.enqueue (frame (0 :: bytes (List.replicate 40 0)))
  else
    let t := d.line.freeTmid
    let d2 := d1.onLine fun l =>
      l.onNeigh n (fun x => { x with issuedPrev := x.issued, issued := some { tmid := t, codes }, lowRun := 0 })
    d2.enqueue (frame (BitVec.ofNat 8 t :: bytes codes))

/-- The node sends nothing: no network key, the role declined, the tollgate, an image without LINE_EN, LSEQ at its end,
or the quiet start (R19, R273, R276, R384, R385). -/
def Dev.lineSilent (d : Dev) : Bool :=
  d.line.key.all (· == 0) || d.sys.clash || d.sys.mode == .tollgate || !d.image.lineEn ||
  decide (0xFFFF0000 ≤ d.line.lseq.toNat) ||
  (match d.line.quiet with
   | some q => decide (d.ms < q + 50)
   | none => true)

end Sys2Proof.Machine
end

