-- ==== Sys2Proof/Machine/Bus.lean ====
section
/-! DEFINITION. The MS/TP data link and the bus service (R433 to R442, R540 to R542). The clause 9 master machine is PRESUMED
from the standard that R435 names (log 26). -/

namespace Sys2Proof.Machine

/-- An operation on the bus. -/
def Dev.onBus (d : Dev) (f : BusState → BusState) : Dev := { d with bus := f d.bus }

/-! ## Queues (Table 18.12, R541, R542) -/

/-- Data octets of a slot. -/
def BusSlot.octets (s : BusSlot) : List Byte := Mem.readBytes zeroByte s.data 0 s.len.toNat

/-- The lowest-numbered slot whose FULL is 0. -/
def freeSlot (v : Vector BusSlot 4) : Option Nat := (upTo 4).find? (fun i => !(vgetD v i BusSlot.reset).full)

/-- A received data frame placed in a free slot, or dropped and counted (R541). -/
def BusState.place (b : BusState) (ftype src : Nat) (data : List Byte) : BusState :=
  match freeSlot b.rxq with
  | some i =>
    let slot : BusSlot :=
      { len := BitVec.ofNat 9 data.length, seq := b.rxSeq, full := true, ftype := BitVec.ofNat 8 ftype,
        peer := BitVec.ofNat 8 src, data := Mem.writeBytes zeroByte [] 0 data }
    { b with rxq := vupdN b.rxq i (fun _ => slot), rxSeq := b.rxSeq + 1 }
  | none => { b with drop := satInc b.drop }

/-- Both queues emptied: at every reset and on leaving RUN (R542). -/
def BusState.flush (b : BusState) : BusState :=
  { b with rxq := vmap (fun s => { s with full := false }) b.rxq, txq := vmap (fun s => { s with full := false }) b.txq,
           order := [] }

/-- Whether a send slot may be sent (R542). -/
def BusSlot.sendable (s : BusSlot) : Bool :=
  (s.ftype == 5 || s.ftype == 6) && decide (s.len.toNat ≤ 501) && (decide (s.peer.toNat ≤ 127) || s.peer == 255)

/-- FULL of a send slot set: it takes its place in the order of sending (TX_SLOT_SUBMIT). -/
def BusState.submit (i : Nat) (b : BusState) : BusState :=
  if 4 ≤ i || (vgetD b.txq i BusSlot.reset).full then b
  else { b with txq := vupdN b.txq i (fun s => { s with full := true }), order := b.order ++ [i] }

/-! ## The token (R435, R436) -/

/-- The station after one, up to MAX_MASTER. -/
def BusState.after (b : BusState) (n : BitVec 7) : BitVec 7 :=
  BitVec.ofNat 7 ((n.toNat + 1) % (b.maxMaster.toNat + 1))

/-- A frame put on the bus. -/
def BusState.emit (b : BusState) (ftype dst : Nat) (data : List Byte) : BusState :=
  { b with sent := b.sent ++ [{ ftype, dst, data }] }

/-- Poll For Master to a station (frame type 1). -/
def BusState.pollTo (b : BusState) (ps : BitVec 7) : BusState :=
  { (b.emit 1 ps.toNat []) with poll := ps, retries := 0, run := .pollMaster }

/-- The token passed to the next station (frame type 0). -/
def BusState.passTo (b : BusState) : BusState :=
  { (b.emit 0 b.next.toNat []) with retries := 0, run := .passToken }

/-- What the node does when it has sent what it may: pass the token, or poll for a master every 50 tokens. -/
def BusState.doneWithToken (b : BusState) : BusState :=
  if b.tokens < 49 then
    if b.sole then { b with tokens := b.tokens + 1, run := .useToken }
    else if b.next = b.mac then b.pollTo (b.after b.mac)
    else { b.passTo with tokens := b.tokens + 1 }
  else if b.after b.poll != b.next then b.pollTo (b.after b.poll)
  else if b.sole then { (b.pollTo (b.after b.next)) with next := b.mac, tokens := 1 }
  else { b.passTo with poll := b.mac, tokens := 1 }

/-- Up to `n` frames sent under the token: the service's messages first, then the send slots in order. A slot that may
not be sent is discarded and counted; a frame that expects a reply makes the node wait for it. -/
def BusState.sendSome : Nat → BusState → BusState
  | 0, b => b.doneWithToken
  | n + 1, b =>
    match b.replies with
    | r :: rest => BusState.sendSome n { b with replies := rest, outbox := b.outbox ++ [r] }
    | [] =>
      match b.order with
      | [] => b.doneWithToken
      | i :: rest =>
        let s := vgetD b.txq i BusSlot.reset
        let b1 := { b with order := rest, txq := vupdN b.txq i (fun s => { s with full := false }) }
        if !s.sendable then BusState.sendSome n { b1 with drop := satInc b1.drop }
        else
          let b2 := b1.emit s.ftype.toNat s.peer.toNat s.octets
          if s.ftype = 5 && s.peer != 255 then { b2 with run := .waitReply } else BusState.sendSome n b2

/-- The token used. -/
def BusState.useToken (b : BusState) : BusState := b.sendSome b.maxInfo.toNat

/-- The link takes part: BUS_EN and the bus service running. -/
def BusState.active (b : BusState) : Bool := b.busEn && b.run != .off

/-- The link may send: it has seen a token or its no-token timer has run out (R435). -/
def BusState.maySend (b : BusState) : Bool := b.active && b.run != .listen

/-- A valid frame received, before what its type does; what the last command sent is no longer shown. -/
def BusState.heard (b : BusState) : BusState :=
  { b with framesRx := satInc b.framesRx, sent := [], outbox := [] }

/-- A frame from another master shows that the token passed on: PASS_TOKEN and POLL_FOR_MASTER fall back to IDLE. -/
def BusState.sawOther (b : BusState) : BusState :=
  match b.run with
  | .passToken => { b with run := .idle }
  | .pollMaster => { b with run := .idle }
  | _ => b

/-- TOKEN: a Token frame to a station. -/
def Dev.busToken (dst : Nat) (d : Dev) : Dev :=
  d.onBus fun b =>
    if !b.active then b
    else
      let h := b.heard
      if dst = b.mac.toNat then { h with sole := false }.useToken
      else if h.run = .listen then h
      else { h with run := .idle }

/-- POLL_FOR_MASTER to a station: answered with Reply To Poll For Master (type 2). -/
def Dev.busPoll (src dst : Nat) (d : Dev) : Dev :=
  d.onBus fun b =>
    if !b.active then b
    else
      let h := b.heard.sawOther
      if dst = b.mac.toNat && b.maySend then h.emit 2 src [] else h

/-- REPLY_TO_POLL_FOR_MASTER: the replying station becomes the next one and gets the token. -/
def Dev.busPollReply (src dst : Nat) (d : Dev) : Dev :=
  d.onBus fun b =>
    if !b.active then b
    else
      let h := b.heard
      if h.run = .pollMaster && dst = b.mac.toNat then
        { h with sole := false, next := BitVec.ofNat 7 src, poll := b.mac, tokens := 0 }.passTo
      else h.sawOther

/-- TEST_REQUEST: answered with Test_Response (type 4) by the link itself (R541). -/
def Dev.busTest (src dst : Nat) (data : List Byte) (d : Dev) : Dev :=
  d.onBus fun b =>
    if !b.active then b
    else
      let h := b.heard.sawOther
      if dst = b.mac.toNat && b.maySend then h.emit 4 src data else h

/-- A frame that ends a wait for a reply. -/
def BusState.replied (b : BusState) (dst : Nat) : BusState :=
  if b.run = .waitReply && dst = b.mac.toNat then b.doneWithToken else b.sawOther

/-- TEST_RESPONSE and REPLY_POSTPONED: a reply to this node's frame. -/
def Dev.busReply (dst : Nat) (d : Dev) : Dev :=
  d.onBus fun b => if b.active then b.heard.replied dst else b

/-- BACNET_DATA_EXPECTING_REPLY: queued for the Hob and answered with Reply Postponed, type 7 (R436). -/
def Dev.busDataReply (src dst : Nat) (data : List Byte) (d : Dev) : Dev :=
  d.onBus fun b =>
    if !b.active then b
    else
      let h := b.heard.sawOther
      let h1 := if dst = b.mac.toNat || dst = 255 then h.place 5 src data else h
      if dst = b.mac.toNat && b.maySend then h1.emit 7 src [] else h1

/-- BACNET_DATA_NOT_EXPECTING_REPLY: queued for the Hob or dropped (R541). -/
def Dev.busData (src dst : Nat) (data : List Byte) (d : Dev) : Dev :=
  d.onBus fun b =>
    if !b.active then b
    else
      let h := b.heard.replied dst
      if dst = b.mac.toNat || dst = 255 then h.place 6 src data else h

/-- UNSUPPORTED_FRAME: discarded and counted in DROP (R433). -/
def Dev.busUnsupported (d : Dev) : Dev :=
  d.onBus fun b => if b.active then { b.heard.sawOther with drop := satInc b.drop } else b

/-- CRC_ERR: a header or data CRC error is counted (R436). -/
def Dev.busCrcErr (d : Dev) : Dev :=
  d.onBus fun b => if b.active then { b with crcErr := satInc b.crcErr, sent := [], outbox := [] } else b

/-- NO_TOKEN_TIMEOUT: the token is lost; the node polls for a master to generate one. -/
def Dev.busNoToken (d : Dev) : Dev :=
  d.onBus fun b =>
    if b.active && (b.run == .listen || b.run == .idle) then
      { ({ b with sent := [], outbox := [], tokenLost := satInc b.tokenLost }.pollTo (b.after b.mac)) with
        next := b.mac, tokens := 0 }
    else b

/-- T_USAGE_TIMEOUT: after a token passed, one retry and then a search for a new successor; after a poll, the next
station, the token, or sole mastery; a wait for a reply ends. -/
def Dev.busUsage (d : Dev) : Dev :=
  d.onBus fun b0 =>
    let b := { b0 with sent := [], outbox := [] }
    if !b.active then b0
    else
      match b.run with
      | .passToken =>
        if b.retries < 1 then { (b.emit 0 b.next.toNat []) with retries := b.retries + 1 }
        else { (b.pollTo (b.after b.next)) with next := b.mac, tokens := 0 }
      | .pollMaster =>
        if b.sole then b.useToken
        else if b.next != b.mac then b.passTo
        else if b.after b.poll != b.mac then b.pollTo (b.after b.poll)
        else { b with sole := true }.useToken
      | .waitReply => b.doneWithToken
      | _ => b

/-- TX_SLOT_SUBMIT: the frame waits for the token; a sole master sends it at once. -/
def Dev.busSubmit (i : Nat) (d : Dev) : Dev :=
  d.onBus fun b =>
    let b1 := b.submit i
    if b1.active && b1.run == .useToken && b1.sole then { b1 with sent := [], outbox := [] }.useToken else b1

/-! ## The bus service (R437 to R442) -/

/-- One object entry (Table 14.8). -/
structure BusObject where
  type : Nat
  inst : Nat
  inHatch : Nat
  inWord : Nat
  outHatch : Nat
  outWord : Nat
  units : Nat
  nstates : Nat
  covInc : Word
  name : List Byte
  deriving DecidableEq, Repr

/-- ASCII text without its padding. -/
def unpad (bs : List Byte) : List Byte := (bs.reverse.dropWhile (· == 0)).reverse

/-- The service's payload, SCRIPTS KEY 0x0500. -/
def Image.busPayload (m : Image) : Option (List Byte) := (payloadOf m.scripts 0x500).map (·.data)

/-- The objects of the service. -/
def busObjects (p : List Byte) : List BusObject :=
  (upTo (byteAt p 0x15)).map (fun i =>
    let q := p.drop (32 + 32 * i)
    { type := byteAt q 0, inst := leAt q 1 3, inHatch := byteAt q 4, inWord := byteAt q 5, outHatch := byteAt q 6,
      outWord := byteAt q 7, units := leAt q 8 2, nstates := byteAt q 0xA, covInc := BitVec.ofNat 32 (leAt q 0xC 4),
      name := unpad ((q.drop 0x10).take 16) })

/-- The objects that the running image carries. -/
def Dev.busObjs (d : Dev) : List BusObject :=
  match d.image.busPayload with
  | some p => busObjects p
  | none => []

/-- An object by type and instance. -/
def Dev.busObj (d : Dev) (type inst : Nat) : Option BusObject :=
  d.busObjs.find? (fun o => o.type == type && o.inst == inst)

/-- The word that the service latched for an object (R439). -/
def Dev.busWord (d : Dev) (o : BusObject) : Word :=
  match mapFind d.bus.copies o.inHatch with
  | some bs => BitVec.ofNat 32 (leAt bs (4 * o.inWord) 4)
  | none => 0

/-- FAULT of an object: its writer pot is not in RUN, or a Multi-state word lies outside its range. -/
def Dev.busFault (d : Dev) (o : BusObject) : Bool :=
  let w := (d.busWord o).toNat
  (match d.image.hatch o.inHatch with
   | some h =>
     match d.image.route h.writer with
     | some r => (vgetD d.cycle.pots r.pot PotState.reset).run != .run
     | none => true
   | none => true) ||
  (o.type == 19 && (w == 0 || decide (o.nstates < w)))

/-- Present_Value (R439). -/
def Dev.presentValue (d : Dev) (o : BusObject) : BacValue :=
  let w := d.busWord o
  if o.type = 2 then .real w
  else if o.type = 5 then .enumerated (if w = 0 then 0 else 1)
  else if w = 0 || decide (o.nstates < w.toNat) then .unsigned 1
  else .unsigned w.toNat

/-- Status_Flags: IN_ALARM, FAULT, OVERRIDDEN, OUT_OF_SERVICE. -/
def Dev.statusFlags (d : Dev) (o : BusObject) : List Bool := [false, d.busFault o, false, false]

/-- Properties of an object type (Table 14.9); type 8 is the Device object. -/
def propsOf (type : Nat) : List BacProp :=
  if type = 8 then
    [.objectIdentifier, .objectName, .objectType, .systemStatus, .vendorName, .vendorIdentifier, .modelName,
     .firmwareRevision, .applicationSoftwareVersion, .protocolVersion, .protocolRevision, .protocolServicesSupported,
     .protocolObjectTypesSupported, .objectList, .maxApduLengthAccepted, .segmentationSupported, .apduTimeout,
     .numberOfApduRetries, .deviceAddressBinding, .databaseRevision, .maxMaster, .maxInfoFrames, .propertyList]
  else if type = 2 then
    [.objectIdentifier, .objectName, .objectType, .presentValue, .statusFlags, .eventState, .outOfService, .units,
     .covIncrement, .propertyList]
  else if type = 5 then
    [.objectIdentifier, .objectName, .objectType, .presentValue, .statusFlags, .eventState, .outOfService, .propertyList]
  else
    [.objectIdentifier, .objectName, .objectType, .presentValue, .numberOfStates, .statusFlags, .eventState,
     .outOfService, .propertyList]

/-- Decimal digits of a number, in ASCII. -/
def decimalGo : Nat → Nat → List Byte
  | 0, _ => []
  | f + 1, n => (if n < 10 then [] else decimalGo f (n / 10)) ++ [BitVec.ofNat 8 (48 + n % 10)]

/-- ASCII text of a string of the manual. -/
def ascii (s : String) : List Byte := s.toList.map (fun c => BitVec.ofNat 8 c.toNat)

/-- A property of the Device object. -/
def Dev.deviceProp (d : Dev) (p : List Byte) (x : BacProp) : BacValue :=
  match x with
  | .objectIdentifier => .objectId 8 d.bus.devInst.toNat
  | .objectName => .text (unpad (p.take 16))
  | .objectType => .enumerated 8
  | .systemStatus => .enumerated 0
  | .vendorName => .text (ascii "Kwemor")
  | .vendorIdentifier => .unsigned (leAt p 0x10 2)
  | .modelName => .text (ascii "HZB-4816")
  | .firmwareRevision => .text Config.firmwareRevision
  | .applicationSoftwareVersion => .text (decimalGo 10 d.image.generation)
  | .protocolVersion => .unsigned 1
  | .protocolRevision => .unsigned 14
  | .protocolServicesSupported =>
    .services [.readProperty, .readPropertyMultiple, .writeProperty, .whoIs, .iAm, .whoHas, .iHave, .subscribeCov]
  | .protocolObjectTypesSupported => .types [8, 2, 5, 19]
  | .objectList => .objects ((8, d.bus.devInst.toNat) :: (busObjects p).map (fun o => (o.type, o.inst)))
  | .maxApduLengthAccepted => .unsigned 480
  | .segmentationSupported => .enumerated 3
  | .apduTimeout => .unsigned (leAt p 0x12 2)
  | .numberOfApduRetries => .unsigned (byteAt p 0x14)
  | .deviceAddressBinding => .empty
  | .databaseRevision => .unsigned Config.databaseRevision
  | .maxMaster => .unsigned d.bus.maxMaster.toNat
  | .maxInfoFrames => .unsigned d.bus.maxInfo.toNat
  | _ => .properties (propsOf 8)

/-- A property of a value object. -/
def Dev.objectProp (d : Dev) (o : BusObject) (x : BacProp) : BacValue :=
  match x with
  | .objectIdentifier => .objectId o.type o.inst
  | .objectName => .text o.name
  | .objectType => .enumerated o.type
  | .presentValue => d.presentValue o
  | .statusFlags => .bits (d.statusFlags o)
  | .eventState => .enumerated 0
  | .outOfService => .boolean false
  | .units => .enumerated o.units
  | .covIncrement => .real o.covInc
  | .numberOfStates => .unsigned o.nstates
  | _ => .properties (propsOf o.type)

/-- One property read (R438). -/
def Dev.readProp (d : Dev) (r : BacRef) : BacResult :=
  match d.image.busPayload with
  | none => .error .unknownObject
  | some p =>
    if r.type = 8 && r.inst = d.bus.devInst.toNat then
      if (propsOf 8).contains r.prop then .value (d.deviceProp p r.prop) else .error .unknownProperty
    else
      match d.busObj r.type r.inst with
      | some o => if (propsOf o.type).contains r.prop then .value (d.objectProp o r.prop) else .error .unknownProperty
      | none => .error .unknownObject

/-- A message queued for a station; 255 is broadcast. -/
def Dev.busSay (d : Dev) (mac : Nat) (m : BacMsg) : Dev :=
  if d.bus.active then
    d.onBus fun b =>
      let b1 := { b with replies := b.replies ++ [(mac, m)] }
      if b1.run == .useToken && b1.sole then { b1 with sent := [], outbox := [] }.useToken else b1
  else d

/-- READ_PROPERTY. -/
def Dev.readProperty (mac invoke : Nat) (r : BacRef) (d : Dev) : Dev :=
  match d.readProp r with
  | .value v => d.busSay mac (.readAck invoke r v)
  | .error e => d.busSay mac (.error invoke .readProperty e)

/-- The properties that a specification names; every carried property is taken as required (log 27). -/
def Dev.multiRefs (d : Dev) (s : MultiSpec) : List BacRef :=
  let every (t i : Nat) : List BacRef :=
    if (t = 8 && i = d.bus.devInst.toNat) || (d.busObj t i).isSome then
      (propsOf t).map (fun p => { type := t, inst := i, prop := p })
    else [{ type := t, inst := i, prop := .objectIdentifier }]
  match s with
  | .one r => [r]
  | .all t i => every t i
  | .required t i => every t i

/-- READ_PROPERTY_MULTIPLE, with ALL and REQUIRED. -/
def Dev.readMulti (mac invoke : Nat) (specs : List MultiSpec) (d : Dev) : Dev :=
  d.busSay mac (.readMultiAck invoke ((specs.flatMap d.multiRefs).map (fun r => (r, d.readProp r))))

/-- The word that a written value stages, or the error it is refused with (R440). -/
def writeWord (o : BusObject) (v : BacValue) : Word ⊕ BacError :=
  if o.type = 2 then
    match v with
    | .real w => if bitsOf w.toNat 30 23 = 255 then .inr .valueOutOfRange else .inl w
    | _ => .inr .invalidDataType
  else if o.type = 5 then
    match v with
    | .enumerated n => if n = 0 then .inl 0 else if n = 1 then .inl 1 else .inr .valueOutOfRange
    | _ => .inr .invalidDataType
  else
    match v with
    | .unsigned n => if n < 1 || o.nstates < n then .inr .valueOutOfRange else .inl (BitVec.ofNat 32 n)
    | _ => .inr .invalidDataType

/-- WRITE_PROPERTY (R440): staged for the commit that publishes OUT_HATCH, or refused. -/
def Dev.writeProperty (mac invoke : Nat) (r : BacRef) (v : BacValue) (d : Dev) : Dev :=
  let refuse (e : BacError) := d.busSay mac (.error invoke .writeProperty e)
  match d.busObj r.type r.inst with
  | none => if r.type = 8 && r.inst = d.bus.devInst.toNat then refuse .writeAccessDenied else refuse .unknownObject
  | some o =>
    if r.prop != .presentValue || o.outHatch = 0xFF then refuse .writeAccessDenied
    else
      match writeWord o v with
      | .inr e => refuse e
      | .inl w =>
        if d.bus.active then
          d.onBus fun b =>
            { b with writes := b.writes ++ [{ mac, invoke, hatch := o.outHatch, word := o.outWord, value := w }] }
        else d

/-- WHO_IS: answered with I-Am where the limits hold this device. -/
def Dev.whoIs (limits : Option (Nat × Nat)) (d : Dev) : Dev :=
  let hit := match limits with
    | none => true
    | some (lo, hi) => decide (lo ≤ d.bus.devInst.toNat) && decide (d.bus.devInst.toNat ≤ hi)
  if hit then d.busSay 255 (.iAm d.bus.devInst.toNat) else d

/-- WHO_HAS: answered with I-Have for a carried object. -/
def Dev.whoHas (key : WhoHasKey) (d : Dev) : Dev :=
  match d.image.busPayload with
  | none => d
  | some p =>
    let all := (8, d.bus.devInst.toNat, unpad (p.take 16)) :: (busObjects p).map (fun o => (o.type, o.inst, o.name))
    match all.find? (fun x =>
      match key with
      | .byId t i => x.1 == t && x.2.1 == i
      | .byName n => x.2.2 == n) with
    | some (t, i, n) => d.busSay 255 (.iHave t i n)
    | none => d

/-- SUBSCRIBE_COV (R442); a lifetime of 0 is indefinite. -/
def Dev.subscribeCov (mac invoke process type inst lifetime : Nat) (confirmed : Bool) (d : Dev) : Dev :=
  let refuse (e : BacError) := d.busSay mac (.error invoke .subscribeCov e)
  match d.busObj type inst with
  | none => refuse .unknownObject
  | some o =>
    let same (s : CovSub) : Bool := s.mac == mac && s.process == process && s.type == type && s.inst == inst
    let rest := d.bus.subs.filter (fun s => !same s)
    if confirmed then refuse .optionalFunctionalityNotSupported
    else if 28800 < lifetime then refuse .valueOutOfRange
    else if 16 ≤ rest.length then refuse .noSpaceToAddListElement
    else if !d.bus.active then d
    else
      let sub : CovSub :=
        { mac, process, type, inst, ends := if lifetime = 0 then none else some (d.si + lifetime * 1000000),
          value := d.busWord o, fault := d.busFault o }
      (d.onBus fun b => { b with subs := rest ++ [sub] }).busSay mac (.simpleAck invoke .subscribeCov)

/-- COV_LIFETIME_EXPIRY: subscriptions whose lifetime has run out are removed. -/
def Dev.covExpiry (d : Dev) : Dev :=
  d.onBus fun b => { b with subs := b.subs.filter (fun s =>
    match s.ends with
    | some e => decide (d.si < e)
    | none => true) }

/-- The state that a word of a Multi-state Value gives (R439). -/
def BusObject.stateOf (o : BusObject) (w : Word) : Nat := if w = 0 || decide (o.nstates < w.toNat) then 1 else w.toNat

/-- Whether a changed word calls for a notification (R442). -/
def covMoved (o : BusObject) (old new : Word) : Bool :=
  if o.type = 2 then old != new && condF .ge (fAbs (fSub new old)) o.covInc
  else if o.type = 5 then (old == 0) != (new == 0)
  else o.stateOf old != o.stateOf new

/-- At a release of the service: the hatches are latched and changed values notified (R439, R442). -/
def Dev.busRelease (d : Dev) : Dev :=
  if !d.bus.active then d
  else
    let hs := d.busObjs.map (·.inHatch) |>.eraseDups
    let d1 := d.onBus fun b =>
      { b with copies := hs.map (fun h => (h, (vgetD d.cycle.hatches h HatchState.reset).bytes)) }
    d1.bus.subs.foldl (fun d s =>
      match d.busObj s.type s.inst with
      | none => d
      | some o =>
        let w := d.busWord o
        let f := d.busFault o
        if covMoved o s.value w || f != s.fault then
          let left := match s.ends with
            | some e => (e - d.si) / 1000000
            | none => 0
          (d.onBus fun b => { b with subs := b.subs.map (fun x =>
            if x == s then { s with value := w, fault := f } else x) }).busSay s.mac
            (.cov s.process s.type s.inst left (d.presentValue o) (d.statusFlags o))
        else d) d1

/-- The service starts in RUN: the link listens, subscriptions are lost, I-Am is sent once (R435, R441, R442). -/
def Dev.busStart (d : Dev) : Dev :=
  if d.bus.busEn && d.image.busPayload.isSome then
    (d.onBus fun b =>
      { b with run := if b.run = .off then .listen else b.run, subs := [], writes := [], replies := [], sole := false,
               next := b.mac, poll := b.mac, tokens := 49 }).busSay 255 (.iAm d.bus.devInst.toNat)
  else d

/-- The device leaves RUN: nothing more is sent or answered, the queues are emptied (R436, R542). -/
def Dev.busStop (d : Dev) : Dev :=
  d.onBus fun b => { b.flush with run := .off, de := false, replies := [], writes := [], subs := [] }

end Sys2Proof.Machine
end

