-- ==== Sys2Proof/Machine/Double.lean ====
section
/-! DEFINITION. IEEE 754 binary64 to the extent of R525: a value is `m × 2^e` with at most 53 bits, every operation rounded
once to nearest even. -/

namespace Sys2Proof.Machine

/-- A binary64 value taken apart: `m × 2^e`. -/
structure Dbl where
  m : Int
  e : Int
  deriving DecidableEq, Repr

/-- Zero. -/
def Dbl.zero : Dbl := { m := 0, e := 0 }

/-- The binary64 nearest to `n/d`. -/
def dblRat (n : Int) (d : Nat) : Dbl :=
  if n = 0 then .zero
  else
    let a := n.natAbs
    let q := max (ratLog2 a d - 52) (-1074)
    let m := if 0 ≤ q then natDivRne a (d * 2 ^ q.toNat) else natDivRne (a * 2 ^ (-q).toNat) d
    { m := signedMag (decide (n < 0)) m, e := q }

/-- The binary64 nearest to `i × 2^e`. -/
def dblScaled (i : Int) (e : Int) : Dbl :=
  if 0 ≤ e then dblRat (i * ((2 ^ e.toNat : Nat) : Int)) 1 else dblRat i (2 ^ (-e).toNat)

/-- Sum. -/
def dblAdd (a b : Dbl) : Dbl :=
  let g := min a.e b.e
  dblScaled (a.m * ((2 ^ (a.e - g).toNat : Nat) : Int) + b.m * ((2 ^ (b.e - g).toNat : Nat) : Int)) g

/-- Difference. -/
def dblSub (a b : Dbl) : Dbl := dblAdd a { b with m := -b.m }

/-- Product. -/
def dblMul (a b : Dbl) : Dbl := dblScaled (a.m * b.m) (a.e + b.e)

/-- Quotient by a value other than 0; 0 by zero. -/
def dblDiv (a b : Dbl) : Dbl :=
  if b.m = 0 then .zero
  else
    let n := if b.m < 0 then -a.m else a.m
    let g := a.e - b.e
    if 0 ≤ g then dblRat (n * ((2 ^ g.toNat : Nat) : Int)) b.m.natAbs else dblRat n (b.m.natAbs * 2 ^ (-g).toNat)

/-- The whole number at or below a value. -/
def dblFloor (a : Dbl) : Int :=
  if 0 ≤ a.e then a.m * ((2 ^ a.e.toNat : Nat) : Int) else a.m.fdiv ((2 ^ (-a.e).toNat : Nat) : Int)

/-- Taylor series of exp in units of 2^−120. -/
def expSeries (r : Nat) : Nat → Nat → Nat → Nat
  | 0, _, _ => 0
  | k + 1, t, i => t + expSeries r k (t * r / 2 ^ 120 / (i + 1)) (i + 1)

/-- Exponential, rounded once from a fixed-point value of 120 fraction bits. -/
def dblExp (a : Dbl) : Dbl :=
  let x : Int := if 0 ≤ a.e + 120 then a.m * ((2 ^ (a.e + 120).toNat : Nat) : Int)
    else a.m.fdiv ((2 ^ (-(a.e + 120)).toNat : Nat) : Int)
  let ln2 : Int := atanh2 1 3
  let k := x.fdiv ln2
  dblScaled (expSeries (x - k * ln2).toNat 45 (2 ^ 120) 0) (k - 120)

/-- The 64 bits of a value that is not negative. -/
def dblBits (a : Dbl) : DWord :=
  let q := dblScaled a.m a.e
  if q.m = 0 then 0 else BitVec.ofNat 64 ((q.e + 1074).toNat * 2 ^ 52 + q.m.natAbs)

/-- The value of 64 bits whose sign bit is clear. -/
def dblOf (w : DWord) : Dbl :=
  let x : Nat := w.toNat / 2 ^ 52 % 2048
  let f : Nat := w.toNat % 2 ^ 52
  if x = 0 then { m := f, e := -1074 } else { m := ((f + 2 ^ 52 : Nat) : Int), e := (x : Int) - 1075 }

end Sys2Proof.Machine
end

