-- ==== Sys2Proof/Machine/Elements.lean ====
section
/-! DEFINITION. The elements of every channel (Table 4.4 and the element tables of 11, 13, 15, 16 and 17), when they are
offline, and the forces that apply to them (R76, R149 to R151). -/

namespace Sys2Proof.Machine

/-- Whether an element exists and is an output: `some true` an output, `some false` an input, none for an element that
its channel does not have. `addr` is this node's network address, on which the kinds of a remote group depend. -/
def Image.elem (m : Image) (addr ch el : Nat) : Option Bool :=
  if ch ≤ 0x007 then (if el = 0 then some false else none)
  else if 0x020 ≤ ch && ch ≤ 0x023 then (if el ≤ 2 then some false else none)
  else if ch = 0x024 then (if el ≤ 3 then some false else none)
  else if 0x025 ≤ ch && ch ≤ 0x027 then (if el ≤ 2 then some false else none)
  else if 0x028 ≤ ch && ch ≤ 0x02F then (if el ≤ 3 then some false else none)
  else if 0x040 ≤ ch && ch ≤ 0x045 then (if el ≤ 3 then some true else if el ≤ 7 then some false else none)
  else if 0x048 ≤ ch && ch ≤ 0x04F then (if el = 0 then some true else none)
  else if 0x050 ≤ ch && ch ≤ 0x057 then (if el = 0 then some true else if el ≤ 2 then some false else none)
  else if ch = 0x058 || ch = 0x059 then (if el ≤ 2 then some true else if el ≤ 8 then some false else none)
  else if ch = 0x060 then (if el ≤ 3 then some true else if el ≤ 6 then some false else none)
  else if 0x100 ≤ ch && ch ≤ 0x1FF then
    match m.group (ch - 0x100) with
    | some x => x.producers[el]?.map (fun p => p == addr)
    | none => none
  else none

/-- Whether a channel number is assigned (Table 4.4). -/
def channelKnown (ch : Nat) : Bool :=
  ch ≤ 0x007 || (0x010 ≤ ch && ch ≤ 0x02F) || (0x040 ≤ ch && ch ≤ 0x045) || (0x048 ≤ ch && ch ≤ 0x059) ||
    ch == 0x060 || (0x100 ≤ ch && ch ≤ 0x1FF)

/-- Whether a channel is a capture stream. -/
def isCapture (ch : Nat) : Bool := ch ≤ 0x007 || (0x010 ≤ ch && ch ≤ 0x01F)

/-- The domains that a channel lies in. -/
def channelDomains (ch : Nat) : List Nat :=
  if ch ≤ 0x007 then [1]
  else if 0x010 ≤ ch && ch ≤ 0x01F then [8 + (ch - 0x010) / 4]
  else if 0x020 ≤ ch && ch ≤ 0x027 then [11]
  else if 0x028 ≤ ch && ch ≤ 0x02F then [1]
  else if 0x040 ≤ ch && ch ≤ 0x057 then [14]
  else if ch = 0x058 || ch = 0x059 then [13]
  else if ch = 0x060 then [15]
  else [10, 12]

/-- Whether the inputs of a channel are offline: a domain off or not usable (R76), the converter that reads it failed
(R302, R405), or, for a Whisk unit, its bound converter not usable (R471). -/
def Dev.offline (d : Dev) (ch : Nat) : Bool :=
  !((channelDomains ch).all d.pd) ||
    (0x020 ≤ ch && ch ≤ 0x027 && d.convFailed 3) ||
    (0x100 ≤ ch && !d.rxReady) ||
    ((ch == 0x058 || ch == 0x059) && (!d.convUsable (ch - 0x058) || d.convFailed (ch - 0x058)))

/-- The node's network address as a number. -/
def Dev.netAddr (d : Dev) : Nat := d.line.params.addr.toNat

/-! ## Forces -/

/-- Whether an enabled entry names an element that exists, of the kind that it states (R149, R150). -/
def Dev.forceActive (d : Dev) (f : ForceEntry) : Bool :=
  f.en && d.image.elem d.netAddr f.channel.toNat f.elem.toNat == some f.output

/-- The active entries, lowest index first. -/
def Dev.forces (d : Dev) : List ForceEntry := d.cycle.force.toList.filter d.forceActive

/-- The value of the force that applies to an element: the active entry of lowest index (R151). -/
def Dev.forceOf (d : Dev) (output : Bool) (ch el : Nat) : Option Word :=
  (d.forces.find? (fun f => f.output == output && f.channel.toNat == ch && f.elem.toNat == el)).map (·.value)

/-- The value of an input element as a latch takes it, and its status byte (R76, R127, R149). -/
def Dev.inputNow (d : Dev) (k : Nat) : Word × Nat :=
  let off := d.offline (k / 64)
  let st := b2n off + 2 * b2n (d.cycle.stale.contains k)
  match d.forceOf false (k / 64) (k % 64) with
  | some v => (if off then 0 else v, st + 4)
  | none => (if off then 0 else mapGet d.cycle.inputs k, st)

/-- The value presented to an output element: the force that applies, else the output image (R138); an element that no
pot owns holds the off level 0 (R141). -/
def Dev.outputNow (d : Dev) (k : Nat) : Word :=
  match d.forceOf true (k / 64) (k % 64) with
  | some v => v
  | none => mapGet d.cycle.outImage k

/-- An input element given its present value by its block. -/
def Dev.setInput (d : Dev) (ch el : Nat) (v : Word) : Dev :=
  { d with cycle := { d.cycle with inputs := mapPut d.cycle.inputs (elemKey ch el) v } }

/-- Several elements of one channel, from element `el` upward. -/
def Dev.setInputs (d : Dev) (ch el : Nat) (vs : List Word) : Dev :=
  vs.zipIdx.foldl (fun d v => d.setInput ch (el + v.2) v.1) d

/-- A presented value of an output element as the blocks see it. -/
def Dev.presented (d : Dev) (ch el : Nat) : Word := mapGet d.cycle.presented (elemKey ch el)

/-- A capture entry, recorded for every task that names the stream; a latch takes those of its own interval (R131 to R133). -/
def Dev.capture (d : Dev) (stream stamp : Nat) (rise : Bool) : Dev :=
  let add := fun (t : Nat) (s : TaskState) =>
    if (d.image.taskNames t).streams.contains stream then
      let l := (mapFind s.caps stream).getD []
      { s with caps := mapPut s.caps stream (l ++ [{ si := stamp, rise := rise }]) }
    else s
  { d with cycle := { d.cycle with tasks := vmapi add d.cycle.tasks } }

end Sys2Proof.Machine
end

