-- ==== Sys2Proof/Machine/Mando.lean ====
section
/-! DEFINITION. The Mandolines: the sample grid, converter configuration, slices, crossings, sample groups and slice
scripts (10). Instants of the grid are in half ns of the time base. What a failed converter or a crossing does to a Whisk
unit or to the Line stands in Convert.lean. -/

namespace Sys2Proof.Machine

/-- An operation of the Mandolines on the whole device. -/
def Dev.onMando (d : Dev) (f : MandoState → MandoState) : Dev := { d with mando := f d.mando }

/-- Converter `c`. -/
def Dev.conv (d : Dev) (c : Nat) : Converter := vgetD d.mando.conv c Converter.reset

/-- Slot `n`, 4c + s. -/
def Dev.slot (d : Dev) (n : Nat) : Slot := vgetD d.mando.slots n Slot.reset

/-- One slot changed. -/
def Dev.onSlot (d : Dev) (n : Nat) (f : Slot → Slot) : Dev :=
  d.onMando fun m => { m with slots := vupdN m.slots n f }

/-- One converter changed. -/
def Dev.onConv (d : Dev) (c : Nat) (f : Converter → Converter) : Dev :=
  d.onMando fun m => { m with conv := vupdN m.conv c f }

/-! ## Width, grid and tick map (R285 to R287) -/

/-- The number of active slices. -/
def Converter.w (c : Converter) : Nat := 2 ^ c.width.toNat

/-- The tick period in half ns of the running milestone. -/
def Converter.tick (c : Converter) : Nat := max 1 c.grid

/-- The tick period of the configuration (Table 10.1), from the next milestone boundary on. -/
def Converter.newGrid (c : Converter) : Converter := { c with grid := if c.lp then 8000 else 1000 / c.w }

/-- Slice `k`. -/
def Converter.slice (c : Converter) (k : Nat) : Slice := vgetD c.slices k Slice.gone

/-- The slot that owns tick `j`. -/
def Converter.owner (c : Converter) (j : Nat) : Nat := (c.map.toNat >>> (2 * (j % 16))) % 4

/-- The ticks that a converter has in a milestone. -/
def Dev.ticksIn (d : Dev) (c ms : Nat) : Nat := 2 * (d.milestone ms).2 / (d.conv c).tick

/-- A tick brought forward over the milestones that have begun, each as long as it is: the lengths of later ones, and so their
ticks, are not known yet. -/
def Dev.tickPast (d : Dev) (c : Nat) : Nat → Tick → Tick
  | 0, t => t
  | k + 1, t =>
    let n := d.ticksIn c t.ms
    if t.j < n then t else if d.ms < t.ms then t else Dev.tickPast d c k { ms := t.ms + 1, j := t.j - n }

/-- The tick that a count of existing ticks leads to (R309), as far as the milestones have begun. -/
def Dev.tickNorm (d : Dev) (c : Nat) (t : Tick) : Tick := d.tickPast c 65 t

/-- The instant of a tick. -/
def Dev.tickAt (d : Dev) (c : Nat) (t : Tick) : Nat := 2 * (d.milestone t.ms).1 + t.j * (d.conv c).tick

/-- The first tick of milestone `ms` or of the next at or after an instant. An instant in the partial period that ends a
milestone leads to tick 0 of the next, since no tick lies between (R286). -/
def Dev.tickIn (d : Dev) (c ms at' : Nat) : Tick :=
  let p := (d.conv c).tick
  let m := d.milestone ms
  let j := (at' - 2 * m.1 + p - 1) / p
  if j < d.ticksIn c ms then { ms := ms, j := j } else { ms := ms + 1, j := (at' - 2 * (m.1 + m.2) + p - 1) / p }

/-- The first tick at or after an instant of the present milestone or of one before. -/
def Dev.tickFrom (d : Dev) (c : Nat) (at' : Nat) : Tick := d.tickIn c (d.msOf (at' / 2) 63 d.ms) at'

/-- Whether the milestone of a tick has begun, so that the tick is known to exist. -/
def Dev.begun (d : Dev) (t : Tick) : Bool := t.ms ≤ d.ms

/-- The first tick that a slot owns at or after a tick, among the milestones that have begun; a bound converter's slots own none
(R317). -/
def Dev.ownTick (d : Dev) (c s : Nat) : Nat → Tick → Option Tick
  | 0, _ => none
  | k + 1, t =>
    let u := d.tickNorm c t
    if !d.begun u || (d.conv c).bind ≠ 0 then none
    else if (d.conv c).owner u.j = s then some u else Dev.ownTick d c s k { u with j := u.j + 1 }

/-- The next `n` ticks that a slot owns, as far as the milestones have begun. -/
def Dev.ownTicks (d : Dev) (c s : Nat) : Nat → Tick → List Tick
  | 0, _ => []
  | n + 1, t =>
    match d.ownTick c s 32 t with
    | some u => u :: Dev.ownTicks d c s n { u with j := u.j + 1 }
    | none => []

/-- The waymark, counted through all milestones, that holds an instant: the last one of the milestone that starts at or before
it. -/
def Dev.waymarkOf (d : Dev) (ms at' : Nat) : Nat :=
  let m := d.milestone ms
  256 * ms + min 255 ((256 * ((at' - 2 * m.1) / 2 + 1) - 1) / max 1 m.2)

/-- The present waymark boundary, counted through all milestones. -/
def Dev.wmAbs (d : Dev) : Nat := 256 * d.ms + d.time.wm

/-- The script instant of the present boundary: 2.0 µs after it (R310). -/
def Dev.scriptInstant (d : Dev) : Nat := 2 * d.time.now + 4000

/-! ## Binding and configuration (R98, R288 to R290, R317) -/

/-- What binds a converter (Table 10.3 BIND): the Whisk unit whose channel a pot owns, or the Line. -/
def Image.bind (m : Image) (c : Nat) : BitVec 2 :=
  if (c = 0 || c = 1) && m.owner (0x058 + c) < 16 then 1
  else if c = 2 && m.lineEn then 2
  else 0

/-- The owner of a crossing (R301); none for a channel without an owner. -/
def Image.cxOwner (m : Image) (i : Nat) : Option Nat :=
  let c := i / 4
  let o := if m.bind c = 1 then m.owner (0x058 + c) else if m.bind c = 2 then 0 else m.owner (0x010 + i)
  if o < 16 then some o else none

/-- The configuration of a converter from its SCRIPTS entry, or the defaults of Table 10.2; the MC that the Line binds runs at
width 4 (R342), an MA or MB that a unit binds at width 8 (R447). -/
def Converter.load (c : Converter) (m : Image) (i : Nat) : Converter :=
  match payloadOf m.scripts (0x100 + i) with
  | some p =>
    { c with width := BitVec.ofNat 2 (byteAt p.data 0), lp := byteAt p.data 1 = 1, map := BitVec.ofNat 32 (leAt p.data 4 4),
             interval := BitVec.ofNat 14 (leAt p.data 8 2), bind := m.bind i }
  | none => { c with width := if m.bind i = 2 then 2 else 3, lp := false, map := 0xE4E4E4E4, interval := 100, bind := m.bind i }

/-- The working slices, ascending. -/
def Converter.working (c : Converter) : List Nat :=
  (upTo 9).filter (fun k => (c.slice k).duty ≠ .retired)

/-- Duties as they are when a converter becomes usable (R297): positions to working slices in ascending number, the
next working slice the spare. -/
def Converter.assign (c : Converter) : Converter :=
  let wk := c.working
  { c with next := 0, idleTurn := 0, phase := 0, freed := none, idleCal := none, exch := [], stalls := [],
           slices := vmapi (fun k (s : Slice) =>
             match wk.findIdx? (· == k) with
             | none => s
             | some i =>
               if i < c.w then { s with duty := .active, pos := i }
               else if i = c.w then { s with duty := .spare, pos := 0 }
               else { s with duty := .idle, pos := 0 }) c.slices }

/-- The converters as an acceptance leaves them: configuration loaded, FAILED judged afresh (R302). -/
def Dev.loadConverters (d : Dev) : Dev :=
  d.onMando fun m =>
    { m with conv := vmapi (fun i (c : Converter) =>
        let c1 := c.load d.image i
        ({ c1 with failed := c1.working.length < c1.w } : Converter).assign) m.conv }

/-- The spare slice. -/
def Converter.spare (c : Converter) : Option Nat := (upTo 9).find? (fun k => (c.slice k).duty == .spare)

/-- The slice at an active position. -/
def Converter.atPos (c : Converter) (p : Nat) : Option Nat :=
  (upTo 9).find? (fun k => (c.slice k).duty == .active && (c.slice k).pos == p)

/-- The idle slices, ascending, without one that is being calibrated. -/
def Converter.idles (c : Converter) : List Nat :=
  (upTo 9).filter (fun k => (c.slice k).duty == .idle && c.freed != some k && c.idleCal != some k)

/-- One slice changed. -/
def Converter.onSlice (c : Converter) (k : Nat) (f : Slice → Slice) : Converter := { c with slices := vupdN c.slices k f }

/-- Expiries that pass while a converter has no spare bring no rotation (R292). -/
def Converter.skipExpiry (now : Nat) (c : Converter) : Converter :=
  let iv := max 1 (c.interval.toNat * 1000000)
  if c.spare.isNone && c.freed.isNone && c.idleCal.isNone && c.expiry ≤ now then
    { c with expiry := c.expiry + ((now - c.expiry) / iv + 1) * iv }
  else c

/-- A slot's place in the grid carried over a milestone that has ended. -/
def Dev.renormSlot (d : Dev) (n : Nat) (s : Slot) : Slot :=
  { s with starting := s.starting.map (d.tickNorm (n / 4)),
           run := s.run.map (fun r => { r with cursor := d.tickNorm (n / 4) r.cursor }) }

/-- What a milestone boundary carries over of the grids of the milestone that ended: cursors that lie past its last tick, and the
active position of the next tick, since positions continue in turn across the boundary. -/
def Dev.carryGrids (d : Dev) : Dev :=
  d.onMando fun m =>
    { m with slots := vmapi (fun n s => d.renormSlot n s) m.slots,
             conv := vmapi (fun c (x : Converter) => { x with phase := (x.phase + d.ticksIn c (d.ms - 1)) % x.w }) m.conv }

/-- A milestone boundary starts every grid anew (R286). -/
def Dev.newGrids (d : Dev) : Dev :=
  d.onMando fun m => { m with conv := vmap (fun c => (Converter.skipExpiry d.time.now c).newGrid) m.conv }

/-- A slice retired (R294): its state, the record, the fault log; a converter left with fewer working slices than its
width becomes failed (R302). -/
def Dev.retireSlice (d : Dev) (c k cause : Nat) : Dev :=
  let d1 := d.onConv c fun x => x.onSlice k (fun s => { s with duty := .retired, pos := 0, cause := BitVec.ofNat 4 cause })
  let left := (d1.conv c).working.length
  let d2 := (d1.recordRetirement 2 (16 * c + k) cause).event 0x07 (16 * c + k) cause 0 left
  if left < (d2.conv c).w && !(d2.conv c).failed then
    (d2.onConv c fun x => { x with failed := true }).event 0x08 c 0 0 left
  else d2

/-- Whether a calibration is accepted (Table 10.5). -/
def CalResult.passes (r : CalResult) : Bool :=
  r.offset.natAbs ≤ 6400 && r.gain.natAbs ≤ 10000 && r.skew.natAbs ≤ 50 && r.spread ≤ 150

/-- The coefficients that a calibration computes. -/
def CalResult.coef (r : CalResult) : Coef := { offset := r.offset, gain := r.gain, skew := r.skew }

/-- One calibration attempt of slice `k` ends (Table 10.4, steps 5 and 6): it gives the slice its coefficients, or counts as
failed; the third failure in a row retires the slice with cause CAL (R294). -/
def Dev.calAttempt (d : Dev) (c k : Nat) (r : CalResult) : Dev :=
  if r.passes then d.onConv c fun x => x.onSlice k (fun s => { s with attempts := 0, coef := r.coef })
  else
    let n := ((d.conv c).slice k).attempts.toNat + 1
    let d1 := d.onConv c fun x =>
      x.onSlice k (fun s => { s with attempts := if n < 3 then BitVec.ofNat 2 n else 0, fails := satInc s.fails })
    if n < 3 then d1 else d1.retireSlice c k 1

/-- A converter that becomes usable (R297): every working slice calibrated once, duties assigned, the first interval starts. -/
def Dev.convWake (d : Dev) (cals : List CalResult) (c : Nat) : Dev :=
  let d1 := (d.conv c).working.foldl
    (fun d k => d.calAttempt c k (cals.getD k { offset := 0, gain := 0, skew := 0, spread := 0 })) d
  d1.onConv c fun x => { x.assign.newGrid with expiry := d.time.now + x.interval.toNat * 1000000 }

/-- The lowest idle slice made the spare where there is none. -/
def Converter.fillSpare (c : Converter) : Converter :=
  match c.spare, c.idles with
  | none, k :: _ => c.onSlice k (fun s => { s with duty := .spare, pos := 0 })
  | _, _ => c

/-- A change of the slice at a position, recorded. -/
def Converter.recordExchange (c : Converter) (e : Exchange) : Converter := { c with exch := e :: c.exch.take 127 }

/-- A spare where there is none, and then the spare at a position that stands vacant, from an instant on; `n` bounds how often
(log 177). -/
def Converter.settle (at' : Nat) : Nat → Converter → Converter
  | 0, c => c.fillSpare
  | n + 1, c0 =>
    let c := c0.fillSpare
    match c.spare, (upTo c.w).find? (fun p => (c.atPos p).isNone) with
    | some k, some p =>
      Converter.settle at' n ((c.onSlice k (fun s => { s with duty := .active, pos := p })).recordExchange
        { pos := p, at' := at', coef := none })
    | _, _ => c

/-! ## Background calibration (R292 to R297)

A rotation is a sequence of events, one CALIBRATION_ROTATION each: the exchange, every attempt on the freed slice, and every attempt
on the idle slice whose turn it is (Table 10.4, log 176). -/

/-- The exchange at an expiry (Table 10.4, steps 1 to 3): the spare takes position NEXT at the position's first tick after it is
connected, and the former slice is freed. -/
def Dev.calExchange (d : Dev) (c connect : Nat) : Dev :=
  let x := d.conv c
  match x.spare, x.atPos x.next with
  | some sp, some old =>
    if d.wmStart (d.time.wm + 1) ≤ x.expiry then d
    else
      d.onConv c fun y =>
        { ((y.onSlice sp (fun s => { s with duty := .active, pos := x.next })).onSlice old
            (fun s => { s with duty := .idle, pos := 0 })).recordExchange
              { pos := x.next, at' := 2 * (x.expiry + min connect 2000) + 1, coef := some (x.slice old).coef } with
          next := (x.next + 1) % y.w, exchanges := satInc y.exchanges, expiry := y.expiry + y.interval.toNat * 1000000,
          freed := some old }
  | _, _ => d

/-- The freed slice's calibration is over: the next idle slice, if any, has its turn (step 7). -/
def Converter.freedDone (at' : Nat) (c : Converter) : Converter :=
  let c1 := Converter.settle at' 3 { c with freed := none }
  let idles := c1.idles
  match idles[c1.idleTurn % max 1 idles.length]? with
  | some k => { c1 with idleCal := some k, idleTurn := c1.idleTurn + 1 }
  | none => c1

/-- Whether slice `k` is retired. -/
def Dev.sliceRetired (d : Dev) (c k : Nat) : Bool := ((d.conv c).slice k).duty == .retired

/-- An attempt on the freed slice ends (steps 4 to 6): having passed, it is the spare. -/
def Dev.freedAttempt (d : Dev) (c k : Nat) (r : CalResult) : Dev :=
  let d1 := d.calAttempt c k r
  if r.passes then
    d1.onConv c fun x => (x.onSlice k (fun s => { s with duty := .spare, pos := 0 })).freedDone (2 * d.time.now)
  else if d1.sliceRetired c k then d1.onConv c fun x => x.freedDone (2 * d.time.now)
  else d1

/-- An attempt on an idle slice ends (step 7). -/
def Dev.idleAttempt (d : Dev) (c k : Nat) (r : CalResult) : Dev :=
  let d1 := d.calAttempt c k r
  if r.passes || d1.sliceRetired c k then
    d1.onConv c fun x => Converter.settle (2 * d.time.now) 3 { x with idleCal := none }
  else d1

/-- CALIBRATION_ROTATION (R292): the next event of Table 10.4. -/
def Dev.calRotation (c : Fin 4) (e : CalEnv) (d : Dev) : Dev :=
  let x := d.conv c.val
  if !d.convUsable c.val || x.failed then d
  else
    match x.freed, x.idleCal with
    | some k, _ => d.freedAttempt c.val k e.result
    | none, some k => d.idleAttempt c.val k e.result
    | none, none => d.calExchange c.val e.connect

/-! ## Which slice converts a tick (R286, R293, R342, R447) -/

/-- The active position of tick 0 of a milestone; `k` bounds how many milestones it lies back. -/
def Dev.phaseOf (d : Dev) (c : Nat) : Nat → Nat → Nat
  | 0, _ => (d.conv c).phase
  | k + 1, ms =>
    let x := d.conv c
    if d.ms < ms then (x.phase + d.ticksIn c d.ms) % x.w
    else if ms = d.ms then x.phase
    else (Dev.phaseOf d c k (ms + 1) + x.w - d.ticksIn c ms % x.w) % x.w

/-- The active position that converts a tick of the milestone grid. -/
def Dev.posOf (d : Dev) (c : Nat) (t : Tick) : Nat := (d.phaseOf c 64 t.ms + t.j) % (d.conv c).w

/-- The period of a bound converter's continuous grid, in 1/6 ns: 62.5 ns for a Whisk unit (R447), 208⅓ ns for the Line (R342). -/
def Converter.boundPeriod (c : Converter) : Nat := if c.bind = 2 then 1250 else 375

/-- The first tick of a bound converter at or after an instant in half ns. Its grid counts from the start of the device's time. -/
def Converter.boundTick (c : Converter) (at' : Nat) : Nat := (3 * at' + c.boundPeriod - 1) / c.boundPeriod

/-- The active position whose tick falls at an instant, if one does; an instant is truncated to half ns. -/
def Dev.tickPosition (d : Dev) (c at' : Nat) : Option Nat :=
  let x := d.conv c
  if x.bind = 0 then
    let t := d.tickFrom c at'
    if d.tickAt c t = at' then some (d.posOf c t) else none
  else if x.boundTick at' * x.boundPeriod / 3 = at' then some (x.boundTick at' % x.w)
  else none

/-- A stalled active slice (R295): its tick, at an instant in half ns, is marked, the slice is retired with cause STALL, and the
spare has the position from the next tick on. -/
def Dev.stallSlice (d : Dev) (c k at' : Nat) : Dev :=
  let s := (d.conv c).slice k
  if s.duty ≠ .active || !d.convUsable c || (d.conv c).failed || d.tickPosition c at' ≠ some s.pos then d
  else
    let d1 := d.onConv c fun y =>
      { (y.onSlice k (fun t => { t with fails := satInc t.fails })).recordExchange
          { pos := s.pos, at' := at' + 1, coef := some s.coef } with stalls := at' :: y.stalls.take 127 }
    (d1.retireSlice c k 2).onConv c (Converter.settle (at' + 1) 3)

/-! ## Mismatch correction (R291, R293, R295) -/

/-- The tick of the stream before a tick, and the one after it. -/
def Dev.tickBack (d : Dev) (c : Nat) (t : Tick) : Tick :=
  if 0 < t.j then { t with j := t.j - 1 } else { ms := t.ms - 1, j := d.ticksIn c (t.ms - 1) - 1 }

/-- The tick of the stream after a tick. -/
def Dev.tickNext (d : Dev) (c : Nat) (t : Tick) : Tick := d.tickNorm c { t with j := t.j + 1 }

/-- The coefficients of the slice that converts a tick; none where its position stands vacant. -/
def Dev.coefAt (d : Dev) (c : Nat) (t : Tick) : Option Coef :=
  let x := d.conv c
  let p := d.posOf c t
  match (x.exch.filter (fun e => e.pos == p && decide (d.tickAt c t < e.at'))).getLast? with
  | some e => e.coef
  | none => (x.atPos p).map (fun k => (x.slice k).coef)

/-- Whether a tick has no conversion of its own: its slice stalled, or no slice filled its position. -/
def Dev.stalled (d : Dev) (c : Nat) (t : Tick) : Bool :=
  (d.conv c).stalls.contains (d.tickAt c t) || (d.coefAt c t).isNone

/-- A conversion in V with the offset subtracted and the gain error divided out (R291). -/
def Coef.correct (k : Coef) (code : Nat) : Rat :=
  ((100 * (code : Int) - k.offset : Int) : Rat) / 1638400 * (5 / 2) / (1 + (k.gain : Rat) / 1000000)

/-- The nearest whole number, ties to even. -/
def roundEven (x : Rat) : Int :=
  let f := x.floor
  let r := x - (f : Rat)
  if r < 1 / 2 then f else if 1 / 2 < r then f + 1 else if f % 2 = 0 then f else f + 1

/-- Conversions of consecutive ticks from tick `t` on, each with the coefficients of its slice. -/
def Dev.streamFrom (d : Dev) (c : Nat) : Tick → List Nat → List Rat
  | _, [] => []
  | t, x :: xs => ((d.coefAt c t).getD Coef.none).correct x :: Dev.streamFrom d c (d.tickNext c t) xs

/-- `n` ticks back in the stream. -/
def Dev.ticksBack (d : Dev) (c : Nat) : Nat → Tick → Tick
  | 0, t => t
  | n + 1, t => Dev.ticksBack d c n (d.tickBack c t)

/-- VALUE of a tick before clamping (R291): the stream from three samples before it to four after, filtered with its slice's skew. -/
def Dev.valueOf (d : Dev) (c : Nat) (t : Tick) (back : List Nat) (code : Nat) (ahead : List Nat) : Int :=
  let b := (back.take 3).reverse
  let v := Config.fractionalDelay ((d.coefAt c t).getD Coef.none).skew
    (d.streamFrom c (d.ticksBack c b.length t) (b ++ code :: ahead.take 4))
  roundEven (v / (5 / 2) * 65536)

/-- The corrected sample of a tick; a stalled one has the VALUE of the stream's previous sample, with GAP (R295). -/
def Dev.sampleAt (d : Dev) (c : Nat) : Tick → Nat → List Nat → List Nat → SampleVal
  | t, code, ahead, [] => { value := d.valueOf c t [] code ahead, gap := d.stalled c t }
  | t, code, ahead, b :: back =>
    if d.stalled c t then { Dev.sampleAt d c (d.tickBack c t) b (code :: ahead) back with gap := true }
    else { value := d.valueOf c t (b :: back) code ahead, gap := false }

/-- The corrected sample of a script's tick. -/
def Dev.sampleOf (d : Dev) (c : Nat) (t : Tick) (x : SampleIn) : SampleVal := d.sampleAt c t x.code x.ahead x.back

/-- Slice records loaded at start-up from the retirement records (R580). -/
def Dev.loadSliceRecords (d : Dev) : Dev :=
  let n := min d.sys.recorded.toNat 255
  let recs := (upTo n).map (fun i => d.store.group (0x101 + i))
  d.onMando fun m =>
    { m with conv := vmapi (fun c (x : Converter) =>
        { x with slices := vmapi (fun k (s : Slice) =>
            match recs.find? (fun b => byteAt b 0 == 2 && byteAt b 1 == 16 * c + k) with
            | some b => { s with duty := .retired, pos := 0, cause := BitVec.ofNat 4 (byteAt b 2) }
            | none => if s.duty = .retired then { s with duty := .idle, cause := 0 } else s) x.slices }) m.conv }

/-! ## Slice scripts (R308 to R316) -/

/-- One script step as it stands in the image (Table 10.10). -/
structure ScriptStep where
  op : Nat
  input : Nat
  param : Bool
  value : Nat
  deriving DecidableEq, Repr

/-- A script as it stands in the image (Table 10.9). -/
structure Script where
  mode : Nat
  startWm : Nat
  e : Nat
  phase : Nat
  cross : Nat
  ring : Nat
  len : Nat
  steps : List ScriptStep
  deriving DecidableEq, Repr

/-- The script of a slot. -/
def Image.script (m : Image) (n : Nat) : Option Script :=
  match payloadOf m.scripts n with
  | some p =>
    some { mode := byteAt p.data 1, startWm := byteAt p.data 2, e := byteAt p.data 3, phase := byteAt p.data 4,
           cross := byteAt p.data 5, ring := leAt p.data 8 4, len := leAt p.data 12 4,
           steps := (upTo (byteAt p.data 0)).map (fun i =>
             { op := byteAt p.data (16 + 8 * i), input := byteAt p.data (17 + 8 * i),
               param := byteAt p.data (18 + 8 * i) % 2 = 1, value := leAt p.data (20 + 8 * i) 4 }) }
  | none => none

/-- Whether a slot's converter takes samples: its domain usable and the converter not failed (R302, R313). -/
def Dev.slotOnline (d : Dev) (n : Nat) : Bool := d.convUsable (n / 4) && !d.convFailed (n / 4)

/-- The status word of a slot (Table 7.12). -/
def Dev.slotStatus (d : Dev) (n : Nat) : Nat :=
  let s := d.slot n
  let st := match s.mode with
    | .idle => 0
    | .running => 1
    | .done => 2
    | .aborted => 3
  st + 4 * b2n s.dba + 8 * b2n (!d.slotOnline n)

/-- A start of a slot ignored and counted (R310). -/
def Slot.ignore (s : Slot) : Slot := { s with ignored := satInc s.ignored }

/-- A run counted as completed. -/
def Slot.complete (s : Slot) : Slot :=
  { s with run := none, runsPot := s.runsPot + 1, runs := satInc s.runs }

/-- S.RUN at its task's commit (R308, R310): an armed mode arms the slot; ONCE starts at the script instant of this
boundary; a slot that runs or is armed, has no script, or whose converter is not usable, ignores it. -/
def Dev.slotRun (d : Dev) (n : Nat) : Dev :=
  match d.image.script n with
  | none => d.onSlot n Slot.ignore
  | some sc =>
    let s := d.slot n
    if s.run.isSome || s.armed || s.starting.isSome || !d.slotOnline n then d.onSlot n Slot.ignore
    else if sc.mode = 0 then
      d.onSlot n fun s => { s with mode := .running, dba := false, starting := some (d.tickFrom (n / 4) d.scriptInstant) }
    else d.onSlot n fun s => { s with mode := .running, dba := false, armed := true }

/-- An abort of a slot at an instant (R314). -/
def Dev.abortSlot (d : Dev) (n at' : Nat) : Dev :=
  d.onSlot n fun s =>
    let s1 := { s with armed := false, starting := none, aborting := none }
    match s.run with
    | some r =>
      let past := match r.ended with
        | some t => decide (t < at')
        | none => false
      if past then { s1.complete with mode := .done, dba := true }
      else { s1 with run := none, mode := .aborted, dba := false, pend := s.pend.filter (fun e => e.instant < at') }
    | none =>
      if s.starting.isSome then { s1 with mode := .aborted, dba := false }
      else if s.armed || s.mode = .done then { s1 with mode := .done, dba := true }
      else s1

/-- SCRIPT_START (R310): the run that waits for its start begins, unless a run of the slot is in progress. -/
def Dev.scriptStart (n : Fin 16) (d : Dev) : Dev :=
  let c := n.val / 4
  let s := d.slot n.val
  match s.starting with
  | none => d
  | some t =>
    let s0 := match s.run with
      | some r => match r.ended with
        | some e => if e ≤ d.tickAt c t then s.complete else s
        | none => s
      | none => s
    if s0.run.isSome then d.onSlot n.val fun _ => { s0.ignore with starting := none }
    else d.onSlot n.val fun _ =>
      { s0 with starting := none, mode := .running, dba := false, runNo := s0.runNo + 1,
                run := some { cursor := t, step := 0, repeats := [], params := s0.par.toList, number := s0.runNo % 256,
                              last := d.tickAt c t, waiting := none, ended := none, taken := 0, held := [] } }

/-- SCRIPT_ABORT (R314): the abort that waits for its script instant acts. -/
def Dev.scriptAbort (n : Fin 16) (d : Dev) : Dev :=
  match (d.slot n.val).aborting with
  | some at' => d.abortSlot n.val at'
  | none => d

/-- The step at which a run stands, with its script. -/
def Dev.stepOf (d : Dev) (n : Nat) : Option (ScriptRun × ScriptStep) :=
  match (d.slot n).run, d.image.script n with
  | some r, some sc =>
    if r.ended.isSome then none else (sc.steps[r.step]?).map (fun st => (r, st))
  | _, _ => none

/-- A run moved to its next step; past the last step, or at END, it is complete (R309). -/
def Dev.advance (d : Dev) (n : Nat) (r : ScriptRun) : Dev :=
  let len := match d.image.script n with | some sc => sc.steps.length | none => 0
  let r1 := { r with step := r.step + 1 }
  d.onSlot n fun s => { s with run := some { r1 with ended := if len ≤ r1.step then some r1.last else none } }

/-- A step's value: the parameter it names, clamped to the step's range, where PARAM is set. -/
def stepValue (r : ScriptRun) (st : ScriptStep) (lo hi : Nat) : Nat :=
  if st.param then max lo (min hi (r.params.getD (st.value % 16) 0).toNat) else st.value

/-- A ring entry (R311). -/
def ringWord (v step : Nat) (gap clip mark : Bool) (number : Nat) : Word :=
  BitVec.ofNat 32 (v + step * 2 ^ 16 + b2n gap * 2 ^ 21 + b2n clip * 2 ^ 22 + b2n mark * 2 ^ 23 + number * 2 ^ 24)

/-- An entry put on its way to the ring. -/
def Dev.pushEntry (d : Dev) (n : Nat) (t : Tick) (w : Word) : Dev :=
  let at' := d.tickAt (n / 4) t
  d.onSlot n fun s => { s with pend := s.pend ++ [{ wmAbs := d.waymarkOf t.ms at', instant := at', word := w }] }

/-- A sample clamped to 0 to 65,535. -/
def clampSample (x : Int) : Nat := (clampInt 0 65535 x).toNat

/-- A run that stays at its step. -/
def Dev.setRun (d : Dev) (n : Nat) (r : ScriptRun) : Dev := d.onSlot n fun s => { s with run := some r }

/-- A run behind the tick of its last sample. -/
def Dev.runBehind (d : Dev) (n : Nat) (r : ScriptRun) (t : Tick) : ScriptRun :=
  { r with cursor := d.tickNext (n / 4) t, last := d.tickAt (n / 4) t }

/-- A sample of a script entered in its ring. -/
def Dev.pushSample (d : Dev) (n : Nat) (r : ScriptRun) (t : Tick) (v : SampleVal) : Dev :=
  d.pushEntry n t (ringWord (clampSample v.value) r.step v.gap (decide ((clampSample v.value : Int) ≠ v.value)) false r.number)

/-- SAMPLE: COUNT samples of INPUT on the slot's ticks, one entry each; the operand is what the converter's slices convert. Ticks of
milestones that have not begun come with a later command. -/
def Dev.scriptSample (n : Fin 16) (vs : List SampleIn) (d : Dev) : Dev :=
  match d.stepOf n.val with
  | none => d
  | some (r, st) =>
    let count := stepValue r st 1 65535
    let ts := d.ownTicks (n.val / 4) (n.val % 4) (count - r.taken) r.cursor
    if st.op ≠ 1 || !d.slotOnline n.val || vs.length ≠ ts.length then d
    else
      let d1 := (List.zip ts vs).foldl (fun d p => d.pushSample n.val r p.1 (d.sampleOf (n.val / 4) p.1 p.2)) d
      match ts.getLast? with
      | some t =>
        if r.taken + ts.length = count then d1.advance n.val (d.runBehind n.val { r with taken := 0 } t)
        else d1.setRun n.val (d.runBehind n.val { r with taken := r.taken + ts.length } t)
      | none => d

/-- The mean of AVERAGE (R312): of the values before clamping, itself clamped; the Bool is CLIP. -/
def averageOf (a : Nat) (vs : List Int) : Nat × Bool :=
  let s := vs.foldl (· + ·) 0
  let m := if a = 0 then s else (s + 2 ^ (a - 1)).fdiv (2 ^ a)
  (clampSample m, vs.any (fun v => decide ((clampSample v : Int) ≠ v)) || decide ((clampSample m : Int) ≠ m))

/-- AVERAGE: 2^A samples and one entry of their mean. -/
def Dev.scriptAverage (n : Fin 16) (vs : List SampleIn) (d : Dev) : Dev :=
  match d.stepOf n.val with
  | none => d
  | some (r, st) =>
    let a := if st.param then stepValue r st 0 10 else st.value % 16
    let ts := d.ownTicks (n.val / 4) (n.val % 4) (2 ^ a - r.taken) r.cursor
    if st.op ≠ 2 || !d.slotOnline n.val || vs.length ≠ ts.length then d
    else
      match ts.getLast? with
      | none => d
      | some t =>
        let all := r.held ++ (List.zip ts vs).map (fun p => d.sampleOf (n.val / 4) p.1 p.2)
        if r.taken + ts.length = 2 ^ a then
          let m := averageOf a (all.map (·.value))
          (d.pushEntry n.val t (ringWord m.1 r.step (all.any (·.gap)) m.2 false r.number)).advance n.val
            (d.runBehind n.val { r with taken := 0, held := [] } t)
        else d.setRun n.val (d.runBehind n.val { r with taken := r.taken + ts.length, held := all } t)

/-- WAIT: the cursor advances T existing ticks. -/
def Dev.scriptWait (n : Fin 16) (d : Dev) : Dev :=
  match d.stepOf n.val with
  | none => d
  | some (r, st) =>
    if st.op ≠ 3 || !d.slotOnline n.val then d
    else d.advance n.val { r with cursor := d.tickNorm (n.val / 4) { r.cursor with j := r.cursor.j + stepValue r st 1 16777215 } }

/-- REPEAT: back to the target count times, then on. -/
def Dev.scriptRepeat (n : Fin 16) (d : Dev) : Dev :=
  match d.stepOf n.val with
  | none => d
  | some (r, st) =>
    if st.op ≠ 4 then d
    else
      let count := if st.param then max 1 (min 65535 (r.params.getD (bitsOf st.value 19 16) 0).toNat) else bitsOf st.value 31 16
      let done := (mapFind r.repeats r.step).getD 0
      if done < count then
        d.onSlot n.val fun s =>
          { s with run := some { r with step := st.value % 32, repeats := mapPut r.repeats r.step (done + 1) } }
      else d.advance n.val { r with repeats := r.repeats.filter (fun p => p.1 != r.step) }

/-- The tick at which a run's cursor stands. -/
def Dev.cursorOf (d : Dev) (n : Nat) (r : ScriptRun) : Tick := d.tickNorm (n / 4) r.cursor

/-- MARK: one marker entry of a parameter at the cursor, once the cursor's milestone has begun. -/
def Dev.scriptMark (n : Fin 16) (d : Dev) : Dev :=
  match d.stepOf n.val with
  | none => d
  | some (r, st) =>
    let t := d.cursorOf n.val r
    if st.op ≠ 5 || !d.begun t then d
    else
      let v := (r.params.getD (st.value % 16) 0).toNat % 65536
      (d.pushEntry n.val t (ringWord v r.step false false true r.number)).advance n.val
        { r with cursor := t, last := d.tickAt (n.val / 4) t }

/-- SCRIPT_END: the run is complete. -/
def Dev.scriptEnd (n : Fin 16) (d : Dev) : Dev :=
  match d.stepOf n.val with
  | none => d
  | some (r, st) =>
    if st.op ≠ 0 then d else d.onSlot n.val fun s => { s with run := some { r with ended := some r.last } }

/-! ## Sample groups (R305 to R307) -/

/-- Whether a slot waits at a GSAMPLE step for a group at an instant. -/
def Dev.waitsFor (d : Dev) (n g at' : Nat) : Bool :=
  match d.stepOf n with
  | some (r, st) => st.op == 7 && st.value % 4 == g && r.waiting.isNone && decide (d.tickAt (n / 4) (d.cursorOf n r) ≤ at')
  | none => false

/-- Whether a slot waits at a GSAMPLE step for group `g` with its hold still unconverted. -/
def Dev.holds (d : Dev) (n g : Nat) : Bool :=
  match d.stepOf n with
  | some (r, st) => st.op == 7 && st.value % 4 == g && r.waiting.isSome
  | none => false

/-- The tick at which a slot converts a hold: its first own tick at least 50 ns after the hold. -/
def Dev.holdTick (d : Dev) (n at' : Nat) (r : ScriptRun) : Option Tick :=
  let t := d.tickFrom (n / 4) (at' + 100)
  let u := if d.tickAt (n / 4) t < d.tickAt (n / 4) (d.cursorOf n r) then d.cursorOf n r else t
  d.ownTick (n / 4) (n % 4) 32 u

/-- A trigger of a group at an instant: every waiting member takes the hold; a trigger before an earlier hold is
converted is ignored and counted (R306). -/
def Dev.trigger (d : Dev) (g at' : Nat) : Dev :=
  let x := vgetD d.mando.groups g SampleGroup.reset
  if !x.used then d
  else if (upTo 16).any (fun n => bitOf x.members n && d.holds n g) then
    d.onMando fun m => { m with groups := vupdN m.groups g (fun y => { y with missed := satInc y.missed }) }
  else
    let waiting := (upTo 16).filter (fun n => bitOf x.members n && d.waitsFor n g at')
    let d1 := waiting.foldl (fun d n => d.onSlot n fun s => { s with run := s.run.map (fun r => { r with waiting := some at' }) }) d
    d1.onMando fun m => { m with groups := vupdN m.groups g (fun y => { y with fires := satInc y.fires }) }

/-- FIRE: triggers the group at the cursor's tick, once its milestone has begun. -/
def Dev.scriptFire (n : Fin 16) (d : Dev) : Dev :=
  match d.stepOf n.val with
  | none => d
  | some (r, st) =>
    let t := d.cursorOf n.val r
    if st.op ≠ 6 || !d.begun t then d
    else (d.trigger (st.value % 4) (d.tickAt (n.val / 4) t)).advance n.val { r with cursor := t, last := d.tickAt (n.val / 4) t }

/-- GSAMPLE: the hold of the trigger converted at the slot's first own tick at least 50 ns after it. -/
def Dev.scriptGsample (n : Fin 16) (v : SampleIn) (d : Dev) : Dev :=
  match d.stepOf n.val with
  | none => d
  | some (r, st) =>
    match r.waiting with
    | none => d
    | some at' =>
      match d.holdTick n.val at' r with
      | none => d
      | some t =>
        if st.op ≠ 7 || !d.slotOnline n.val then d
        else
          (d.pushSample n.val r t (d.sampleOf (n.val / 4) t v)).advance n.val (d.runBehind n.val { r with waiting := none } t)

/-- The groups as an image declares them. -/
def Dev.loadGroups (d : Dev) : Dev :=
  d.onMando fun m =>
    { m with groups := vmapi (fun g (x : SampleGroup) =>
        match payloadOf d.image.scripts (0x200 + g) with
        | some p => { x with used := true, owner := p.pot, byCross := byteAt p.data 0 = 1, source := byteAt p.data 1,
                             members := leAt p.data 2 2 }
        | none => { SampleGroup.reset with fires := x.fires, missed := x.missed }) m.groups }

/-! ## Ring writes (R311, R313, R315) -/

/-- The worktop address of a slot's ring. -/
def Dev.ringBase (d : Dev) (n : Nat) (sc : Script) : Nat :=
  (d.image.window (d.image.slotOwn.getD n 0xFF)).base * 4096 + sc.ring

/-- Whether a slot's pot is in state RUN. -/
def Dev.slotPotRuns (d : Dev) (n : Nat) : Bool :=
  let p := d.image.slotOwn.getD n 0xFF
  p < 16 && (vgetD d.cycle.pots p PotState.reset).run == .run

/-- A worktop write by the device. -/
def Dev.putWorktop (d : Dev) (a : Nat) (b : List Byte) : Dev :=
  { d with cycle := { d.cycle with worktop := Mem.writeBytes zeroByte d.cycle.worktop a b } }

/-- The ring header (R311). -/
def Dev.ringHeader (d : Dev) (n : Nat) (sc : Script) : Dev :=
  let s := d.slot n
  d.putWorktop (d.ringBase n sc) (leBytes 4 s.write.toNat ++ leBytes 4 s.runsPot ++ leBytes 4 d.ms ++ leBytes 4 0)

/-- The entries of one slot that are due at this boundary, written in instant order, and its header. -/
def Dev.ringWriteSlot (d : Dev) (n : Nat) : Dev :=
  match d.image.script n with
  | none => d
  | some sc =>
    let s := d.slot n
    let now := d.wmAbs
    let due := s.pend.filter (fun e => e.wmAbs + 2 ≤ now)
    let fin := match s.run with
      | some r => match r.ended with
        | some t => decide (d.waymarkOf (if t < 2 * d.time.msStart then d.ms - 1 else d.ms) t + 2 ≤ now)
        | none => false
      | none => false
    if due.isEmpty && !fin then d
    else if !d.slotPotRuns n then d.onSlot n fun s => { s with pend := s.pend.filter (fun e => now < e.wmAbs + 2) }
    else
      let d1 := due.foldl (fun d e =>
        let m := (d.slot n).write.toNat % max 1 sc.len
        (d.putWorktop (d.ringBase n sc + 16 + 4 * m) (leBytes 4 e.word.toNat)).onSlot n fun s => { s with write := s.write + 1 }) d
      let d2 := d1.onSlot n fun s =>
        let s1 := { s with pend := s.pend.filter (fun e => now < e.wmAbs + 2) }
        if fin then (let s2 := s1.complete; if sc.mode = 0 then { s2 with mode := .done } else s2) else s1
      d2.ringHeader n sc

/-- RING_WRITE: every slot in turn. -/
def Dev.ringWrite (d : Dev) : Dev := (upTo 16).foldl (fun d n => d.ringWriteSlot n) d

/-- The slots that a pot owns. -/
def Dev.slotsOf (d : Dev) (p : Nat) : List Nat := (upTo 16).filter (fun n => d.image.slotOwn.getD n 0xFF == p)

/-- A pot leaves RUN: its scripts are aborted and disarmed, and nothing more is written (R315). -/
def Dev.slotsLeave (d : Dev) (p : Nat) : Dev :=
  (d.slotsOf p).foldl (fun d n => (d.abortSlot n d.scriptInstant).onSlot n fun s => { s with pend := [] }) d

/-- A start of a pot: WRITE, RUNS and run numbers 0, and every ring header written with zeros (R315). -/
def Dev.slotsStart (d : Dev) (p : Nat) : Dev :=
  (d.slotsOf p).foldl (fun d n =>
    let d1 := d.onSlot n fun s => { s with write := 0, runsPot := 0, runNo := 0 }
    match d.image.script n with
    | some sc => d1.putWorktop (d.ringBase n sc) (List.replicate 16 0)
    | none => d1) d

/-- The starts of armed WAYMARK slots at a waymark boundary (R310); `cyc` is C(n). -/
def Dev.waymarkStarts (d : Dev) (cyc : Nat) : Dev :=
  (upTo 16).foldl (fun d n =>
    match d.image.script n with
    | some sc =>
      if sc.mode = 1 && (d.slot n).armed && sc.startWm = d.time.wm && cyc % 2 ^ sc.e = sc.phase then
        d.onSlot n fun s =>
          if s.starting.isSome then s.ignore else { s with starting := some (d.tickFrom (n / 4) d.scriptInstant) }
      else d
    | none => d) d

/-! ## Crossings (R300 to R304) -/

/-- Crossing `i`. -/
def Dev.cxOf (d : Dev) (i : Nat) : Crossing := vgetD d.mando.cx i Crossing.reset

/-- One crossing changed. -/
def Dev.onCx (d : Dev) (i : Nat) (f : Crossing → Crossing) : Dev :=
  d.onMando fun m => { m with cx := vupdN m.cx i f }

/-- A crossing deasserts at a ns stamp and records its capture entry (R304). -/
def Dev.cxDrop (d : Dev) (i stamp : Nat) : Dev :=
  if (d.cxOf i).state then (d.onCx i fun x => { x with state := false }).capture (0x010 + i) (stamp / 1000) false else d

/-- Crossings whose channel has no owner are held disabled (R301), and so deasserted (R300). -/
def Dev.cxUnowned (d : Dev) : Dev :=
  (upTo 16).foldl (fun d i => if (d.image.cxOwner i).isNone then d.cxDrop i d.time.now else d) d

/-- A CX_CFG or CX_ROUTE write that takes effect at the presentation instant of step 6, 2.0 µs after the boundary (R303, R304):
`a` is 2 × crossing, plus 1 for CX_ROUTE. A route written
while the crossing is asserted trips nothing until the next assertion (DESIGN CHOICE, log 158). -/
def Dev.cxApply (d : Dev) (a : Nat) (v : Word) : Dev :=
  let i := a / 2
  let n := v.toNat
  if a % 2 = 1 then d.onCx i fun x => { x with tripWa := bitOf n 0, tripWb := bitOf n 1 }
  else
    let d1 := if bitOf n 0 then d else d.cxDrop i (d.time.now + 2000)
    d1.onCx i fun x =>
      { x with en := bitOf n 0, pol := bitOf n 1, hys := BitVec.ofNat 2 (bitsOf n 3 2), input := BitVec.ofNat 3 (bitsOf n 6 4),
               thr := BitVec.ofNat 10 (bitsOf n 25 16) }

/-- Step 6: the crossing registers written at this boundary take effect. -/
def Dev.mandoPresent (d : Dev) : Dev :=
  let d1 := d.mando.cxPending.foldl (fun d p => d.cxApply p.1 p.2) d
  d1.onMando fun m => { m with cxPending := [] }

/-- Whether a crossing can assert: enabled, owned, its domain usable, and deasserted now. -/
def Dev.cxArmed (d : Dev) (i : Nat) : Bool :=
  let x := d.cxOf i
  x.en && !x.state && d.pd (8 + i / 4) && (d.image.cxOwner i).isSome

/-- The threshold in 1/1,024 µV (R300). -/
def Crossing.threshold (x : Crossing) : Nat := x.thr.toNat * 2500000

/-- The hysteresis in 1/1,024 µV (Table 10.7 HYS). -/
def Crossing.hysteresis (x : Crossing) : Nat := [0, 10000, 20000, 40000].getD x.hys.toNat 0 * 1024

/-- Whether an input, in µV, meets the condition under which a crossing asserts (R300). -/
def Crossing.meets (x : Crossing) (level : Nat) : Bool :=
  if x.pol then level * 1024 < x.threshold else x.threshold < level * 1024

/-- Whether it meets the condition under which the crossing deasserts. -/
def Crossing.returns (x : Crossing) (level : Nat) : Bool :=
  if x.pol then x.threshold + x.hysteresis < level * 1024 else level * 1024 + x.hysteresis < x.threshold

/-- A crossing asserts at a ns stamp: capture, starts of armed CROSSING slots at the first tick at least 100 ns later, and
the sample groups that it triggers (R304, R306, R310). The trip of a Whisk unit is Convert.lean's. -/
def Dev.cxAssert (d : Dev) (i stamp : Nat) : Dev :=
  let d1 := (d.onCx i fun x => { x with state := true, asserts := satInc x.asserts }).capture (0x010 + i) (stamp / 1000) true
  let d2 := (upTo 16).foldl (fun d n =>
    match d.image.script n with
    | some sc =>
      if sc.mode = 2 && sc.cross = i && (d.slot n).armed then
        d.onSlot n fun s =>
          if s.starting.isSome then s.ignore else { s with starting := some (d.tickFrom (n / 4) (2 * (stamp + 100))) }
      else d
    | none => d) d1
  (upTo 4).foldl (fun d g =>
    let x := vgetD d.mando.groups g SampleGroup.reset
    if x.used && x.byCross && x.source = i then d.trigger g (2 * stamp) else d) d2

/-- A switch-off or a failure, at an instant in half ns, ends a converter's scripts (R302, R314) and leaves its crossings. -/
def Dev.convScriptsOff (d : Dev) (c at' : Nat) : Dev :=
  ((upTo 4).map (4 * c + ·)).foldl (fun d n =>
    if (d.slot n).mode = .running then d.abortSlot n at' else d) d

/-- The crossings and scripts of a converter whose domain goes off (R75, R300, R314). -/
def Dev.convOff (d : Dev) (c at' : Nat) : Dev :=
  ((upTo 4).map (4 * c + ·)).foldl (fun d i => d.cxDrop i (at' / 2)) (d.convScriptsOff c at')

end Sys2Proof.Machine
end

