-- ==== Sys2Proof/Machine/Store.lean ====
section
/-! DEFINITION. The STORE commands and the larder's write queue (08). -/

namespace Sys2Proof.Machine

/-- The bank of a command: false for A, true for B. -/
def StoreState.bank (s : StoreState) (b : Bool) : Bank := if b then s.bankB else s.bankA

/-- A bank replaced. -/
def StoreState.setBank (s : StoreState) (b : Bool) (x : Bank) : StoreState :=
  if b then { s with bankB := x } else { s with bankA := x }

/-- STORE.BANK.SW_STATE is not IDLE and this bank is the candidate. -/
def StoreState.candidate (s : StoreState) (b : Bool) : Bool :=
  match s.sw with
  | .idle => false
  | .verifying c _ _ _ _ => c == b
  | .armed c _ _ _ => c == b

/-- Whether a switch is being verified. -/
def StoreState.verifying (s : StoreState) : Bool :=
  match s.sw with
  | .verifying _ _ _ _ _ => true
  | _ => false

/-- STORE.STAT.BUSY (R229, R234). -/
def StoreState.isBusy (s : StoreState) : Bool := s.busy.isSome || s.verifying

/-- A STORE command refused: its code, and BUS.ATTN.STORE (DEDUCED, log 21). -/
def Dev.storeRefuse (d : Dev) (op code : Nat) : Dev := (d.onStore fun s => s.setResult op code).attnStore

/-- A STORE command that ends: its code and BUS.ATTN.STORE; `point` marks a commit point reached now. -/
def Dev.storeEnd (d : Dev) (op code : Nat) (point : Bool) : Dev :=
  (d.onStore fun s =>
    { s.setResult op code with
      busy := none, committedAt := if point then some (d.ms, d.time.wm, op) else s.committedAt }).attnStore

/-- Bytes 0 to 255 of STORE.BUF, in order. -/
def StoreState.bufBytes (s : StoreState) : List Byte := s.buf.toList.flatMap (fun w => leBytes 4 w.toNat)

/-- The state of a bank under ERASE: the mark goes first, so a bank that is not EMPTY is WRITING until the last byte is 0
(Table 8.1). -/
def BankMode.erasing (m : BankMode) : BankMode := if m = .empty then .empty else .writing

/-- STORE ERASE of a bank (Table 8.4). The candidate of a switch is refused also while it is being verified (08, corner cases). -/
def Dev.storeErase (b : Bool) (d : Dev) : Dev :=
  if d.store.busy.isNone && d.store.candidate b then d.storeRefuse 1 5
  else if d.store.isBusy then d.storeRefuse 1 2
  else if (d.store.bank b).mode = .active then d.storeRefuse 1 6
  else d.onStore fun s =>
    { (s.setBank b { s.bank b with mode := (s.bank b).mode.erasing }) with busy := some (.erase b), progress := 127, op := 1 }

/-- ERASE writes its last byte: the bank is EMPTY. -/
def Dev.storeEraseEnd (d : Dev) : Dev :=
  match d.store.busy with
  | some (.erase b) => (d.onStore fun s => { s.setBank b Bank.blank with progress := 100 }).storeEnd 1 1 true
  | _ => d

/-- STORE WRITE (Table 8.4). -/
def Dev.storeWrite (b : Bool) (d : Dev) : Dev :=
  let s := d.store
  let ofs := s.arg0.toNat
  let len := bitsOf s.arg1.toNat 8 0
  if s.isBusy then d.storeRefuse 2 2
  else if s.arg1.toNat ≥ 512 || ofs % 4 != 0 || len % 4 != 0 || len < 4 || 256 < len || 1048576 < ofs + len then
    d.storeRefuse 2 4
  else
    match (s.bank b).mode with
    | .active => d.storeRefuse 2 6
    | .complete => d.storeRefuse 2 5
    | _ => d.onStore fun s =>
      { (s.setBank b { s.bank b with mode := .writing }) with
        busy := some (.write b ofs (s.bufBytes.take len)), op := 2 }

/-- Bytes written into a bank; a word written anew holds no error. -/
def Bank.put (x : Bank) (ofs : Nat) (bs : List Byte) : Bank :=
  { x with bytes := Mem.writeBytes zeroByte x.bytes ofs bs,
           bad := x.bad.filter (fun w => 8 * w + 8 ≤ ofs || ofs + bs.length ≤ 8 * w) }

/-- WRITE writes its last word. -/
def Dev.storeWriteEnd (d : Dev) : Dev :=
  match d.store.busy with
  | some (.write b ofs bs) => (d.onStore fun s => s.setBank b ((s.bank b).put ofs bs)).storeEnd 2 1 true
  | _ => d

/-- STORE SEAL (Table 8.4): starts the checks of R224. -/
def Dev.storeSeal (b : Bool) (d : Dev) : Dev :=
  if d.store.isBusy then d.storeRefuse 3 2
  else
    match (d.store.bank b).mode with
    | .active => d.storeRefuse 3 6
    | .writing => d.onStore fun s => { s with busy := some (.seal b), progress := 127, op := 3 }
    | _ => d.storeRefuse 3 5

/-- GENERATION of the image in a bank, bytes 12 to 15 of its header (Table 6.4). -/
def Bank.generation (x : Bank) : Nat := Mem.readLE zeroByte x.bytes 0x0C 4

/-- The bank that is not active. -/
def StoreState.activeBank (s : StoreState) : Option Bool :=
  if s.bankA.mode = .active then some false else if s.bankB.mode = .active then some true else none

/-- STORE SWITCH, judged in the order of R233. -/
def Dev.storeSwitch (b : Bool) (d : Dev) : Dev :=
  let s := d.store
  let a1 := s.arg1.toNat
  if s.isBusy then d.storeRefuse 4 2
  else if 2 ^ 19 ≤ a1 then d.storeRefuse 4 4
  else if d.sys.mode = .tollgate || s.sw != .idle then d.storeRefuse 4 5
  else if (s.bank b).mode = .active then d.storeRefuse 4 6
  else if (s.bank b).mode != .complete then d.storeRefuse 4 5
  else if !(bitOf a1 18) && decide ((s.bank b).generation ≤ d.image.generation) then d.storeRefuse 4 8
  else d.onStore fun s =>
    { s with sw := .verifying b s.arg0.toNat (a1 % 2 ^ 16) (bitOf a1 16) (bitOf a1 17), progress := 127, op := 4 }

/-- Whether a queued write is a group of a slot that PROVISION writes. -/
def LarderWrite.ofSlot (w : LarderWrite) : Bool :=
  match w with
  | .imm g _ host => host && decide (g < 8)
  | .txn _ => false

/-- Whether a queued write is the host's transaction and has no mark yet. -/
def LarderWrite.ofCommit (w : LarderWrite) : Bool :=
  match w with
  | .imm _ _ _ => false
  | .txn t => t.host && decide (t.done ≤ recordLength t.groups.length)

/-- The command in progress stopped before its commit point (R232); `words` are the words of a WRITE that are done, the word in
progress included. -/
def Dev.abortBusy (d : Dev) (o : StoreOp) (words : Nat) : Dev :=
  match o with
  | .erase b => (d.onStore fun s => s.setBank b { s.bank b with mode := .writing }).storeEnd 1 0xB false
  | .write b ofs bs => (d.onStore fun s => s.setBank b ((s.bank b).put ofs (bs.take (4 * words)))).storeEnd 2 0xB false
  | .seal _ => d.storeEnd 3 0xB false
  | .commit => (d.onStore fun s => { s with queue := s.queue.filter (fun w => !w.ofCommit) }).storeEnd 8 0xB false
  | .provision _ => (d.onStore fun s => { s with queue := s.queue.filter (fun w => !w.ofSlot) }).storeEnd 9 0xB false

/-- STORE ABORT (R232): the command in progress, then a switch, then a host transaction; a command whose commit point
lies in the waymark in which the ABORT was accepted stands complete (DEDUCED, log 22). -/
def Dev.storeAbort (words : Nat) (d : Dev) : Dev :=
  match d.store.busy with
  | some o => d.abortBusy o words
  | none =>
    if d.store.sw != .idle then (d.onStore fun s => { s.setResult 4 0xB with sw := .idle }).attnStore
    else if d.store.txn.isSome then (d.onStore fun s => { s.setResult 6 0xB with txn := none }).attnStore
    else
      match d.store.committedAt with
      | some (m, w, op) =>
        if d.ms * 256 + d.time.wm ≤ m * 256 + w + 1 then d.storeRefuse op 0xC else d.storeRefuse 5 5
      | none => d.storeRefuse 5 5

/-- STORE TXN_BEGIN. -/
def Dev.txnBegin (d : Dev) : Dev :=
  let r := d.store.arg0.toNat
  if d.store.isBusy then d.storeRefuse 6 2
  else if 64 ≤ r then d.storeRefuse 6 4
  else
    match d.image.region r with
    | some reg =>
      if !reg.journaled then d.storeRefuse 6 4
      else if d.store.txn.isSome then d.storeRefuse 6 5
      else (d.onStore fun s => { s with txn := some { region := r, groups := [] } }).storeEnd 6 1 false
    | none => d.storeRefuse 6 4

/-- A staged group set, replacing what was staged for it. -/
def setGroup (gs : List (Nat × List Byte)) (g : Nat) (b : List Byte) : List (Nat × List Byte) :=
  if gs.any (fun p => p.1 == g) then gs.map (fun p => if p.1 == g then (g, b) else p) else gs ++ [(g, b)]

/-- STORE TXN_WRITE: COUNT groups of STORE.BUF staged from GROUP. -/
def Dev.txnWrite (d : Dev) : Dev :=
  let s := d.store
  let g := s.arg0.toNat
  let n := s.arg1.toNat
  if s.isBusy then d.storeRefuse 7 2
  else if 2 ^ 15 ≤ g || 64 ≤ n then d.storeRefuse 7 4
  else
    match s.txn with
    | none => d.storeRefuse 7 5
    | some t =>
      let size := match d.image.region t.region with
        | some r => r.groups
        | none => 0
      if n < 1 || 32 < n || size < g + n then d.storeRefuse 7 4
      else if 512 - n < t.groups.length then d.storeRefuse 7 5
      else
        let gs := (upTo n).foldl (fun gs k => setGroup gs (g + k) ((s.bufBytes.drop (8 * k)).take 8)) t.groups
        (d.onStore fun s => { s with txn := some { t with groups := gs } }).storeEnd 7 1 false

/-- STORE TXN_COMMIT: the host transaction becomes a journaled transaction, ahead of this boundary's commits (R251). -/
def Dev.txnCommit (d : Dev) : Dev :=
  if d.store.isBusy then d.storeRefuse 8 2
  else
    match d.store.txn with
    | none => d.storeRefuse 8 5
    | some t =>
      let base := match d.image.region t.region with
        | some r => r.base
        | none => 0
      let owner := match d.image.region t.region with
        | some r => r.owner
        | none => 16
      let gs := t.groups.map (fun p => (base + p.1, p.2))
      let lossy := gs.any (fun p => d.store.failed.contains p.1)
      let d1 := d.onStore fun s => { (s.writeTxn true owner gs) with txn := none, op := 8, hostLost := lossy }
      if gs.all (fun p => d.store.failed.contains p.1) then d1.storeEnd 8 (if lossy then 0xD else 1) true
      else d1.onStore fun s => { s with busy := some .commit }

/-- STORE PROVISION (R240): writes BUF bytes 0 to 31 to the host key or the fingerprint. -/
def Dev.storeProvision (priv : Bool) (d : Dev) : Dev :=
  let first := if d.store.arg0 = 1 then 4 else 0
  let blank := (upTo 4).all (fun k => (d.store.group (first + k)).all (· == 0))
  if d.store.isBusy then d.storeRefuse 9 2
  else if 2 ≤ d.store.arg0.toNat then d.storeRefuse 9 4
  else if !d.sys.provEn || (!blank && !priv) then d.storeRefuse 9 3
  else
    let left := ((upTo 4).filter (fun k => !d.store.failed.contains (first + k))).length
    let d1 := d.onStore fun s =>
      (upTo 4).foldl (fun s k => s.writeImmBy true (first + k) ((s.bufBytes.drop (8 * k)).take 8)) { s with hostLost := false }
    if left = 0 then d1.storeEnd 9 0xD true else d1.onStore fun s => { s with busy := some (.provision left), op := 9 }

/-! ## Group writes on their way home (R241, R247, R248, R253) -/

/-- A host write that a failed group loses (R244). -/
def StoreState.hostLoss (s : StoreState) (host : Bool) : StoreState :=
  if host then { s with result := 0xD, hostLost := true } else s

/-- One group written home and read back. A read-back that differs beyond correction retires the group and writes the
same value to the spare (R241); without a free spare the write is lost (R244). A group that holds its write is lost no more
(R243). -/
def Dev.writeHome (d : Dev) (g : Nat) (b : List Byte) (ok host : Bool) : Dev :=
  let found := fun (s : StoreState) =>
    if s.failed.contains g then s.hostLoss host else { s with lost := s.lost.filter (· != g) }
  if ok then (d.cellWrite g b).onStore found
  else if d.store.spares = 0 then ((d.countWear g).retireGroup g 2).onStore fun s => s.hostLoss host
  else (((d.countWear g).retireGroup g 2).cellWrite g b).onStore found

/-- A host command whose last group or mark is written ends with OK, or with NO_SPARE where a write of it was lost. -/
def Dev.hostLanded (d : Dev) : Dev :=
  let code := if d.store.hostLost then 0xD else 1
  match d.store.busy with
  | some (.provision n) =>
    if n ≤ 1 then d.storeEnd 9 code true else d.onStore fun s => { s with busy := some (.provision (n - 1)) }
  | some .commit => d.storeEnd 8 code true
  | _ => d

/-- The record of a transaction (R247): its header, its index groups of four target groups each, and its data groups. The bytes of
a header are the sequence number, the count of groups and the owner (DESIGN CHOICE, log 77). -/
def JournalTxn.record (t : JournalTxn) : List (List Byte) :=
  let n := t.groups.length
  let index := (upTo ((n + 3) / 4)).map fun j =>
    (upTo 4).flatMap fun i => leBytes 2 ((t.groups.getD (4 * j + i) (0, [])).1)
  (leBytes 4 t.seq ++ leBytes 2 n ++ leBytes 2 t.owner) :: index ++ t.groups.map (·.2)

/-- The commit mark: the record's sequence number and its CRC-32 (R247). -/
def JournalTxn.mark (t : JournalTxn) : List Byte := leBytes 4 t.seq ++ leBytes 4 (crc32 t.record.flatten)

/-- The journal group that holds part `i` of a record, its mark being the last. -/
def JournalTxn.cell (t : JournalTxn) (i : Nat) : Nat := 0x1000 + (t.place + i) % 2048

/-- Group writes of a transaction: its record, its mark and its copies home. -/
def JournalTxn.writes (t : JournalTxn) : Nat := recordLength t.groups.length + 1 + t.groups.length

/-- Whether the commit mark is written. -/
def JournalTxn.marked (t : JournalTxn) : Bool := decide (recordLength t.groups.length < t.done)

/-- The next group write of a transaction: a group of its record, its mark, or a copy home (R247). -/
def JournalTxn.next (t : JournalTxn) : Nat × List Byte :=
  let r := recordLength t.groups.length
  if t.done < r then (t.cell t.done, t.record.getD t.done [])
  else if t.done = r then (t.cell r, t.mark)
  else t.groups.getD (t.done - r - 1) (0, [])

/-- A transaction after its next group write. -/
def JournalTxn.step (t : JournalTxn) (s : StoreState) : JournalTxn :=
  { t with done := t.done + 1, old := if t.marked then t.old ++ [(t.next.1, s.cells t.next.1)] else t.old }

/-- The front write of the queue is made and read back: an immediate group reaches home, and a transaction's next group is
written, which frees its record where it is the last (R247, R250). -/
def Dev.landFront (ok : Bool) (d : Dev) : Dev :=
  match d.store.queue with
  | [] => d
  | .imm g b host :: rest =>
    let d1 := (d.onStore fun s => { s with queue := rest }).writeHome g b ok host
    if host && g < 8 then d1.hostLanded else d1
  | .txn t :: rest =>
    let q := if t.writes ≤ t.done + 1 then rest else .txn (t.step d.store) :: rest
    let d1 := (d.onStore fun s => { s with queue := q }).writeHome t.next.1 t.next.2 ok (t.host && t.marked)
    if t.host && t.done = recordLength t.groups.length then d1.hostLanded else d1

/-- The group that the front of the queue writes next. -/
def StoreState.nextGroup (s : StoreState) : Nat :=
  match s.queue with
  | .imm g _ _ :: _ => g
  | .txn t :: _ => t.next.1
  | [] => 0

/-- `n` queued group writes made in order; those to the groups of `worn` fail their read-back. -/
def Dev.landMany (worn : List Nat) : Nat → Dev → Dev
  | 0, d => d
  | n + 1, d => Dev.landMany worn n (d.landFront (!worn.contains d.store.nextGroup))

/-- Group writes that a queue still needs. -/
def queueLength : List LarderWrite → Nat
  | [] => 0
  | .imm _ _ _ :: q => 1 + queueLength q
  | .txn t :: q => t.writes - t.done + queueLength q

/-- Every write queued is completed (R256). -/
def Dev.landAll (worn : List Nat) (d : Dev) : Dev := Dev.landMany worn (queueLength d.store.queue) d

/-- The wear counters are written back: block b in group 0x0C00 + b, 64 bits (R253; layout DEDUCED, log 23). -/
def Dev.wearWriteback (d : Dev) : Dev :=
  if d.ms % 65536 = 0 && d.ms ≠ 0 then
    d.onStore fun s => (upTo 480).foldl (fun s b => s.writeImm (0xC00 + b) (leBytes 8 (s.wearOf b))) s
  else d

end Sys2Proof.Machine
end

