-- ==== Sys2Proof/Machine/Ecc.lean ====
section
/-! DEFINITION. Uncorrectable errors in the pantry: which words hold one, and what a find of one reports (08 R227). -/

namespace Sys2Proof.Machine

/-- The spans of the CODE bodies and CONST blocks of the active image, with their pots. -/
def Dev.imageSpans (d : Dev) : List (Nat × Nat × Nat) :=
  let m := d.image
  let b := (d.store.bank m.bankB).bytes
  m.fns.map (fun f => (f.pot, f.offset, f.offset + f.code.length)) ++
    m.constBlocks.map (fun c =>
      let o := m.constOffset + Mem.readLE zeroByte b (m.constOffset + 8 * c.1) 4
      (c.1, o, o + c.2.length))

/-- An uncorrectable pantry word reported: for each pot whose bodies or blocks hold one of its bytes where all eight lie in
such, for every pot otherwise (R227). -/
def Dev.reportWord (d : Dev) (w : Nat) : Dev :=
  let spans := d.imageSpans
  let bytes := (upTo 8).map (8 * w + ·)
  let holders := fun (a : Nat) => (spans.filter (fun s => s.2.1 ≤ a && a < s.2.2)).map (·.1)
  if bytes.all (fun a => !(holders a).isEmpty) then
    let pots := bytes.flatMap holders
    ((upTo 16).filter pots.contains).foldl (fun d p => d.uncorrPot 1 p (8 * w)) d
  else d.uncorrShared 1 (8 * w)

/-- A word of a bank that has come to hold an uncorrectable error. -/
def Dev.fadeWord (b : Bool) (w : Nat) (d : Dev) : Dev :=
  let k := d.store.bank b
  if k.bad.contains w then d else d.onStore fun s => s.setBank b { k with bad := w :: k.bad }

/-- A find of an uncorrectable word of the active bank, by the patrol or a fetch: counted and reported once after each
start-up. -/
def Dev.foundWord (b : Bool) (w : Nat) (d : Dev) : Dev :=
  let k := d.store.bank b
  if k.reported.contains w then d
  else
    (d.onStore fun s => { s.setBank b { k with reported := w :: k.reported } with pUncorr := satInc s.pUncorr }).reportWord w

end Sys2Proof.Machine
end

