-- ==== Sys2Proof/Machine/Flags.lean ====
section
/-! DEFINITION. Rhamet arithmetic (R203 to R206): each result with the fault flag of Table 6.2. -/

namespace Sys2Proof.Machine

/-- A result and whether the execution counts as an arithmetic fault (R173). -/
abbrev Res := Word × Bool

/-- A result without a fault. -/
def res (w : Word) : Res := (w, false)

/-- A truth value as a u32 cell. -/
def cellOf (b : Bool) : Word := if b then 1 else 0

/-- An integer saturated to i32 or q16.16. -/
def satI (x : Int) : Word := BitVec.ofInt 32 (clampInt (-(2 ^ 31)) (2 ^ 31 - 1) x)

/-- An integer saturated to u32. -/
def satU (x : Int) : Word := BitVec.ofInt 32 (clampInt 0 (2 ^ 32 - 1) x)

/-- DIV.I: towards zero; divisor 0 gives 0 with a fault; the least value by −1 wraps with a fault (Table 7.4). -/
def divI (a b : Word) : Res :=
  if b = 0 then (0, true)
  else (BitVec.ofInt 32 (a.toInt.tdiv b.toInt), decide (a = 0x80000000#32 ∧ b = 0xFFFFFFFF#32))

/-- REM.I: the sign of the dividend; divisor 0 gives 0 with a fault. -/
def remI (a b : Word) : Res :=
  if b = 0 then (0, true) else res (BitVec.ofInt 32 (a.toInt.tmod b.toInt))

/-- DIV.U: truncated; divisor 0 gives 0 with a fault. -/
def divU (a b : Word) : Res := if b = 0 then (0, true) else res (BitVec.ofNat 32 (a.toNat / b.toNat))

/-- REM.U: divisor 0 gives 0 with a fault. -/
def remU (a b : Word) : Res := if b = 0 then (0, true) else res (BitVec.ofNat 32 (a.toNat % b.toNat))

/-- MUL.Q: nearest, ties to even, then saturated. -/
def mulQ (a b : Word) : Word := satI (divRoundEven (a.toInt * b.toInt) 65536)

/-- DIV.Q: nearest, ties to even, then saturated; divisor 0 gives 0 with a fault. -/
def divQ (a b : Word) : Res :=
  if b = 0 then (0, true)
  else
    let n := a.toInt * 65536
    res (satI (if 0 < b.toInt then divRoundEven n b.toInt.toNat else divRoundEven (-n) (-b.toInt).toNat))

/-- Two's complement sign removed, wrapping. -/
def absW (a : Word) : Word := if a.msb then -a else a

/-- The lesser of two by their signed values. -/
def minI (a b : Word) : Word := if a.toInt ≤ b.toInt then a else b

/-- The greater of two by their signed values. -/
def maxI (a b : Word) : Word := if a.toInt ≤ b.toInt then b else a

/-- The lesser of two by their unsigned values. -/
def minU (a b : Word) : Word := if a.toNat ≤ b.toNat then a else b

/-- The greater of two by their unsigned values. -/
def maxU (a b : Word) : Word := if a.toNat ≤ b.toNat then b else a

/-- Leading zeros of a word; 32 of 0. -/
def clz (a : Word) : Word := if a = 0 then 32 else BitVec.ofNat 32 (31 - a.toNat.log2)

/-- Bits set in a word. -/
def popc (a : Word) : Word := BitVec.ofNat 32 ((unpackBits 32 a.toNat).foldl (fun n b => n + b2n b) 0)

/-- A shift count: modulo 32 (Table 6.2). -/
def shiftCount (n : Word) : Nat := n.toNat % 32

/-- F2I: towards zero, saturated; NaN gives 0 with a fault. -/
def f2i (a : Word) : Res :=
  let r := fToInt .trunc 0 (-(2 ^ 31)) (2 ^ 31 - 1) a
  (BitVec.ofInt 32 r.1, r.2)

/-- F2U: towards zero, saturated; NaN gives 0 with a fault. -/
def f2u (a : Word) : Res :=
  let r := fToInt .trunc 0 0 (2 ^ 32 - 1) a
  (BitVec.ofInt 32 r.1, r.2)

/-- F2Q: nearest, ties to even, saturated; NaN gives 0 with a fault. -/
def f2q (a : Word) : Res :=
  let r := fToInt .even 16 (-(2 ^ 31)) (2 ^ 31 - 1) a
  (BitVec.ofInt 32 r.1, r.2)

end Sys2Proof.Machine
end

