-- ==== Sys2Proof/Machine/Operands.lean ====
section
/-! DEFINITION. What a Rhamet instruction works on (06, 07): the top frame of a task's open window, its stack, the
worktop window, the constants, and the lists in which a release stages its effects. -/

namespace Sys2Proof.Machine

/-- Bytes of the worktop: 256 pages of 4 KiB. -/
def worktopSize : Nat := 0x100000

/-- The pot of a task; 0xFF for an unused task. -/
def Dev.potOf (d : Dev) (t : Nat) : Nat := match d.image.route t with | some r => r.pot | none => 0xFF

/-- The code words that an instruction's bytes lie in and that hold an uncorrectable error (R227). -/
def Dev.fetchBad (d : Dev) (fr : Frame) (imm : Nat) : List Nat :=
  match d.image.fns[fr.fn]? with
  | some f =>
    (d.store.bank d.image.bankB).bad.filter (fun w =>
      decide ((f.offset + fr.pc) / 8 ≤ w) && decide (w ≤ (f.offset + fr.pc + imm) / 8))
  | none => []

/-- A release abandoned because a fetch met uncorrectable words, each found now (R227). -/
def Dev.fetchFail (d : Dev) (t : Fin 64) (w : Window) (ws : List Nat) : Dev :=
  let d1 := { d with cycle := { d.cycle with tasks := d.cycle.tasks.set t { d.cycle.tasks[t] with window := some { w with status := .stuck } } } }
  Dev.settle d (ws.foldl (fun d x => d.foundWord d.image.bankB x) d1).logFlush

/-- One instruction of a task that may change its frames: a code word with an uncorrectable error abandons the release
(R227); otherwise it runs where the task has an open window that still runs
and whose top frame holds the cells it takes; it consumes its work units (R181), and the next instruction is the one
behind its immediate. PEAK stops at its greatest value (DESIGN CHOICE, log 162). -/
def Dev.rhRaw (d : Dev) (t : Fin 64) (imm cost need : Nat) (f : Window → Frame → List Frame → Window) : Dev :=
  let ts := d.cycle.tasks[t]
  match ts.window with
  | none => d
  | some w =>
    match w.status, w.frames with
    | .running, fr :: rest =>
      if !(d.fetchBad fr imm).isEmpty then d.fetchFail t w (d.fetchBad fr imm)
      else if need ≤ fr.stack.length then
        let w1 := { w with units := w.units + cost }
        let w2 := f w1 { fr with pc := fr.pc + 1 + imm } rest
        let pk := if ts.peak.toNat < w1.units then BitVec.ofNat 24 (min w1.units 0xFFFFFF) else ts.peak
        { d with cycle := { d.cycle with tasks := d.cycle.tasks.set t { ts with window := some w2, peak := pk } } }
      else d
    | _, _ => d

/-- One instruction that changes its top frame and what its release has staged. -/
def Dev.rh (d : Dev) (t : Fin 64) (imm cost need : Nat) (f : Window → Frame → Window × Frame) : Dev :=
  d.rhRaw t imm cost need fun w fr rest =>
    let r := f w fr
    { r.1 with frames := r.2 :: rest }

/-- One instruction that reads pantry words beside its own code: those that hold an uncorrectable error abandon the release, once
its code is fetched (R227). -/
def Dev.rhGuard (d : Dev) (t : Fin 64) (imm : Nat) (bad : List Nat) (cost need : Nat)
    (f : Window → Frame → Window × Frame) : Dev :=
  match d.cycle.tasks[t].window with
  | none => d
  | some w =>
    match w.status, w.frames with
    | .running, fr :: _ =>
      if (d.fetchBad fr imm).isEmpty && !bad.isEmpty then d.fetchFail t w bad else d.rh t imm cost need f
    | _, _ => d

/-- A fault count of the release (R173). -/
def Window.arith (w : Window) (fault : Bool) : Window :=
  if fault then { w with staged := { w.staged with arith := w.staged.arith + 1 } } else w

/-- Worktop accesses outside the window, counted for the commit (R105). -/
def Window.memFault (w : Window) (n : Nat) : Window :=
  { w with staged := { w.staged with memFault := w.staged.memFault + n } }

/-- An instruction that only pushes a cell. -/
def Dev.rhPush (d : Dev) (t : Fin 64) (imm cost : Nat) (v : Window → Frame → Word) : Dev :=
  d.rh t imm cost 0 fun w fr => (w, { fr with stack := v w fr :: fr.stack })

/-- An instruction that replaces its top cell. -/
def Dev.rhUn (d : Dev) (t : Fin 64) (cost : Nat) (f : Word → Res) : Dev :=
  d.rh t 0 cost 1 fun w fr =>
    match fr.stack with
    | a :: st => (w.arith (f a).2, { fr with stack := (f a).1 :: st })
    | [] => (w, fr)

/-- An instruction that replaces its two top cells, b on top, by one. -/
def Dev.rhBin (d : Dev) (t : Fin 64) (imm cost : Nat) (f : Word → Word → Res) : Dev :=
  d.rh t imm cost 2 fun w fr =>
    match fr.stack with
    | b :: a :: st => (w.arith (f a b).2, { fr with stack := (f a b).1 :: st })
    | _ => (w, fr)

/-- An instruction that pops one cell and stages an effect. -/
def Dev.rhPop (d : Dev) (t : Fin 64) (imm cost : Nat) (f : Word → Window → Window) : Dev :=
  d.rh t imm cost 1 fun w fr =>
    match fr.stack with
    | a :: st => (f a w, { fr with stack := st })
    | [] => (w, fr)

/-- An instruction that leaves the stack alone and stages an effect. -/
def Dev.rhStage (d : Dev) (t : Fin 64) (imm cost : Nat) (f : Staged → Staged) : Dev :=
  d.rh t imm cost 0 fun w fr => ({ w with staged := f w.staged }, fr)

/-! ## The worktop and the constants -/

/-- The worktop address of an access of `n` bytes at `a` in the window of pot `p`; none outside it (R105, R179). -/
def Dev.winAddr (d : Dev) (p a n : Nat) : Option Nat :=
  if a % n ≠ 0 then none
  else if p = 0 then (if a + n ≤ worktopSize then some a else none)
  else
    let w := d.image.window p
    if a + n ≤ w.pages * 4096 then some (w.base * 4096 + a) else none

/-- The newest staged byte of an address, newest first. -/
def stagedByte (l : List (Nat × Byte)) (a : Nat) : Option Byte := (l.find? (fun p => p.1 == a)).map (·.2)

/-- One byte as the task sees it: its own latest store, else the worktop as it stood at the release (R101). -/
def Window.byteAt (w : Window) (a : Nat) : Byte :=
  match stagedByte w.staged.stores a with
  | some b => b
  | none => Mem.read zeroByte w.latch.worktop a

/-- `n` bytes as the task sees them, little-endian (R1). -/
def Window.loadLE (w : Window) (a n : Nat) : Nat := leNat ((upTo n).map (fun i => w.byteAt (a + i)))

/-- `n` bytes of a value staged for the commit, the newest at the head. -/
def Window.storeLE (w : Window) (a n : Nat) (v : Word) : Window :=
  let new := (leBytes n v.toNat).zipIdx.map (fun p => (a + p.2, p.1))
  { w with staged := { w.staged with stores := new ++ w.staged.stores } }

/-- A checked load: outside the window it reads 0 and counts (R105). -/
def Dev.winLoad (d : Dev) (p n : Nat) (a : Word) (w : Window) : Window × Nat :=
  match d.winAddr p a.toNat n with
  | some x => (w, w.loadLE x n)
  | none => (w.memFault 1, 0)

/-- A checked store: outside the window it is discarded and counts (R105). -/
def Dev.winStore (d : Dev) (p n : Nat) (a v : Word) (w : Window) : Window :=
  match d.winAddr p a.toNat n with
  | some x => w.storeLE x n v
  | none => w.memFault 1

/-- A load instruction of `n` bytes, its value extended by `ext`. -/
def Dev.rhLoad (d : Dev) (t : Fin 64) (imm n : Nat) (ext : Nat → Word) : Dev :=
  d.rh t imm 4 1 fun w fr =>
    match fr.stack with
    | a :: st =>
      let r := d.winLoad (d.potOf t) n a w
      (r.1, { fr with stack := ext r.2 :: st })
    | [] => (w, fr)

/-- A store instruction of `n` bytes: the address below the value. -/
def Dev.rhStore (d : Dev) (t : Fin 64) (n : Nat) : Dev :=
  d.rh t 0 3 2 fun w fr =>
    match fr.stack with
    | v :: a :: st => (d.winStore (d.potOf t) n a v w, { fr with stack := st })
    | _ => (w, fr)

/-- The constant block of a pot (R180). -/
def Dev.constBlock (d : Dev) (p : Nat) : List Byte :=
  match d.image.constBlocks.find? (fun b => b.1 == p) with
  | some b => b.2
  | none => []

/-- The words of the pot's block that a load of `n` bytes at offset `o` reads and that hold an uncorrectable error (R227). -/
def Dev.constWords (d : Dev) (p o n : Nat) : List Nat :=
  let k := d.store.bank d.image.bankB
  let at' := d.image.constOffset + Mem.readLE zeroByte k.bytes (d.image.constOffset + 8 * p) 4 + o
  if o % n = 0 && o + n ≤ (d.constBlock p).length then
    k.bad.filter (fun w => decide (at' / 8 ≤ w) && decide (w ≤ (at' + n - 1) / 8))
  else []

/-- Those words for the load that a task is about to make. -/
def Dev.constBad (d : Dev) (t : Fin 64) (n : Nat) : List Nat :=
  match (d.cycle.tasks[t].window).bind (fun w => w.frames.head?.bind (fun fr => fr.stack.head?)) with
  | some a => d.constWords (d.potOf t) a.toNat n
  | none => []

/-- A constant load of `n` bytes: misaligned or outside the block it returns 0 and counts (R180); a word of it with an
uncorrectable error abandons the release, as a code word does (R227; DEDUCED, log 63). -/
def Dev.rhConst (d : Dev) (t : Fin 64) (imm n : Nat) : Dev :=
  d.rhGuard t imm (d.constBad t n) 3 1 fun w fr =>
    match fr.stack with
    | a :: st =>
      let blk := d.constBlock (d.potOf t)
      let o := a.toNat
      if o % n = 0 && o + n ≤ blk.length then
        (w, { fr with stack := BitVec.ofNat 32 (leNat ((blk.drop o).take n)) :: st })
      else
        ({ w with staged := { w.staged with constF := w.staged.constF + 1 } }, { fr with stack := 0 :: st })
    | [] => (w, fr)

/-! ## What a latch holds -/

/-- The latched input element; 0 with no status where the latch names none. -/
def Latch.input (l : Latch) (k : Nat) : LatchedIn :=
  match l.inputs.find? (fun e => e.key == k) with
  | some e => e
  | none => { key := k, value := 0, prev := 0, status := 0 }

/-- What a latch delivered from a capture stream. -/
def Latch.cap (l : Latch) (s : Nat) : LatchedCap :=
  match l.caps.find? (fun c => c.stream == s) with
  | some c => c
  | none => { stream := s, entries := [], further := 0 }

/-- The copy of a hatch; 0 and generation 0 where the latch holds none. -/
def Latch.hatch (l : Latch) (h : Nat) : LatchedHatch :=
  match l.hatches.find? (fun c => c.hatch == h) with
  | some c => c
  | none => { hatch := h, bytes := [], gen := 0 }

/-- The two words of a capture entry (R212). -/
def capWords (e : CapEntry) : List Word :=
  [BitVec.ofNat 32 e.si, BitVec.ofNat 32 (e.si / 2 ^ 32 % 2 ^ 31 + b2n e.rise * 2 ^ 31)]

end Sys2Proof.Machine
end

