-- ==== Sys2Proof/Machine/Face.lean ====
section
/-! DEFINITION. The face driver: frames and states, scan memory, rectangles and stencils, changed lines, ageing
compensation, forward-voltage passes, headroom and the corner glyph (17, R502 to R534). -/

namespace Sys2Proof.Machine

/-- An operation of the face driver on the whole device. -/
def Dev.onFace (d : Dev) (f : FaceState → FaceState) : Dev := { d with face := f d.face }

/-! ## Configuration (Table 17.1) -/

/-- The face payload; empty where the image has none. -/
def Image.faceCfg (m : Image) : List Byte :=
  match payloadOf m.scripts 0x700 with
  | some p => p.data
  | none => []

/-- The face pot: the owner of channel 0x060; 0xFF where there is none. -/
def Image.facePot (m : Image) : Nat := m.owner 0x060

/-- Whether a pixel exists (R502). -/
def pixelExists (c : List Byte) (k : Nat) : Bool := decide (k % 96 < byteAt c 0) && decide (k / 96 < byteAt c 1)

/-- The existing pixels in ascending 96y + x. -/
def facePixels (c : List Byte) : List Nat :=
  (upTo (byteAt c 1)).flatMap fun y => (upTo (byteAt c 0)).map fun x => 96 * y + x

/-- FACE_SAFE_LEVEL (Table 8.7); its default where the group's reserved bytes are not 0 (R270). -/
def Dev.faceSafe (d : Dev) : Nat :=
  let g := d.store.group 0x84
  if leAt g 1 7 = 0 then byteAt g 0 else 0x40

/-- The level of a uniform code (R506). -/
def uniformLevel (u : Nat) : Nat := natDivRne (min u 255 * 4095) 255

/-- A value put in a sorted list of the values that differ from `z`. -/
def levelPut (z k v : Nat) : List (Nat × Nat) → List (Nat × Nat)
  | [] => if v = z then [] else [(k, v)]
  | (a, w) :: l =>
    if a < k then (a, w) :: levelPut z k v l
    else
      let rest := if a = k then l else (a, w) :: l
      if v = z then rest else (k, v) :: rest

/-- The value of a key; `z` where the list has none. -/
def levelGet (z : Nat) (l : List (Nat × Nat)) (k : Nat) : Nat := (mapFind l k).getD z

/-- Pixels drawn into scan memory, a later one over an earlier (R523). -/
def FaceState.draw (f : FaceState) (ps : List (Nat × Nat)) : FaceState :=
  { f with scan := ps.foldl (fun s p => levelPut 0 p.1 p.2 s) f.scan }

/-- Drawing while PD15 is usable; scan memory is 0 again when it next becomes so (R513). -/
def Dev.faceDraw (d : Dev) (ps : List (Nat × Nat)) : Dev := if d.pd 15 then d.onFace (·.draw ps) else d

/-- The number of pixel (x, y); one past the face, which no region holds, where x lies beyond its 96 columns. -/
def pixelAt (x y : Nat) : Nat := if x < 96 then 96 * y + x else 1536

/-- The pixels of [x0, x1) × [y0, y1), row after row. -/
def areaPixels (x0 x1 y0 y1 : Nat) : List Nat :=
  (upTo (y1 - y0)).flatMap fun y => (upTo (x1 - x0)).map fun x => pixelAt (x0 + x) (y0 + y)

/-- Whether a pixel lies in a region. -/
def FaceRegion.holds (r : FaceRegion) (k : Nat) : Bool :=
  decide (r.x0 ≤ k % 96) && decide (k % 96 < r.x1) && decide (r.y0 ≤ k / 96) && decide (k / 96 < r.y1)

/-! ## Operations (R515 to R520) -/

/-- The area of an operation: its rectangle, or the region that its stencil names. -/
def Dev.opArea (d : Dev) (o : FaceOp) : Nat × Nat × Nat × Nat :=
  match o.work with
  | .rect x0 x1 y0 y1 _ => (x0, x1, y0, y1)
  | .stencil _ =>
    match d.image.faceRegion o.region with
    | some r => (r.x0, r.x1, r.y0, r.y1)
    | none => (0, 0, 0, 0)

/-- Whether two areas share a pixel. -/
def areasMeet (a b : Nat × Nat × Nat × Nat) : Bool :=
  decide (a.1 < b.2.1) && decide (b.1 < a.2.1) && decide (a.2.2.1 < b.2.2.2) && decide (b.2.2.1 < a.2.2.2)

/-- A 32-bit word of a pot's window as the device reads it, and whether it lies outside (R101, R105). -/
def Dev.devWord (d : Dev) (p a : Nat) : Nat × Bool :=
  match d.winAddr p a 4 with
  | some x => (Mem.readLE zeroByte d.cycle.worktop x 4, false)
  | none => (0, true)

/-- Fault counts that the device adds to LANE.POTCNT.MEMFAULT of a pot. -/
def Dev.addMemFault (d : Dev) (p n : Nat) : Dev :=
  { d with cycle := { d.cycle with pots := vupdN d.cycle.pots p (fun x => { x with memFault := satAdd x.memFault n }) } }

/-- The stencil payload of a key; empty where there is none. -/
def Image.stencil (m : Image) (k : Nat) : List Byte :=
  match payloadOf m.stencils k with
  | some p => p.data
  | none => []

/-- The waymarks that an operation takes (R515). -/
def opWaymarks (o : FaceOp) : Nat :=
  match o.work with
  | .rect x0 x1 y0 y1 _ => ((x1 - x0) * (y1 - y0) + 511) / 512
  | .stencil _ => 1

/-- An operation started: a rectangle reads its source, a stencil its parameters (R518, R523). -/
def Dev.opStart (d : Dev) (o : FaceOp) : Dev × FaceOp :=
  match o.work with
  | .rect x0 x1 y0 y1 src =>
    let px := areaPixels x0 x1 y0 y1
    let first := src / 4
    let last := (src + 2 * px.length - 1) / 4
    let bad := ((upTo (last + 1 - first)).filter (fun i => (d.devWord o.pot (4 * (first + i))).2)).length
    let lv := px.zipIdx.map fun p =>
      let a := src + 2 * p.2
      (p.1, (d.devWord o.pot (a / 4 * 4)).1 / 2 ^ (8 * (a % 4)) % 4096)
    (d.addMemFault o.pot bad, { o with left := some (opWaymarks o), pixels := lv })
  | .stencil k =>
    let base := leAt (d.image.stencil k) 2 4
    let ws := (upTo 4).map (fun i => d.devWord o.pot (base + 4 * i))
    (d.addMemFault o.pot (ws.filter (·.2)).length,
      { o with left := some 1, run := some { step := 0, ink := 4095, params := ws.map (·.1) } })

/-- Whether a waiting operation may start: no earlier operation of its pot that has not completed meets its area, and
fewer than four are in flight (R516). -/
def Dev.opFree (d : Dev) (before : List FaceOp) (o : FaceOp) : Bool :=
  let own := before.filter (fun x => x.pot == o.pot)
  !own.any (fun x => areasMeet (d.opArea x) (d.opArea o)) && decide ((own.filter (·.left.isSome)).length < 4) &&
    own.all (·.left.isSome)

/-- FACE_OPERATION_START (R516): the waiting operations that may start, in the order queued. -/
def Dev.faceStart (d : Dev) : Dev :=
  let r := d.face.ops.foldl (fun (acc : Dev × List FaceOp) o =>
    if o.left.isNone && acc.1.opFree acc.2 o then
      let s := acc.1.opStart o
      (s.1, acc.2 ++ [s.2])
    else (acc.1, acc.2 ++ [o])) (d, [])
  r.1.onFace fun f => { f with ops := r.2, done := [] }

/-! ## Stencils (R522 to R524) -/

/-- Rows of the digits 0 to 9 (Table 17.7). -/
def digitRows : List (List Nat) :=
  [[7, 5, 5, 5, 7], [2, 6, 2, 2, 7], [7, 1, 7, 4, 7], [7, 1, 7, 1, 7], [5, 5, 7, 1, 1], [7, 4, 7, 1, 7], [7, 4, 7, 5, 7],
   [7, 1, 1, 1, 1], [7, 5, 7, 5, 7], [7, 5, 7, 1, 7]]

/-- Rows of the arrows left, right, up, down. -/
def arrowRows : List (List Nat) :=
  [[0x04, 0x08, 0x1F, 0x08, 0x04], [0x04, 0x02, 0x1F, 0x02, 0x04], [0x04, 0x0E, 0x15, 0x04, 0x04],
   [0x04, 0x04, 0x15, 0x0E, 0x04]]

/-- A glyph of `w` columns drawn at a place: set pixels take the ink, the others 0. -/
def glyphPixels (x y w ink : Nat) (rows : List Nat) : List (Nat × Nat) :=
  rows.zipIdx.flatMap fun r => (upTo w).map fun i => (pixelAt (x + i) (y + r.2), if bitOf r.1 (w - 1 - i) then ink else 0)

/-- The glyph rows of cell `i` of `w` of a number: blank for a leading zero, 9 in every cell where it does not fit. -/
def cellRows (v w i : Nat) : List Nat :=
  if 10 ^ w ≤ v then digitRows.getD 9 []
  else
    let p := 10 ^ (w - 1 - i)
    if v < p && i + 1 < w then [0, 0, 0, 0, 0] else digitRows.getD (v / p % 10) []

/-- One step of a run: the run after it and what it draws (Table 17.6). -/
def stencilStep (b : List Byte) (r : StencilRun) : StencilRun × List (Nat × Nat) :=
  let o := 8 + 8 * r.step
  let x := byteAt b (o + 1)
  let y := byteAt b (o + 2)
  let w := byteAt b (o + 3)
  let h := byteAt b (o + 4)
  let arg := leAt b (o + 6) 2
  let n := { r with step := r.step + 1 }
  let par := r.params.getD (arg % 4) 0
  if byteAt b o = 0x01 then
    ({ n with ink := if byteAt b (o + 5) % 2 = 1 then min par 4095 else arg % 4096 }, [])
  else if byteAt b o = 0x02 then (n, (areaPixels x (x + w) y (y + h)).map (fun k => (k, r.ink)))
  else if byteAt b o = 0x03 then
    (n, ((areaPixels x (x + w) y (y + h)).zipIdx.filter (fun p => bitOf (byteAt b (arg + p.2 / 8)) (p.2 % 8))).map
      (fun p => (p.1, r.ink)))
  else if byteAt b o = 0x04 then
    (n, (upTo w).flatMap fun i => glyphPixels (x + 4 * i) y 3 r.ink (cellRows par w i))
  else if byteAt b o = 0x05 then (n, glyphPixels x y 5 r.ink (arrowRows.getD (arg % 4) []))
  else ({ n with step := byteAt b 1 }, [])

/-- Whether a run has steps left. -/
def stencilOpen (b : List Byte) (r : StencilRun) : Bool := decide (r.step < byteAt b 1)

/-- One step of an operation's run; what lies outside its region, or outside the face, is skipped. -/
def Dev.opStep (d : Dev) (k : Nat) (o : FaceOp) : FaceOp :=
  match o.run, d.image.faceRegion o.region with
  | some r, some g =>
    let b := d.image.stencil k
    if stencilOpen b r then
      let s := stencilStep b r
      { o with run := some s.1, pixels := o.pixels ++ s.2.filter (fun p => g.holds p.1) }
    else o
  | _, _ => o

/-- The steps that a run has left, at most `n`. -/
def Dev.opSteps (d : Dev) (k : Nat) : Nat → FaceOp → FaceOp
  | 0, o => o
  | n + 1, o => Dev.opSteps d k n (d.opStep k o)

/-- An operation with everything it draws. -/
def Dev.opWhole (d : Dev) (o : FaceOp) : FaceOp :=
  match o.work with
  | .rect .. => o
  | .stencil k => d.opSteps k 32 o

/-- The operation number of the next step of a run; none where the run has ended. -/
def Dev.nextOp (d : Dev) (o : FaceOp) : Option Nat :=
  match o.work, o.run with
  | .stencil k, some r =>
    let b := d.image.stencil k
    if stencilOpen b r then some (byteAt b (8 + 8 * r.step)) else none
  | _, _ => none

/-- A stencil step as an event of its own: the run in flight of region `r` takes its next step where that is `op`. -/
def Dev.stencilEvent (op : Nat) (r : Fin 16) (d : Dev) : Dev :=
  d.onFace fun f =>
    { f with ops := f.ops.map (fun o =>
        if o.region = r.val && o.left.isSome && d.nextOp o = some op then
          (match o.work with
            | .stencil k => d.opStep k o
            | .rect .. => o)
        else o) }

/-- STENCIL_END. -/
def Dev.stencilEnd (r : Fin 16) (d : Dev) : Dev := d.stencilEvent 0x00 r

/-- INK. -/
def Dev.stencilInk (r : Fin 16) (d : Dev) : Dev := d.stencilEvent 0x01 r

/-- FILL. -/
def Dev.stencilFill (r : Fin 16) (d : Dev) : Dev := d.stencilEvent 0x02 r

/-- MASK. -/
def Dev.stencilMask (r : Fin 16) (d : Dev) : Dev := d.stencilEvent 0x03 r

/-- DIGITS. -/
def Dev.stencilDigits (r : Fin 16) (d : Dev) : Dev := d.stencilEvent 0x04 r

/-- ARROW. -/
def Dev.stencilArrow (r : Fin 16) (d : Dev) : Dev := d.stencilEvent 0x05 r

/-! ## Completion, commits and leaving RUN -/

/-- An operation completed: its pixels change together, and it counts (R515). -/
def Dev.opFinish (d : Dev) (o : FaceOp) : Dev :=
  (d.faceDraw (d.opWhole o).pixels).onFace fun f =>
    { f with opsDone := satInc f.opsDone, done := o.region :: f.done }

/-- Step 4, before the commits: a changed-lines copy and the operations due complete, in the order queued (R515, R521). -/
def Dev.faceComplete (d : Dev) : Dev :=
  let d1 := (d.faceDraw d.face.transfer).onFace fun f => { f with transfer := [] }
  let r := d1.face.ops.foldl (fun (acc : Dev × List FaceOp) o =>
    match o.left with
    | some n => if n ≤ 1 then (acc.1.opFinish o, acc.2) else (acc.1, acc.2 ++ [{ o with left := some (n - 1) }])
    | none => (acc.1, acc.2 ++ [o])) (d1, [])
  r.1.onFace fun f => { f with ops := r.2 }

/-- FACE_OPERATION_COMPLETE (R515): the first operation in flight of a pot whose last waymark is running. -/
def Dev.faceOpComplete (p : Fin 16) (d : Dev) : Dev :=
  match d.face.ops.find? (fun o => o.pot == p.val && o.left == some 1) with
  | some o => (d.opFinish o).onFace fun f => { f with ops := f.ops.erase o }
  | none => d

/-- Status of a region changed. -/
def FaceState.onStat (f : FaceState) (r : Nat) (g : FaceStat → FaceStat) : FaceState :=
  { f with stats := vupdN f.stats r g }

/-- A request discarded with REJECT (R517). -/
def FaceState.reject (f : FaceState) (r : Nat) : FaceState :=
  { f.onStat r (fun s => { s with reject := true }) with rejects := satInc f.rejects }

/-- An operation queued, unless its pot holds 16 already (R517). -/
def FaceState.queueOp (f : FaceState) (o : FaceOp) : FaceState :=
  if 16 ≤ (f.ops.filter (fun x => x.pot == o.pot)).length then f.reject o.region
  else { f with ops := f.ops ++ [o] }

/-- An abort of a region's operations at a commit (R519). -/
def FaceState.abort (f : FaceState) (r : Nat) : FaceState :=
  let g := { f with ops := f.ops.filter (fun o => o.region ≠ r) }
  if f.done.contains r then g.onStat r (fun s => { s with dba := true }) else g

/-- One F.RECT at its commit (R219, R518); `ok` tells that it is among the first four. -/
def Dev.rectCommit (d : Dev) (p r a : Nat) (ok : Bool) : Dev :=
  let w0 := d.devWord p a
  let w1 := d.devWord p (a + 4)
  let d1 := (if ok then d.addMemFault p (b2n w0.2 + b2n w1.2) else d).onFace fun f => f.onStat r (fun s => { s with dba := false })
  let x0 := w0.1 % 256
  let x1 := w0.1 / 256 % 256
  let y0 := w0.1 / 65536 % 256
  let y1 := w0.1 / 16777216 % 256
  let inside := match d.image.faceRegion r with
    | some g => decide (x0 < x1) && decide (y0 < y1) && decide (g.x0 ≤ x0) && decide (x1 ≤ g.x1) && decide (g.y0 ≤ y0) &&
        decide (y1 ≤ g.y1)
    | none => false
  d1.onFace fun f =>
    if ok && inside && w1.1 % 2 = 0 then
      f.queueOp { pot := p, region := r, work := .rect x0 x1 y0 y1 w1.1, left := none, pixels := [], run := none }
    else f.reject r

/-- One F.STEN at its commit. -/
def Dev.stenCommit (d : Dev) (p k : Nat) (ok : Bool) : Dev :=
  let r := byteAt (d.image.stencil k) 0
  d.onFace fun f =>
    let f1 := f.onStat r (fun s => { s with dba := false })
    if ok then f1.queueOp { pot := p, region := r, work := .stencil k, left := none, pixels := [], run := none }
    else f1.reject r

/-- The regions of a pot. -/
def Image.potRegions (m : Image) (p : Nat) : List Nat :=
  (upTo 16).filter fun r => match m.faceRegion r with | some g => g.owner == p | none => false

/-- The face effects of a commit (R222 7): aborts, rectangles in the order executed, stencils. -/
def Dev.faceCommit (d : Dev) (p : Nat) (s : Staged) : Dev :=
  let d0 := d.onFace fun f => (d.image.potRegions p).foldl (fun f r => f.onStat r (fun s => { s with reject := false })) f
  let d1 := s.fAborts.foldl (fun d r => d.onFace (·.abort r)) d0
  let d2 := s.fRects.zipIdx.foldl (fun d q => d.rectCommit p q.1.1 q.1.2 (decide (q.2 < 4))) d1
  s.fStens.zipIdx.foldl (fun d q => d.stenCommit p q.1 (decide (q.2 < 4))) d2

/-- A pot leaves RUN (R520): its operations are discarded and its regions take the keep-lit level. -/
def Dev.faceLeave (d : Dev) (p : Nat) : Dev :=
  let d1 := d.onFace fun f => { f with ops := f.ops.filter (fun o => o.pot ≠ p) }
  let lv := uniformLevel d.faceSafe
  (d.image.potRegions p).foldl (fun d r =>
    match d.image.faceRegion r with
    | some g => d.faceDraw ((areaPixels g.x0 g.x1 g.y0 g.y1).map (fun k => (k, lv)))
    | none => d) d1

/-- F.STAT of a region (Table 7.12). -/
def FaceState.stat (f : FaceState) (r : Nat) : Nat :=
  let s := vgetD f.stats r { reject := false, dba := false }
  b2n (f.ops.any (fun o => o.region == r)) + 2 * b2n s.reject + 4 * b2n s.dba

/-! ## Changed lines (R521) -/

/-- A byte of a pot's window as the device reads it. -/
def Dev.devByte (d : Dev) (p a : Nat) : Byte :=
  match d.winAddr p a 1 with
  | some x => Mem.read zeroByte d.cycle.worktop x
  | none => 0

/-- Whether the face pot writes a pixel through changed-lines mode (R514). -/
def Dev.facePotWrites (d : Dev) (k : Nat) : Bool :=
  let own := (upTo 16).filterMap (fun r => (d.image.faceRegion r).bind (fun g => if g.holds k then some g.owner else none))
  own.isEmpty || own.contains d.image.facePot

/-- One line of the changed-lines scan. -/
def Dev.scanLine (d : Dev) (c : List Byte) (y : Nat) : Dev :=
  let base := leAt c 0x10 4 + 192 * y
  let bs := (upTo 192).map (fun i => d.devByte d.image.facePot (base + i))
  let crc := crc32 bs
  if mapFind d.face.crcs y = some crc then d
  else
    let px := (upTo 96).filterMap fun x =>
      let k := 96 * y + x
      if d.facePotWrites k then some (k, (byteAt bs (2 * x) + 256 * byteAt bs (2 * x + 1)) % 4096) else none
    d.onFace fun f => { f with crcs := mapPut f.crcs y crc, transfer := f.transfer ++ px }

/-- CHANGED_LINES_SCAN at boundary UPD_WM, after step 4. -/
def Dev.faceScan (d : Dev) : Dev :=
  let c := d.image.faceCfg
  if byteAt c 0x0C = 1 && d.time.wm = byteAt c 0x0D && d.pd 15 && d.image.facePot < 16 then
    (upTo (byteAt c 1)).foldl (fun d y => d.scanLine c y) d
  else d

/-! ## Ageing compensation (R525 to R527) -/

/-- The stress counter of a pixel. -/
def Dev.stress (d : Dev) (k : Nat) : Nat := d.store.groupLE (0x0900 + k / 2) (4 * (k % 2)) 4

/-- A pixel's gain (R527). -/
def faceGain (c : List Byte) (s : Nat) : Nat :=
  let h := leAt c 0x1C 4
  if h = 0 then 4096 else min (leAt c 0x1A 2) (natDivRne (4096 * (h + s)) h)

/-- The gains set from the stress counters. -/
def Dev.faceGains (d : Dev) : Dev :=
  let c := d.image.faceCfg
  let gs := (facePixels c).map (fun k => (k, faceGain c (d.stress k)))
  d.onFace fun f =>
    { f with gains := gs.filter (fun p => p.2 ≠ 4096), gainCap := gs.any (fun p => p.2 == leAt c 0x1A 2) }

/-- One temperature of R525, taken at a milestone whose count is a multiple of 16. -/
def Dev.faceTemp (d : Dev) : Dev :=
  if d.time.count.toNat % 16 ≠ 0 then d
  else
    let src := byteAt d.image.faceCfg 0x0E
    let ch := 0x020 + (src - 1)
    let die := d.time.dieTemp * 65536
    let s :=
      if src = 0 then (die, false)
      else if mapGet d.cycle.inputs (elemKey ch 2) ≠ 0 || d.offline ch || !d.sense.delivered then (die, true)
      else ((mapGet d.cycle.inputs (elemKey ch 0)).toInt * 100, false)
    d.onFace fun f => { f with temps := (s :: f.temps).take 17 }

/-- The acceleration A of R525 for a mean temperature in 1/6,553,600 °C over `n` samples. -/
def faceAccel (c : List Byte) (sum : Int) (n : Nat) : Dbl :=
  let t := dblRat sum (6553600 * n)
  dblExp (dblMul (dblDiv (dblDiv (dblRat (leAt c 0x18 2) 1) (dblRat 1000 1)) (dblRat 8617333 (10 ^ 11)))
    (dblSub (dblDiv (dblRat 1 1) (dblRat 35815 100)) (dblDiv (dblRat 1 1) (dblAdd t (dblRat 27315 100)))))

/-- F and S of one pixel at a flush. -/
def faceFlushPixel (c : List Byte) (a : Dbl) (e : Nat) (f : DWord) (s : Nat) : DWord × Nat :=
  let q := dblMul (dblDiv (dblMul (dblMul (dblRat e 1) (dblRat ((leAt c 4 2 : Int) - 3) 1)) (dblRat 1 1000000))
    (dblRat (4096 * 255) 1)) a
  let g := dblAdd (dblOf f) q
  let w := dblFloor g
  (dblBits (dblSub g (dblScaled w 0)), min 0xFFFFFFFF (s + w.toNat))

/-- The stress groups of one half of the rows, with the new counters. -/
def Dev.stressGroups (d : Dev) (new : List (Nat × Nat)) (lo : Nat) : List (Nat × List Byte) :=
  (upTo 384).map fun i =>
    let g := lo + i
    let k := 2 * (g - 0x0900)
    let v := fun (j : Nat) => match mapFind new j with | some s => s | none => d.stress j
    (g, leBytes 4 (v k) ++ leBytes 4 (v (k + 1)))

/-- STRESS_FLUSH (R525, R526) at the boundary of a milestone whose count is a multiple of 256. -/
def Dev.stressFlush (d : Dev) : Dev :=
  let c := d.image.faceCfg
  if !d.pd 15 || d.image.facePot ≥ 16 || d.time.count.toNat % 256 ≠ 0 || d.time.wm ≠ 0 then d
  else
    let ts := (d.face.temps.drop 1).take 16
    let sum := if ts.isEmpty then d.time.dieTemp * 65536 else ts.foldl (fun a t => a + t.1) 0
    let a := faceAccel c sum (max 1 ts.length)
    let r := (facePixels c).map fun k =>
      (k, faceFlushPixel c a (levelGet 0 d.face.energy k) ((mapFind d.face.frac k).getD 0) (d.stress k))
    let new := r.map (fun p => (p.1, p.2.2))
    let d1 := d.onStore fun s => (s.writeTxn false 16 (d.stressGroups new 0x0900)).writeTxn false 16 (d.stressGroups new 0x0A80)
    (d1.onFace fun f =>
      { f with energy := [], frac := (r.map (fun p => (p.1, p.2.1))).filter (fun p => p.2 ≠ 0),
               fallback := ts.any (·.2) }).faceGains

/-! ## Frames (R508 to R512, R533) -/

/-- What a pixel shows before compensation. -/
def FaceState.base (f : FaceState) (k : Nat) : Nat :=
  if f.elems[1] = 0 then levelGet 0 f.scan k else uniformLevel f.elems[2].toNat

/-- Whether a pixel belongs to the corner glyph. -/
def inCorner (c : List Byte) (k : Nat) : Bool := decide (byteAt c 0 - 3 ≤ k % 96) && decide (k % 96 < byteAt c 0) && decide (k / 96 < 3)

/-- The effective level of a pixel (R512, R533). -/
def FaceState.level (f : FaceState) (c : List Byte) (k : Nat) : Nat :=
  if f.glyph && inCorner c k then 4095
  else if byteAt c 0x0F = 1 then min 4095 ((f.base k * levelGet 4096 f.gains k + 2048) / 4096)
  else f.base k

/-- ICOL as taken (Table 17.2). -/
def FaceState.icol (f : FaceState) : Nat := min f.elems[3].toNat 255

/-- One state change of Table 17.3 at a frame start of µs `t`. -/
def FaceState.advance (f : FaceState) (c : List Byte) (t : Nat) (want : Bool) : FaceState :=
  let go := fun (r : FaceRun) => { f with run := r, since := t, frames := 0 }
  let g := { f with frames := f.frames + 1 }
  let vrev := decide (f.since + 1000 * byteAt c 8 ≤ t)
  let anode := decide (f.since + 1000 * byteAt c 9 ≤ t)
  let clear := decide (byteAt c 0x0A ≤ g.frames)
  match f.run with
  | .off => go .dark
  | .dark => if want then go .vrevRise else g
  | .vrevRise => if vrev then go .clearing else g
  | .clearing => if clear then go (if want then .anodeRise else .vrevFall) else g
  | .anodeRise => if anode then go .lit else g
  | .lit => if want then g else go .anodeFall
  | .anodeFall => if anode && clear then go (if want then .anodeRise else .vrevFall) else g
  | .vrevFall => if vrev then go .dark else g

/-- One frame in LIT: the energy of every pixel, and what the sinks report (R525, R531). -/
def FaceState.scanFrame (f : FaceState) (c : List Byte) (heads : List Nat) : FaceState :=
  let lv := (facePixels c).map (fun k => (k, f.level c k))
  let lit := lv.filter (fun p => 0 < p.2)
  let rep := heads.map (fun h => min 3150 (h / 50 * 50))
  let sinks := if f.icol = 0 then [] else lit.zip rep
  { f with energy := lv.foldl (fun e p => levelPut 0 p.1 (levelGet 0 e p.1 + p.2 * f.icol) e) f.energy,
           headNow := sinks.foldl (fun m s => min m s.2) f.headNow,
           powerNow := f.powerNow + sinks.foldl (fun a s => a + s.2 * s.1.2 * f.icol * (leAt c 4 2 - 3)) 0 }

/-- A forward-voltage result in mV (R529); 0xFFFF where MD supplies none. -/
def fvResult (vs : Option (List Int)) : Nat :=
  match vs with
  | some l => if l.length = 20 then natDivRne (4 * (averageOf 4 (l.drop 4)).1 * 2500) 65536 else 0xFFFF
  | none => 0xFFFF

/-- The sense slot of one frame of a pass: the next pixel measured, and the pass ended after the last. -/
def FaceState.sense (f : FaceState) (c : List Byte) (vs : Option (List Int)) : FaceState :=
  match f.fvRun with
  | none => f
  | some i =>
    let n := byteAt c 0 * byteAt c 1
    let v := fvResult vs
    let op := if v ≠ 0xFFFF && 9800 ≤ v then satInc f.fvOpen else f.fvOpen
    let sh := if v < 500 then satInc f.fvShort else f.fvShort
    let g := { f with fvPend := f.fvPend ++ [(96 * (i / byteAt c 0) + i % byteAt c 0, v)], fvOpen := op, fvShort := sh }
    if n ≤ i + 1 then { g with fvRun := none, fvEnd := true, fvLastOpen := op, fvLastShort := sh }
    else { g with fvRun := some (i + 1) }

/-- A pass started. -/
def FaceState.fvBegin (f : FaceState) : FaceState :=
  { f with fvRun := some 0, fvDue := false, fvOpen := 0, fvShort := 0 }

/-- FV_PASS_START (R529): a multiple of an hour of SI time; out of LIT the pass waits for the first frame in LIT. -/
def Dev.fvPassStart (d : Dev) : Dev :=
  if byteAt d.image.faceCfg 0x20 ≠ 1 || !d.pd 15 || d.image.facePot ≥ 16 then d
  else d.onFace fun f => if f.run = FaceRun.lit then (if f.fvRun.isNone then f.fvBegin else f) else { f with fvDue := true }

/-- FACE_FRAME_START (R509): frame `k` starts at SI time k × FRAME_US. `heads` are the sink reports in mV of the lit pixels
in ascending 96y + x, `fv` the 20 samples of AIN30 of the sense slot, none where MD cannot supply them. -/
def Dev.faceFrame (k : Nat) (heads : List Nat) (fv : Option (List Int)) (d : Dev) : Dev :=
  let c := d.image.faceCfg
  let us := leAt c 2 2
  let t := k * us
  if !d.pd 15 || d.image.facePot ≥ 16 || us = 0 || t < d.face.frameEnd then d
  else
    let want := decide (d.presented 0x060 0 ≠ 0) && d.face.permit
    let f0 := { d.face with frameEnd := t + us, elems := #v[d.presented 0x060 0, d.presented 0x060 1, d.presented 0x060 2,
                                                         d.presented 0x060 3] }
    let f1 := f0.advance c t want
    if f1.run = FaceRun.lit then
      let gl := d.image.forceGlyph && d.cycle.forceN && decide (3 ≤ byteAt c 0) && decide (3 ≤ byteAt c 1) &&
        decide (t % 1000000 < 500000)
      let f2 := { f1 with glyph := gl }
      let f3 := if f2.fvDue && f2.fvRun.isNone then f2.fvBegin else f2
      let ok := d.pd 11 && d.convUsable 3 && !d.convFailed 3
      d.onFace fun _ => (f3.scanFrame c heads).sense c (if ok then fv else none)
    else d.onFace fun _ => { f1 with glyph := false, fvRun := none }

/-! ## Boundaries -/

/-- The results of a pass written to the FV table in the face pot's window, after step 4 (R530). A pass written at a
milestone boundary ended in the milestone before it. -/
def Dev.fvWrite (d : Dev) : Dev :=
  let c := d.image.faceCfg
  let p := d.image.facePot
  let ofs := leAt c 0x14 4
  let ended := if d.time.wm = 0 then d.netMs + 2 ^ 48 - 1 else d.netMs
  let put := fun (d : Dev) (a : Nat) (bs : List Byte) =>
    match d.winAddr p a 1, d.winAddr p (a + bs.length - 1) 1 with
    | some x, some _ => { d with cycle := { d.cycle with worktop := Mem.writeBytes zeroByte d.cycle.worktop x bs } }
    | _, _ => d
  let d1 := d.face.fvPend.foldl (fun d r => put d (ofs + 16 + 2 * r.1) (leBytes 2 r.2)) d
  let d2 :=
    if d.face.fvEnd then
      let n := satInc d.face.fvPasses
      (put d1 ofs (leBytes 4 n.toNat ++ leBytes 4 (ended % 2 ^ 32) ++ List.replicate 8 0)).onFace
        fun f => { f with fvPasses := n }
    else d1
  d2.onFace fun f => { f with fvPend := [], fvEnd := false }

/-- FACE.VADJ moved at a milestone boundary in LIT (R532). -/
def vadjNext (c : List Byte) (code head : Nat) (tooHot : Bool) : Nat :=
  let lo := leAt c 0x24 2
  let hi := leAt c 0x26 2
  let st := leAt c 0x28 2
  let tgt := leAt c 0x22 2
  let up := min hi (code + st)
  let dn := max lo (code - st)
  if tooHot then dn else if head < tgt then up else if tgt + 200 ≤ head && head ≠ 0xFFF then dn else max lo (min hi code)

/-- Step 6 of a milestone boundary: the figures of the milestone that ended, and VADJ (R531, R532). `len` is its length in
ns. Whole mW are shown without a rounding rule (Config.roundUp). -/
def Dev.faceMilestone (len : Nat) (d : Dev) : Dev :=
  let c := d.image.faceCfg
  let f := d.face
  let num := f.powerNow * 60
  let den := 255 * 4096 * len
  let p := num / den + (if num % den ≠ 0 && Config.roundUp num then 1 else 0)
  let tooHot := decide (1500 * den < num)
  let d1 := d.onFace fun f =>
    { f with headMin := BitVec.ofNat 12 f.headNow, power := BitVec.ofNat 16 p, starved := decide (f.headNow < 600),
             overheat := tooHot, headNow := 0xFFF, powerNow := 0,
             vadj := if f.run = FaceRun.lit then vadjNext c f.vadj f.headNow tooHot else f.vadj }
  d1.faceTemp

/-- FACE.STAT (Table 17.8). -/
def FaceState.statWord (f : FaceState) : Nat :=
  let code := match f.run with
    | .off => 0
    | .dark => 1
    | .vrevRise => 2
    | .clearing => 3
    | .anodeRise => 4
    | .lit => 5
    | .anodeFall => 6
    | .vrevFall => 7
  let fen := 2 ≤ code && code ≤ 6
  let len := code == 4 || code == 5
  code + 8 * b2n f.permit + 16 * b2n fen + 32 * b2n len + 256 * b2n f.glyph + 512 * b2n f.starved + 1024 * b2n f.overheat +
    2048 * b2n f.gainCap + 4096 * b2n f.fvRun.isSome + 8192 * b2n f.fallback

/-- The input elements of channel 0x060 (Table 17.2). -/
def Dev.faceDeliver (d : Dev) : Dev :=
  let s := d.face.statWord
  d.setInputs 0x060 4 [BitVec.ofNat 32 (s % 8), BitVec.ofNat 32 (s / 256 % 256), d.face.headMin.setWidth 32]

/-- A start of the face pot invalidates the held CRCs (R521). -/
def Dev.facePotStart (d : Dev) (p : Nat) : Dev := if p = d.image.facePot then d.onFace (fun f => { f with crcs := [] }) else d

/-- PD15 goes off: the face is OFF at that instant (R508). -/
def Dev.faceOff (d : Dev) : Dev :=
  d.onFace fun f =>
    { f with run := .off, frames := 0, glyph := false, fvRun := none, fvDue := false, energy := [], headNow := 0xFFF,
             powerNow := 0 }

/-- PD15 becomes usable: scan memory 0, held CRCs and fractions gone, gains from the counters, VADJ at its least (R513,
R521, R526, R527, R532). -/
def Dev.faceWake (d : Dev) : Dev :=
  (d.faceOff.onFace fun f =>
    { f with scan := [], transfer := [], crcs := [], frac := [], vadj := leAt d.image.faceCfg 0x24 2 }).faceGains

/-- The face at a reset: OFF, permit clear; cold clears the counters and warm keeps them (R507, R534). -/
def FaceState.atReset (f : FaceState) (warm : Bool) : FaceState :=
  if warm then
    { FaceState.reset with opsDone := f.opsDone, rejects := f.rejects, fvPasses := f.fvPasses, fvLastOpen := f.fvLastOpen,
                           fvLastShort := f.fvLastShort, frameEnd := f.frameEnd }
  else { FaceState.reset with frameEnd := f.frameEnd }

/-- FACE.REG_A of a region (Table 17.8). -/
def Image.faceRegA (m : Image) (r : Nat) : Nat :=
  match m.faceRegion r with
  | some g => g.x0 + 256 * g.x1 + 65536 * g.y0 + 16777216 * g.y1
  | none => 0

/-- FACE.REG_B of a region. -/
def Dev.faceRegB (d : Dev) (r : Nat) : Nat :=
  match d.image.faceRegion r with
  | some g =>
    let ops := d.face.ops.filter (fun o => o.region == r)
    let fl := (ops.filter (·.left.isSome)).length
    g.owner + 16 + 256 * d.face.stat r + 4096 * fl + 65536 * (ops.length - fl)
  | none => 0

end Sys2Proof.Machine
end

