-- ==== Sys2Proof/Machine/Fan.lean ====
section
/-! DEFINITION. The fan unit, the analogue and driver outputs, floating actuators and SYS_SHDN (16, R475 to R500). -/

namespace Sys2Proof.Machine

/-- An operation of the fan unit on the whole device. -/
def Dev.onFan (d : Dev) (f : FanState → FanState) : Dev := { d with fan := f d.fan }

/-- The TABLES payload of a channel; empty where it has none. -/
def Image.tableOf (m : Image) (ch : Nat) : List Byte :=
  match payloadOf m.tables ch with
  | some p => p.data
  | none => []

/-- Fan `f`. -/
def Dev.fanOf (d : Dev) (f : Nat) : Fan := vgetD d.fan.fans f Fan.reset

/-- Fan `f` changed. -/
def Dev.onFanN (d : Dev) (f : Nat) (g : Fan → Fan) : Dev := d.onFan fun s => { s with fans := vupdN s.fans f g }

/-- The pin code of an output kept in 1/256 code (R485, R494). -/
def pinCode (y : Nat) : Nat := (y + 128) / 256

/-- A value that a 16-bit field shows; free where it does not fit (Config.narrow16). -/
def field16 (v : Nat) : BitVec 16 := if v < 65536 then BitVec.ofNat 16 v else Config.narrow16 v

/-! ## The fan payload (Table 16.2) -/

/-- A 16-bit field of the payload. -/
def fan16 (c : List Byte) (o : Nat) : Nat := leAt c o 2

/-- The used bands. -/
def fanBands (c : List Byte) : List (Nat × Nat) :=
  ((upTo 4).map (fun b => (fan16 c (0x20 + 4 * b), fan16 c (0x22 + 4 * b)))).filter (fun b => b.1 ≠ 0)

/-- Threshold T_r in 0.1 °C. -/
def fanT (c : List Byte) (r : Nat) : Int := sxNat 16 (fan16 c (0x30 + 8 * r))

/-- T_r − H_r in 0.1 °C. -/
def fanRelease (c : List Byte) (r : Nat) : Int := fanT c r - (fan16 c (0x32 + 8 * r) : Int)

/-- Code D_r. -/
def fanD (c : List Byte) (r : Nat) : Nat := fan16 c (0x34 + 8 * r)

/-- Whether a temperature in q16.16 °C is at or above a threshold in 0.1 °C. -/
def tempAtLeast (t : Word) (x : Int) : Bool := decide (x * 65536 ≤ t.toInt * 10)

/-! ## Temperature and target (R477 to R482) -/

/-- The fan's temperature and whether it has failed (R477). -/
def Dev.fanTemp (d : Dev) (f : Nat) (c : List Byte) : Word × Bool :=
  let src := byteAt c 1
  if src = 0 then (d.presented (0x040 + f) 3, false)
  else
    let ch := 0x020 + (src - 1)
    (mapGet d.cycle.inputs (elemKey ch 0),
      mapGet d.cycle.inputs (elemKey ch 2) ≠ 0 || d.offline ch || !d.sense.delivered)

/-- The loop of R479: the new `integ` and the result. -/
def fanLoop (c : List Byte) (integ temp set : Word) : Word × Nat :=
  let lo := fOfScaled false (fan16 c 0x06) 0
  let hi := fOfScaled false (fan16 c 0x08) 0
  let q := fun (w : Word) => fOfScaled false w.toInt (-16)
  let e := fSub (q temp) (q set)
  let i := fMax lo (fMin hi (fAdd integ (fMul (BitVec.ofNat 32 (leAt c 0x1C 4)) e)))
  let u := fMax lo (fMin hi (fAdd (fMul (BitVec.ofNat 32 (leAt c 0x18 4)) e) i))
  (i, (fToInt .even 0 0 4095 u).1.toNat)

/-- The row moved upward while it can (R480). -/
def rowUp (c : List Byte) (t : Word) : Nat → Nat → Nat
  | 0, r => r
  | k + 1, r => if r < 7 && tempAtLeast t (fanT c (r + 1)) then rowUp c t k (r + 1) else r

/-- The row moved downward while it must. -/
def rowDown (c : List Byte) (t : Word) : Nat → Nat → Nat
  | 0, r => r
  | k + 1, r => if 0 < r && !tempAtLeast t (fanRelease c r) then rowDown c t k (r - 1) else r

/-- The start row of R481. -/
def rowStart (c : List Byte) (t : Word) : Nat :=
  (upTo 8).foldl (fun b r => if r = 0 || tempAtLeast t (fanRelease c r) then r else b) 0

/-- The row of one evaluation. -/
def rowNext (c : List Byte) (t : Word) (fresh : Bool) (r : Nat) : Nat :=
  if fresh then rowStart c t
  else
    let u := rowUp c t 7 r
    if u = r then rowDown c t 7 r else u

/-- The mode that element 0 asks for (Table 16.1). -/
def fanMode (w : Word) : Nat := if w.toNat ≤ 3 then w.toNat else 0

/-- Raw target of R478. -/
def Fan.raw (x : Fan) (c : List Byte) (drive : Word) : Nat :=
  if x.mode = 0 then 0
  else if x.mode = 1 then min drive.toNat 4095
  else if x.tempFail then fan16 c 0x0A
  else if x.mode = 2 then x.result.getD (fan16 c 0x06)
  else fanD c x.row

/-- The effective target: the raw target clamped, then moved out of a band (R478, R482). -/
def Fan.target (x : Fan) (c : List Byte) (drive : Word) : Nat :=
  let r := x.raw c drive
  let t := if r = 0 then 0 else max (fan16 c 0x06) (min (fan16 c 0x08) r)
  match (fanBands c).find? (fun b => decide (b.1 ≤ t) && decide (t < b.2)) with
  | some b => if x.y < 256 * b.1 then b.1 - 1 else b.2
  | none => t

/-! ## The ramp and the kick (R483, R484) -/

/-- A step towards a target that never passes it. -/
def stepTo (y t up down : Nat) : Nat := if y < t then min t (y + up) else max t (y - down)

/-- Whether an output lies in a used band. -/
def bandHolds (c : List Byte) (y : Nat) : Bool :=
  (fanBands c).any (fun b => decide (256 * b.1 ≤ y) && decide (y < 256 * b.2))

/-- One step of the ramp (R483). -/
def fanRamp (c : List Byte) (y target : Nat) : Nat :=
  let t := 256 * target
  let y1 := stepTo y t (fan16 c 0x0C) (fan16 c 0x0E)
  if bandHolds c y || bandHolds c y1 then stepTo y t (fan16 c 0x10) (fan16 c 0x10) else y1

/-- The output at one boundary: a kick starts, holds or ends, or the ramp moves. -/
def Fan.move (x : Fan) (c : List Byte) (target : Nat) : Fan :=
  match x.kick with
  | some k =>
    if target = 0 || k ≤ 1 then { x with kick := none, y := fanRamp c x.y target } else { x with kick := some (k - 1) }
  | none =>
    if x.y = 0 && 0 < target && 0 < fan16 c 0x02 && 0 < fan16 c 0x04 then
      { x with kick := some (fan16 c 0x02), y := 256 * fan16 c 0x04, kicks := satInc x.kicks }
    else { x with y := fanRamp c x.y target }

/-- KICK_END (R484): the last waymark of a kick is over. -/
def Dev.kickEnd (f : Fin 6) (d : Dev) : Dev :=
  d.onFanN f.val fun x => if x.kick = some 1 then { x with kick := none } else x

/-! ## Tach, speed and ageing (R486 to R489) -/

/-- TACH_EDGE (R486): an accepted rising edge at `stamp` ns. Two are at least 16 µs apart, since each level is held for
8 µs. -/
def Dev.tachEdge (f : Fin 6) (stamp : Nat) (d : Dev) : Dev :=
  if !d.pd 14 then d
  else
    d.onFanN f.val fun x =>
      let t := stamp / 1000
      match x.edges with
      | e :: _ => if t < e + 16 then x else { x with edges := t :: x.edges.take 63, edged := true, quiet := 0 }
      | [] => { x with edges := [t], edged := true, quiet := 0 }

/-- The ns at which boundary 65 of the milestone `k` before the present one started; 0 before the first. -/
def Dev.boundary65 (d : Dev) (k : Nat) : Nat :=
  if k = 0 then d.wmStart 65
  else
    match d.time.starts[k]?, d.time.starts[k - 1]? with
    | some a, some b => a + 65 * (b - a) / 256
    | _, _ => 0

/-- SPEED in rpm from the edges of the window (R486). The window's ends count at the 1 µs of a stamp, so an edge of an end's own
microsecond belongs to the window that starts there (R10). -/
def fanSpeed (c : List Byte) (edges : List Nat) (lo hi : Nat) : Nat :=
  let l := (edges.filter (fun e => decide (lo / 1000 ≤ e) && decide (e < hi / 1000))).take 33
  match l, l.getLast? with
  | a :: _ :: _, some z => (divRoundEven ((60000000 * (l.length - 1) : Nat) : Int) (byteAt c 0 * (a - z))).toNat
  | _, _ => 0

/-- The baseline group of fan `f` (R488): BASE_RPM and BASE_DRIVE; none while absent. -/
def Dev.fanBase (d : Dev) (f : Nat) : Option (Nat × Nat) :=
  let g := d.store.group (0x0DE0 + f)
  let rpm := leAt g 0 2
  let drv := leAt g 2 2
  if rpm = 0 || drv = 0 || leAt g 4 4 ≠ 0 then none else some (rpm, drv)

/-- TACH_LOST is due: TACH_LOSS milestones without an edge at a running output (R487). -/
def Fan.tachDue (x : Fan) (c : List Byte) : Bool := !x.tachLost && decide (256 * fan16 c 0x12 ≤ x.quiet)

/-- TACH_LOST set and counted. -/
def Fan.loseTach (x : Fan) : Fan := { x with tachLost := true, tachLosses := satInc x.tachLosses }

/-- TACH_LOST as an event of its own. -/
def Dev.tachLostEvent (f : Fin 6) (d : Dev) : Dev :=
  let c := d.image.tableOf (0x040 + f.val)
  if d.pd 14 && d.image.owner (0x040 + f.val) < 16 then
    d.onFanN f.val fun x => if x.tachDue c then x.loseTach else x
  else d

/-- Whether an assessment of R488 applies. -/
def Fan.assessable (x : Fan) (c : List Byte) (rpm : Nat) : Bool :=
  !x.tachLost && decide (3 * rpm ≤ 4 * x.speed.toNat) && decide (4 * x.speed.toNat ≤ 5 * rpm) &&
    decide (fan16 c 0x16 ≤ x.steady)

/-- AGEING_ASSESSMENT (R488): AGEING, WARN and ALARM, with their entries of Table 20.2. -/
def Dev.fanAssess (d : Dev) (f rpm drv : Nat) : Dev :=
  let x := d.fanOf f
  let a := (divRoundEven ((1000 * pinCode x.y * rpm : Nat) : Int) (x.speed.toNat * drv)).toNat
  let warn := if 1150 ≤ a then true else if a ≤ 1120 then false else x.warn
  let alarm := if 1300 ≤ a then true else if a ≤ 1270 then false else x.alarm
  let d1 := d.onFanN f fun x => { x with age := BitVec.ofNat 32 a, warn := warn, alarm := alarm }
  let d2 := if warn && !x.warn then d1.event 0x10 f (field16 a).toNat 0 0 else d1
  if alarm && !x.alarm then d2.event 0x11 f (field16 a).toNat 0 0 else d2

/-- What an evaluation does with the tach, the ageing index and a pending capture (R486 to R489). -/
def Dev.fanMeasure (d : Dev) (f : Nat) (c : List Byte) : Dev :=
  let lo := d.boundary65 16
  let hi := d.boundary65 0
  let d1 := d.onFanN f fun x =>
    let out := pinCode x.y
    let x1 := { x with speed := BitVec.ofNat 32 (fanSpeed c x.edges lo hi),
                       steady := if x.lastOut = out then x.steady + 1 else 0, lastOut := out }
    let x2 := if x1.tachDue c then x1.loseTach else x1
    if x2.speed ≠ 0 then { x2 with tachLost := false } else x2
  let d2 :=
    match d1.fanBase f with
    | some (rpm, drv) => if (d1.fanOf f).assessable c rpm then d1.fanAssess f rpm drv else d1
    | none => d1
  let x := d2.fanOf f
  if x.capture && pinCode x.y ≠ 0 && !x.tachLost && x.speed ≠ 0 && fan16 c 0x16 ≤ x.steady then
    (d2.onStore fun s => s.writeImm (0x0DE0 + f)
      (leBytes 2 (field16 x.speed.toNat).toNat ++ leBytes 2 (pinCode x.y) ++ List.replicate 4 0)).onFanN f
      fun x => { x with capture := false }
  else d2

/-- FAN_CAPTURE (R489): GO bits of FAN.CAPTURE. -/
def Dev.fanCapture (go : BitVec 6) (d : Dev) : Dev :=
  d.onFan fun s => { s with fans := vmapi (fun f x => if go.getLsbD f then { x with capture := true } else x) s.fans }

/-! ## Step 6 of a fan -/

/-- The twelve STATUS bits, [22:11] of FAN.STAT (Table 16.6). -/
def Dev.fanStatus (d : Dev) (f : Nat) : Nat :=
  let x := d.fanOf f
  x.row + 8 * b2n x.kick.isSome + 16 * b2n x.inBand + 32 * b2n x.tachLost + 64 * b2n x.tempFail + 128 * b2n x.warn +
    256 * b2n x.alarm + 512 * b2n (d.fanBase f).isNone + 1024 * b2n (d.fan.shdn && d.pd 14)

/-- The inputs of a fan channel delivered (R485, R486, R488). -/
def Dev.fanDeliver (d : Dev) (f : Nat) : Dev :=
  let x := d.fanOf f
  d.setInputs (0x040 + f) 4 [x.speed, BitVec.ofNat 32 (pinCode x.y), x.age, BitVec.ofNat 32 (d.fanStatus f)]

/-- MODE and temperature taken at a boundary: a new LOOP or TABLE, and a recovered temperature, start afresh (R479,
R481). -/
def Fan.take (x : Fan) (c : List Byte) (mode : Nat) (t : Word × Bool) : Fan :=
  let back := x.tempFail && !t.2
  { x with mode := mode, temp := t.1, tempFail := t.2,
           integ := if (mode = 2 && x.mode ≠ 2) || back then fOfScaled false (fan16 c 0x06) 0 else x.integ,
           rowFresh := x.rowFresh || (mode = 3 && x.mode ≠ 3) || back }

/-- The evaluation of LOOP or TABLE at boundary 65; nothing while the temperature has failed. -/
def Fan.evaluate (x : Fan) (c : List Byte) (set : Word) : Fan :=
  if x.tempFail then x
  else if x.mode = 2 then
    let r := fanLoop c x.integ x.temp set
    { x with integ := r.1, result := some r.2 }
  else if x.mode = 3 then { x with row := rowNext c x.temp x.rowFresh x.row, rowFresh := false }
  else x

/-- Step 6 of one owned fan channel (R478 to R488). -/
def Dev.fanStep (d : Dev) (f : Nat) : Dev :=
  let c := d.image.tableOf (0x040 + f)
  let ch := 0x040 + f
  let t := d.fanTemp f c
  let d1 := d.onFanN f fun x =>
    let calm := decide (fan16 c 0x14 ≤ pinCode x.y) && x.kick.isNone && !x.edged
    { x.take c (fanMode (d.presented ch 0)) t with quiet := if calm then x.quiet + 1 else 0, edged := false }
  let d2 := if d.time.wm = 65 then (d1.onFanN f fun x => x.evaluate c (d.presented ch 2)).fanMeasure f c else d1
  let x := d2.fanOf f
  let d3 :=
    if x.mode = 2 && !x.tempFail && x.result.isNone then
      { d2.onFanN f (fun x => { x with result := some (max (fan16 c 0x06) (min (fan16 c 0x08) (Config.loopStart d2.free))) })
        with free := d2.free + 1 }
    else d2
  (d3.onFanN f fun x =>
    let y := x.move c (x.target c (d.presented ch 1))
    { y with inBand := bandHolds c y.y, lastOut := if pinCode y.y = pinCode x.y then y.lastOut else 4096 }).fanDeliver f

/-! ## Analogue and driver outputs (R494 to R499) -/

/-- Step 6 of the analogue outputs (R494). -/
def Dev.aoStep (d : Dev) (a : Nat) : Dev :=
  let code := min (d.presented (0x048 + a) 0).toNat 4095
  let rate := leAt (d.image.tableOf (0x048 + a)) 0 2
  d.onFan fun s =>
    let y := vgetD s.ao a 0
    let z := if rate = 0 then 256 * code else stepTo y (256 * code) rate rate
    { s with ao := vupdN s.ao a (fun _ => z), aoOut := vupdN s.aoOut a (fun _ => BitVec.ofNat 12 (pinCode z)) }

/-- Whether DO `n` and the one after it form a pair. -/
def Image.paired (m : Image) (n : Nat) : Bool := n % 2 == 0 && byteAt (m.tableOf (0x050 + n)) 0 == 1

/-- A driver pin set; an activation counts in SWITCHES. -/
def FanState.setPin (s : FanState) (n : Nat) (v : Bool) : FanState :=
  if vgetD s.doPin n false = v then s
  else { s with doPin := vupdN s.doPin n (fun _ => v), doCount := if v then vupdN s.doCount n satInc else s.doCount }

/-- RUN_T in µs. -/
def pairRun (c : List Byte) : Nat := 1000 * leAt c 4 4

/-- POSITION in 0.01 % (R497). -/
def Pair.position (p : Pair) (c : List Byte) : Nat := min 10000 (p.travel * 10000 / pairRun c)

/-- SI time passed: travel moves while one pin is active (R497), and a run still to go shrinks. -/
def Pair.advance (p : Pair) (c : List Byte) (us : Nat) : Pair :=
  let r := p.runOn.map (fun r => r - us)
  match p.motion with
  | .opening => { p with travel := min (pairRun c) (p.travel + us), runOn := r }
  | .closing => { p with travel := p.travel - us, runOn := r }
  | _ => p

/-- The direction that a pair at rest takes. -/
def Pair.atRest (p : Pair) (c : List Byte) (t : Nat) : Pair :=
  let db := leAt c 8 2
  let x := p.position c
  if x + db < t then { p with motion := .opening, runOn := none }
  else if t + db < x then { p with motion := .closing, runOn := none }
  else { p with motion := .rest, runOn := none }

/-- A pair that stops: the opposite direction waits for a pause, rounded up to milestones with ALIGN 1 (R498). -/
def Pair.stop (p : Pair) (c : List Byte) (t : Nat) (wasOpening : Bool) : Pair :=
  let q := p.atRest c t
  let rev := leAt c 0xA 2
  if (wasOpening && q.motion == .closing) || (!wasOpening && q.motion == .opening) then
    { p with motion := .paused, runOn := none, left := if byteAt c 1 = 1 then (rev + 255) / 256 * 256 else rev }
  else if q.motion == .rest then q
  else { p with motion := .rest, runOn := none }

/-- A homing run that has come to its end (R499). -/
def Pair.homed (p : Pair) (c : List Byte) (up : Bool) (t : Nat) : Pair :=
  ({ p with travel := if up then pairRun c else 0, unknown := false, homing := none, runOn := none } : Pair).stop c t up

/-- The over-travel in µs (R498). -/
def pairExtra (c : List Byte) : Nat := pairRun c * byteAt c 2 / 100

/-- The decision of a pair at a boundary at which it may change (R498, R499). -/
def Pair.next (p : Pair) (c : List Byte) (t : Nat) : Pair :=
  match p.homing with
  | some up => if p.runOn = some 0 then p.homed c up t else p
  | none =>
    if p.unknown then
      let up := decide (5000 ≤ t)
      { p with homing := some up, motion := if up then .opening else .closing,
               runOn := some (pairRun c * (100 + byteAt c 2) / 100) }
    else
      match p.motion with
      | .rest => p.atRest c t
      | .paused => if p.left = 0 then p.atRest c t else p
      | .opening =>
        if p.position c < t then { p with runOn := none }
        else if t = 10000 then
          match p.runOn with
          | none => { p with runOn := some (pairExtra c) }
          | some 0 => { p with travel := pairRun c, motion := .rest, runOn := none }
          | some _ => p
        else p.stop c t true
      | .closing =>
        if t < p.position c then { p with runOn := none }
        else if t = 0 then
          match p.runOn with
          | none => { p with runOn := some (pairExtra c) }
          | some 0 => { p with travel := 0, motion := .rest, runOn := none }
          | some _ => p
        else p.stop c t false

/-- TARGET as taken (R496). -/
def Dev.pairTarget (d : Dev) (k : Nat) : Nat := min (d.presented (0x050 + 2 * k) 0).toNat 10000

/-- STATUS of a pair (R499). -/
def Pair.status (p : Pair) : Nat :=
  (match p.motion with
    | .rest => 0
    | .opening => 1
    | .closing => 2
    | .paused => 3) + 4 * b2n p.homing.isSome + 8 * b2n p.unknown

/-- POSITION as delivered: 0 while unknown. -/
def Pair.shown (p : Pair) (c : List Byte) : Nat := if p.unknown then 0 else p.position c

/-- The pins and inputs of a pair as its motion has them; both channels of the pair show them. -/
def Dev.pairOut (d : Dev) (k : Nat) : Dev :=
  let c := d.image.tableOf (0x050 + 2 * k)
  let p := vgetD d.fan.pairs k Pair.reset
  let v := [BitVec.ofNat 32 (p.shown c), BitVec.ofNat 32 p.status]
  ((d.onFan fun s => (s.setPin (2 * k) (p.motion == .opening)).setPin (2 * k + 1) (p.motion == .closing)).setInputs
    (0x050 + 2 * k) 1 v).setInputs (0x051 + 2 * k) 1 v

/-- The decision of pair `k` with its pins. -/
def Dev.pairDecide (d : Dev) (k : Nat) : Dev :=
  let c := d.image.tableOf (0x050 + 2 * k)
  (d.onFan fun s => { s with pairs := vupdN s.pairs k (fun p => p.next c (d.pairTarget k)) }).pairOut k

/-- Step 6 of a pair: SI time passed, a pause counted down, and a decision where the pair may change. -/
def Dev.pairStep (d : Dev) (k us : Nat) : Dev :=
  let c := d.image.tableOf (0x050 + 2 * k)
  let d1 := d.onFan fun s => { s with pairs := vupdN s.pairs k (fun p => { p.advance c us with left := p.left - 1 }) }
  if byteAt c 1 = 0 || d.time.wm = 0 then d1.pairDecide k else d1.pairOut k

/-- Step 6 of a plain driver output (R495). -/
def Dev.doStep (d : Dev) (n : Nat) : Dev :=
  let d1 := d.setInputs (0x050 + n) 1 [0, 0]
  if byteAt (d.image.tableOf (0x050 + n)) 1 = 0 || d.time.wm = 0 then
    d1.onFan fun s => s.setPin n (d.presented (0x050 + n) 0 ≠ 0)
  else d1

/-- Step 6 of a fan channel that no pot owns: its off level, or a code that a force drives (R141). It has no table, hence
no ramp, kick or band (R478). DEDUCED, log 146. -/
def Dev.fanIdle (d : Dev) (f : Nat) : Dev :=
  let code := if fanMode (d.presented (0x040 + f) 0) = 1 then min (d.presented (0x040 + f) 1).toNat 4095 else 0
  d.onFanN f fun x => { x with mode := 0, y := 256 * code, kick := none, inBand := false }

/-- Step 6 of the fan unit and the actuators. -/
def Dev.fanPresent (d : Dev) : Dev :=
  let us := d.time.now / 1000 - d.fan.lastNs / 1000
  let d0 := d.onFan fun s => { s with lastNs := d.time.now }
  if !d.pd 14 then d0
  else
    let d1 := (upTo 6).foldl (fun d f => if d.image.owner (0x040 + f) < 16 then d.fanStep f else d.fanIdle f) d0
    let d2 := (upTo 8).foldl Dev.aoStep d1
    (upTo 4).foldl (fun d k =>
      if d.image.paired (2 * k) then d.pairStep k us else (d.doStep (2 * k)).doStep (2 * k + 1)) d2

/-- The longest SI time, in µs, that one waymark lasts at most here: what an end event may be early by. -/
def Dev.wmMicros (d : Dev) : Nat := d.time.msLen / 256000 + 1

/-- REVERSAL_PAUSE_END (R498): the last waymark of a pause is over, and the direction is decided afresh. -/
def Dev.pauseEnd (k : Fin 4) (d : Dev) : Dev :=
  let p := d.fan.pairs[k]
  if d.pd 14 && d.image.paired (2 * k.val) && p.motion == .paused && p.left ≤ 1 then
    (d.onFan fun s => { s with pairs := vupd s.pairs k (fun p => { p with left := 0 }) }).pairDecide k.val
  else d

/-- OVERTRAVEL_END (R498): the over-travel run ends within this waymark; travel is set to the end. -/
def Dev.overtravelEnd (k : Fin 4) (d : Dev) : Dev :=
  let p := d.fan.pairs[k]
  if d.pd 14 && d.image.paired (2 * k.val) && p.homing.isNone && p.runOn.any (fun r => decide (r ≤ d.wmMicros)) then
    (d.onFan fun s => { s with pairs := vupd s.pairs k (fun p => { p with runOn := some 0 }) }).pairDecide k.val
  else d

/-- HOMING_COMPLETE (R499): the homing run ends within this waymark; travel is set to that end and UNKNOWN clears. -/
def Dev.homingComplete (k : Fin 4) (d : Dev) : Dev :=
  let p := d.fan.pairs[k]
  if d.pd 14 && d.image.paired (2 * k.val) && p.homing.isSome && p.runOn.any (fun r => decide (r ≤ d.wmMicros)) then
    (d.onFan fun s => { s with pairs := vupd s.pairs k (fun p => { p with runOn := some 0 }) }).pairDecide k.val
  else d

/-! ## PD14 and resets -/

/-- A fan at the boundary at which PD14 becomes usable: y 0, the loop and the rows afresh (R479, R481, R485). -/
def Fan.wake (x : Fan) (c : List Byte) : Fan :=
  { x with mode := 0, y := 0, row := 0, rowFresh := true, integ := fOfScaled false (fan16 c 0x06) 0, result := none,
           kick := none, inBand := false, speed := 0, edges := [], edged := false, quiet := 0, steady := 0, lastOut := 4096 }

/-- Every pin of PD14 at its off level, every pair unknown (Table 3.6, R499). -/
def FanState.off (s : FanState) : FanState :=
  let s1 := (upTo 8).foldl (fun s n => s.setPin n false) s
  { s1 with ao := Vector.replicate 8 0, aoOut := Vector.replicate 8 0, pairs := Vector.replicate 4 Pair.reset,
            fans := vmap (fun (x : Fan) => { x with y := 0, kick := none, inBand := false }) s1.fans }

/-- PD14 becomes usable. -/
def Dev.fanWake (d : Dev) : Dev :=
  d.onFan fun s =>
    let s1 := s.off
    { s1 with fans := vmapi (fun f (x : Fan) => x.wake (d.image.tableOf (0x040 + f))) s1.fans }

/-- The fan unit at a reset: cold clears the counters, warm keeps them (R500); a capture is discarded, AGEING reads 0 until
the next assessment; SYS_SHDN is asserted until its first comparison (R264). -/
def FanState.atReset (s : FanState) (warm : Bool) : FanState :=
  { FanState.reset with
      fans := if warm then vmap (fun (x : Fan) => { Fan.reset with kicks := x.kicks, tachLosses := x.tachLosses }) s.fans
              else Vector.replicate 6 Fan.reset
      doCount := if warm then s.doCount else Vector.replicate 8 0
      shdnCount := s.shdnCount, lastNs := s.lastNs }

/-! ## SYS_SHDN (R490 to R493) -/

/-- Trip resistances of Table 16.3. -/
def shdnTrip : List Nat := [2207, 1912, 1662, 1451, 1272, 1118, 987, 874]

/-- Release resistances of Table 16.3. -/
def shdnRelease : List Nat := [2803, 2411, 2083, 1807, 1574, 1376, 1208, 1063]

/-- The lowest cause code that holds at a comparison (R491); 0 where none does. -/
def shdnCauseOf (strap : Nat) (die : Int) (ohm : Nat) : Nat :=
  if (7000 + 500 * strap : Int) < die then 2
  else if 50 ≤ ohm && ohm < shdnTrip.getD strap 0 then 3
  else if 200000 < ohm then 4
  else if ohm < 50 then 5
  else 0

/-- Whether the release condition holds. -/
def shdnCool (strap : Nat) (die : Int) (ohm : Nat) : Bool :=
  decide (die ≤ (6200 + 500 * strap : Int)) && decide (shdnRelease.getD strap 0 ≤ ohm) && decide (50 ≤ ohm) &&
    decide (ohm ≤ 200000)

/-- SHDN_COMPARE (R490, R491): the die temperature in 0.01 °C and the TSNS resistance in Ω are compared. Before the strap
instant there is no TSTRAP to compare with, so SYS_SHDN stays as the reset left it (R264). CAUSE keeps its value at a release
(DEDUCED, log 91). -/
def Dev.shdnCompare (die : Int) (ohm : Nat) (d : Dev) : Dev :=
  let strap := d.sys.tstrap.toNat
  let cause := shdnCauseOf strap die ohm
  let cool := shdnCool strap die ohm
  let f := d.fan
  let shown := if 200000 < ohm then 0x3FFFF else if ohm < 50 then 0 else ohm
  let hot := if cause = 0 then 0 else f.hotRun + 1
  let cold := if cool then f.coolRun + 1 else 0
  let g := { f with ohm := BitVec.ofNat 18 shown, hotRun := hot, coolRun := cold, shdnFirst := false }
  if !d.sys.strapped then d.onFan fun _ => { f with ohm := g.ohm }
  else if f.shdnFirst then
    d.onFan fun _ =>
      if cool then { g with shdn := false }
      else { g with shdnCause := if cause = 0 then 1 else BitVec.ofNat 3 cause }
  else if f.shdn then
    d.onFan fun _ => if 4 ≤ cold then { g with shdn := false } else g
  else if 4 ≤ hot then
    (d.onFan fun _ => { g with shdn := true, shdnCause := BitVec.ofNat 3 cause, shdnCount := satInc g.shdnCount }).event
      0x0E 0 cause 0 shown
  else d.onFan fun _ => g

end Sys2Proof.Machine
end

