-- ==== Sys2Proof/Machine/Power.lean ====
section
/-! DEFINITION. The sixteen power domains: the judgement of requests, switching, readiness, plans and core voltage (03,
R61 to R82). What a block does when its domain goes off stands in that block's file. -/

namespace Sys2Proof.Machine

/-- An operation of the power registers on the whole device. -/
def Dev.onPower (d : Dev) (f : PowerState → PowerState) : Dev := { d with power := f d.power }

/-- A set of domains as a word. -/
def domMask (l : List Nat) : BitVec 16 := l.foldl (fun m n => m ||| (1#16 <<< n)) 0

/-- The domains that hold power in every mode (R68). -/
def alwaysOn : BitVec 16 := 0x00C3

/-- The domains that are on in TOLLGATE before any request (R78). -/
def tollgateOn : BitVec 16 := 0x00C7

/-- Ceiling of each domain in mV (Table 3.1). -/
def vCeil (n : Nat) : Nat := if n = 0 then 800 else 1050

/-- What the judgement of R72 takes as committed before the boundary: the active bindings as (dependent, provider)
pairs, those of PD12 with PD10 apart (their condition is PD12's own state), the domains of cause ACTIVE, and whether
the host-path binding is active. -/
structure Judge where
  bindings : List (Nat × Nat)
  active : BitVec 16
  hostPath : Bool
  mode : Mode
  plan : List PowerClass

/-- The class that the plan gives a domain. -/
def Judge.cls (j : Judge) (n : Nat) : PowerClass := j.plan.getD n .off

/-- The refusal cause of one change, judged against the states after the boundary; 0 where none applies (Table 3.5). -/
def Judge.cause (j : Judge) (now after fault : BitVec 16) (n : Nat) : Nat :=
  let off := now.getLsbD n
  let all := (12, 10) :: j.bindings
  let mandatory := off && (alwaysOn.getLsbD n || (n == 2 && j.mode != .halt))
  let fixed := (j.mode == .ready || j.mode == .run) &&
    (j.cls n == .off || (j.cls n == .on && !(fault.getLsbD n && !off)))
  let binding :=
    if off then all.any (fun b => b.2 == n && after.getLsbD b.1)
    else all.any (fun b => b.1 == n && !after.getLsbD b.2)
  if mandatory then 1
  else if fixed then 2
  else if binding then 3
  else if off && j.active.getLsbD n then 4
  else if off && j.hostPath && (n == 10 || n == 12) then 5
  else 0

/-- Rounds of judgement: all changes not yet refused are judged together, and the refused ones keep their state, until
a round refuses nothing (R72). -/
def Judge.rounds (j : Judge) (now fault : BitVec 16) : Nat → BitVec 16 → List (Nat × Nat) → BitVec 16 × List (Nat × Nat)
  | 0, after, refused => (after, refused)
  | k + 1, after, refused =>
    let bad := (upTo 16).filterMap fun n =>
      if now.getLsbD n = after.getLsbD n then none
      else
        let c := j.cause now after fault n
        if c = 0 then none else some (n, c)
    if bad.isEmpty then (after, refused)
    else
      let m := domMask (bad.map (·.1))
      Judge.rounds j now fault k ((after &&& ~~~m) ||| (now &&& m)) (refused ++ bad)

/-- The refusals recorded: the lowest-numbered domain's cause, one count per domain (R72). -/
def PowerState.refuse (p : PowerState) (refused : List (Nat × Nat)) : PowerState :=
  match refused.foldl (fun (b : Option (Nat × Nat)) r =>
      match b with
      | none => some r
      | some x => if r.1 < x.1 then some r else some x) none with
  | none => p
  | some (n, c) =>
    { p with refDomain := BitVec.ofNat 4 n, refCause := BitVec.ofNat 4 c, refValid := true,
             refused := satAdd p.refused refused.length }

/-- The domains switched to given states at a boundary: a domain switched on wakes until the next milestone boundary
(R74), its fault ends (R81), and every change counts. -/
def PowerState.switchTo (p : PowerState) (want : BitVec 16) : PowerState :=
  let changed := p.on ^^^ want
  { p with on := want, ready := p.ready &&& want, fault := p.fault &&& ~~~(want &&& ~~~p.on),
           switches := satAdd p.switches (((upTo 16).filter (fun n => changed.getLsbD n)).length) }

/-- A milestone boundary makes every domain usable that was switched on before (R74). -/
def PowerState.wake (p : PowerState) : PowerState := { p with ready := p.on }

/-- The requests judged and applied (R72): the new power state and the domains switched off. -/
def PowerState.judged (p : PowerState) (j : Judge) : PowerState :=
  let r := j.rounds p.on p.fault 17 p.req []
  ({ p with req := r.1 } : PowerState).refuse r.2 |>.switchTo r.1

/-- Domains that an image's plan starts on (R78). -/
def Image.startOn (m : Image) : BitVec 16 :=
  domMask ((upTo 16).filter (fun n => m.cls n == .on || m.cls n == .demandOn))

/-- The states to which HALT returns (R77): ON on, OFF off, DEMAND as they were when HALT was entered. -/
def Dev.haltReturn (d : Dev) : BitVec 16 :=
  domMask ((upTo 16).filter (fun n =>
    match d.image.cls n with
    | .on => true
    | .off => false
    | _ => d.power.haltOn.getLsbD n))

/-- A write of SYS.PD_REQ (R71); bits of absent domains do not exist, and [31:16] are reserved. -/
def Dev.pdReqWrite (v : BitVec 32) (byHost : Bool) (d : Dev) : Dev :=
  if !byHost && d.power.hostWrote then d
  else d.onPower fun p => { p with req := v.setWidth 16, hostWrote := p.hostWrote || byHost }

/-- The core voltage at which a domain in fault stood: free, more than 50 mV below its floor (R80). -/
def Dev.faultVoltage (d : Dev) (n : Nat) : BitVec 11 :=
  BitVec.ofNat 11 (min (vFloor n - 51) (Config.coreVoltage n d.free))

/-- The core voltage of a domain whose power a fault removes: VLOW has seen it below the floor, and VNOW reads 0 (R80, R82). -/
def Dev.dropVcore (d : Dev) (n : Nat) : Dev :=
  let x := d.faultVoltage n
  { d with free := d.free + 1,
           power := { d.power with vnow := vupdN d.power.vnow n (fun _ => 0),
                                   vlow := vupdN d.power.vlow n (fun w => if x.toNat < w.toNat then x else w) } }

/-- The core voltages at a reading: free within the floor and the ceiling (R61), 0 while a domain is off. -/
def Dev.readVcore (d : Dev) : Dev :=
  let v := vmapi (fun n (_ : BitVec 11) =>
    if d.power.on.getLsbD n then
      let lo := if n = 6 && (d.power.on &&& 0x003C) == 0 then 700 else vFloor n
      BitVec.ofNat 11 (min (vCeil n) (max lo (Config.coreVoltage n d.free)))
    else 0) d.power.vnow
  { d with free := d.free + 1,
           power := { d.power with vnow := v, vlow := vmapi (fun n (w : BitVec 11) =>
             let x := vgetD v n 0
             if d.power.on.getLsbD n && x.toNat < w.toNat then x else w) d.power.vlow } }

end Sys2Proof.Machine
end

