-- ==== Sys2Proof/Machine/Sense.lean ====
section
/-! DEFINITION. The sensing front ends: the MD sequence and its delivery, temperature, daylight, presence and gas
readings, digital inputs and the I²C master (11, R319 to R339). -/

namespace Sys2Proof.Machine

/-- An operation of the sensing front ends on the whole device. -/
def Dev.onSense (d : Dev) (f : SenseState → SenseState) : Dev := { d with sense := f d.sense }

/-! ## The analogue configuration (Table 11.3) -/

/-- The configuration payload; empty where the image has none. -/
def Image.senseCfg (m : Image) : List Byte :=
  match payloadOf m.scripts 0x300 with
  | some p => p.data
  | none => []

/-- KIND of TEMPx: 0 off, 1 NTC, 2 RTD. -/
def tempKind (c : List Byte) (x : Nat) : Nat := byteAt c (24 * x)

/-- An f32 or u32 field of the payload. -/
def cfgWord (c : List Byte) (o : Nat) : Word := BitVec.ofNat 32 (leAt c o 4)

/-- Whether channel 0x020 + n, n below 8, is enabled. -/
def senseEnabled (c : List Byte) (n : Nat) : Bool :=
  if n < 4 then tempKind c n ≠ 0
  else if n = 4 then byteAt c 0x60 ≠ 0
  else if n = 5 then byteAt c 0x68 = 1
  else byteAt c (0x70 + 16 * (n - 6)) = 1

/-- Whether any pot owns an analogue sensing channel: MD slot 3 is occupied (R317). -/
def Image.sensing (m : Image) : Bool := (upTo 8).any (fun n => m.owner (0x020 + n) < 16)

/-- The readings of a sequence in their order (R321): 0 is SREF, 1 to 4 TEMP, 5 DAYLIGHT, 6 and 7 GAS, 8 PRESENCE. -/
def senseOrder (c : List Byte) : List Nat :=
  (if (upTo 4).any (senseEnabled c) then [0] else []) ++ ((upTo 4).filter (senseEnabled c)).map (· + 1) ++
    (if senseEnabled c 4 then [5] else []) ++ (if senseEnabled c 6 then [6] else []) ++
    (if senseEnabled c 7 then [7] else []) ++ (if senseEnabled c 5 then [8] else [])

/-- SENSE_SEQUENCE (R321, R322): at waymark 4 each reading takes 20 corrected samples, drops four and averages 16. The
operand gives the samples of each reading in order. -/
def Dev.senseSequence (vs : List (List Int)) (d : Dev) : Dev :=
  let c := d.image.senseCfg
  let order := senseOrder c
  if !d.image.sensing || !d.convUsable 3 || d.convFailed 3 || d.time.wm ≠ 4 || vs.length ≠ order.length ||
      vs.any (fun l => l.length ≠ 20) then d
  else
    let mean := fun (k : Nat) =>
      match order.findIdx? (· == k) with
      | some i => (averageOf 4 ((vs.getD i []).drop 4)).1
      | none => 0
    d.onSense fun s =>
      { s with taken := some { sref := mean 0, temp := [mean 1, mean 2, mean 3, mean 4], daylight := mean 5,
                               gas := [mean 6, mean 7], presence := mean 8, range := s.lightRange,
                               at' := d.scriptInstant } }

/-! ## Temperatures (R325, R326) -/

/-- x, r and t of R325 for one TEMP channel. -/
def tempCompute (c : List Byte) (x v s : Nat) : Word × Word × Word :=
  let o := 24 * x
  let one := fDec 1 0
  let xr := fDiv (fOfScaled false v 0) (fMul (fDec 2 0) (fOfScaled false s 0))
  let rref := fOfScaled false (leAt c (o + 4) 4) 0
  let r := fDiv (fMul rref xr) (fSub one xr)
  let c0 := cfgWord c (o + 8)
  let c1 := cfgWord c (o + 12)
  let c2 := cfgWord c (o + 16)
  let l := fLn r
  let t :=
    if tempKind c x = 1 then
      fSub (fDiv one (fAdd (fAdd c0 (fMul c1 l)) (fMul (fMul (fMul c2 l) l) l))) (fDec 27315 2)
    else if condF .eq c2 0 then fDiv (fSub (fDiv r c0) one) c1
    else
      let disc := fSub (fMul c1 c1) (fMul (fMul (fDec 4 0) c2) (fSub one (fDiv r c0)))
      fDiv (fAdd (fNeg c1) (fSqrt disc)) (fMul (fDec 2 0) c2)
  (xr, r, t)

/-- TEMP, RES and FAULT of a reading, from the value kept so far (R325, R326). RES is rounded to nearest, as Table 11.2
says (DEDUCED against the words "as F2U does" of R325, log 31). -/
def tempReading (c : List Byte) (x v s : Nat) (kept : Word) : Word × Word × Nat :=
  let (xr, r, t) := tempCompute c x v s
  if s < 31785 || 33751 < s then (kept, 0, 4)
  else if condF .ge xr (fDec 98 2) then (kept, 0xFFFFFFFF, 1)
  else if condF .le xr (fDec 2 3) then (kept, 0, 2)
  else
    let res := BitVec.ofInt 32 (fToInt .even 0 0 (2 ^ 32 - 1) (fMul r (fDec 10 0))).1
    if fOf t = .nan || condF .lt t (fDec (-55) 0) || condF .gt t (fDec 150 0) then (kept, res, 3)
    else ((f2q t).1, res, 0)

/-! ## Daylight, presence and gas (R327 to R329) -/

/-- An exact quotient as the nearest binary32. -/
def ratF (n : Int) (dn : Nat) : Word := fOfRat (decide (n < 0)) n.natAbs dn

/-- Daylight CURRENT in nA of a reading in a range (R327). -/
def lightCurrent (v range : Nat) : Word :=
  let k : Int := if range = 1 then 1000 else if range = 2 then 10000 else 100000
  ratF ((50 * (v : Int) - 131072) * k) 1310720

/-- The range after a reading in auto-range mode: less sensitive above 2.3 V, more sensitive below 0.3 V. -/
def nextRange (v range : Nat) : Nat :=
  if 23 * 65536 < 25 * v then min 3 (range + 1)
  else if 25 * v < 3 * 65536 then max 1 (range - 1)
  else range

/-- Whether a reading stands at 2.45 V or above. -/
def lightOver (v : Nat) : Bool := 245 * 65536 ≤ 250 * v

/-- SIGNAL in q16.16 mV (R328). -/
def presenceSignal (v : Nat) : Int := 2500 * (v : Int) - 81920000

/-- Gas CURRENT in nA for a gain code (R329). -/
def gasCurrent (v gain : Nat) : Word :=
  let k : Int := if gain = 0 then 100000 else if gain = 1 then 10000 else 1000
  ratF ((20 * (v : Int) - 655360) * k) 524288

/-- The elements of one enabled channel given NO_DATA (R324): `n` elements of which the last is the status. -/
def Dev.senseNoData (d : Dev) (ch n : Nat) : Dev :=
  d.setInputs ch 0 (List.replicate (n - 1) 0 ++ [0xFF])

/-- Number of elements of channel 0x020 + n. -/
def senseElems (n : Nat) : Nat := if n = 4 then 4 else 3

/-- BIAS of cell `x` in mV, where it is enabled. -/
def cellBias (c : List Byte) (x : Nat) : Option Int :=
  if senseEnabled c (6 + x) then some (BitVec.ofNat 16 (leAt c (0x74 + 16 * x) 2)).toInt else none

/-- The bias of a cell from milestone `ms` on: one that does not change stays applied (R330). -/
def GasCell.apply (g : GasCell) (b : Option Int) (ms : Nat) : GasCell := if g.bias = b then g else { bias := b, since := ms }

/-- The front ends of a usable PD11 under the configuration of the present image, `old` being the one before (R324, R327 to R330). A
channel that was not enabled, or that has had no delivery since PD11 became usable, has no data; the bias of a cell changes at
once. The status of PRESENCE and GAS, and the fault of TEMP and DAYLIGHT, are their last elements (log 183). -/
def Dev.senseApply (old : List Byte) (d : Dev) : Dev :=
  let c := d.image.senseCfg
  let fresh := fun (n : Nat) => senseEnabled c n && (!d.sense.delivered || !senseEnabled old n)
  let auto := byteAt c 0x60 = 1 && byteAt old 0x60 = 1 && !fresh 4
  let d1 := ((upTo 8).filter fresh).foldl (fun d n => d.senseNoData (0x020 + n) (senseElems n)) d
  d1.onSense fun s =>
    { s with taken := none, tempVal := vmapi (fun x t => if fresh x then 0 else t) s.tempVal,
             lightRange := if 2 ≤ byteAt c 0x60 then byteAt c 0x60 - 1 else if auto then s.lightRange else 3,
             presReads := if fresh 5 then 0 else s.presReads, detect := !fresh 5 && s.detect,
             belowRun := if fresh 5 then 0 else s.belowRun,
             cells := vmapi (fun x (g : GasCell) => g.apply (cellBias c x) d.ms) s.cells }

/-- PD11 becomes usable: nothing has been delivered yet, and every bias is applied. -/
def Dev.senseWake (d : Dev) : Dev := (d.onSense fun s => { s with delivered := false }).senseApply []

/-- PD11 goes off: the readings are lost and the cells rest (R75, R330). -/
def SenseState.off (s : SenseState) : SenseState :=
  { s with taken := none, cells := vmap (fun (g : GasCell) => { g with bias := none }) s.cells }

/-- Another image takes over while the device runs (R236) or leaves the tollgate (R279): the front ends follow it where PD11 is usable,
and a write failure of the image before is forgotten. -/
def Dev.senseImage (old : List Byte) (d : Dev) : Dev :=
  let d1 := d.onSense fun s => { s with i2c := vmap (fun (y : I2cDev) => { y with writeFail := none }) s.i2c }
  if d1.pd 11 then d1.senseApply old else d1

/-! ## The pins of PD11 (Table 3.6, R330, R331) -/

/-- The pins of the front ends beside AIN: reference, photodiode, pyroelectric element, and the electrodes of a gas cell. -/
inductive FrontPin where
  | sref | pdi | pirIn | pirOut
  | gce (x : Fin 2)
  | gre (x : Fin 2)
  | gwe (x : Fin 2)
  deriving DecidableEq, Repr

/-- What a pin of the front ends shows: high impedance, a level in mV that the device holds there, or a level that follows the signal
(the charge of the pyroelectric element, the current of a cell). -/
inductive FrontLevel where
  | highZ
  | held (mv : Int)
  | signal
  deriving DecidableEq, Repr

/-- The bias that the device applies to a cell now. -/
def Dev.cellBiasNow (d : Dev) (x : Fin 2) : Option Int := if d.pd 11 then (d.sense.cells[x]).bias else none

/-- Whether the rest switch connects GWEx to GREx (R330). -/
def Dev.restSwitch (d : Dev) (x : Fin 2) : Bool := (d.cellBiasNow x).isNone

/-- The state of a pin: SREF is 2.5 V, PDI is held at 0.1 V, GWEx at 1.25 V, and GREx at the bias below it. -/
def Dev.frontPin (d : Dev) (p : FrontPin) : FrontLevel :=
  match p with
  | .sref => if d.pd 11 then .held 2500 else .highZ
  | .pdi => if d.pd 11 then .held 100 else .highZ
  | .pirIn | .pirOut => if d.pd 11 then .signal else .highZ
  | .gce x => if (d.cellBiasNow x).isSome then .signal else .highZ
  | .gre x => match d.cellBiasNow x with
    | some b => .held (1250 - b)
    | none => .highZ
  | .gwe x => if (d.cellBiasNow x).isSome then .held 1250 else .highZ

/-- The presence reading of R328: SIGNAL, DETECT and STATUS. -/
def Dev.presenceStep (d : Dev) (c : List Byte) (v : Nat) : Dev :=
  let sig := presenceSignal v
  let thr := (leAt c 0x6A 2 : Int) * 65536
  let hold := leAt c 0x6C 2
  let s := d.sense
  let reads := s.presReads + 1
  let warm := reads ≤ 256
  let sat := 100 * v < 131072 || 245 * 131072 < 500 * v
  let status := if warm then 1 else if sat then 2 else 0
  let above := thr ≤ (sig.natAbs : Int)
  let below := if warm || sat then s.belowRun else if above then 0 else s.belowRun + 1
  let det :=
    if warm then false
    else if sat then s.detect
    else if above then true
    else if hold ≤ below then false else s.detect
  (d.onSense fun s => { s with presReads := reads, detect := det, belowRun := below }).setInputs 0x025 0
    [BitVec.ofInt 32 sig, cellOf det, BitVec.ofNat 32 status]

/-- SENSE_DELIVERY at boundary 64 (R323): the readings of the sequence computed and delivered together, unless boundary
64 falls less than 2.9 ms after the script instant. -/
def Dev.senseDeliver (d : Dev) : Dev :=
  match d.sense.taken with
  | none => d
  | some r =>
    let d0 := d.onSense fun s => { s with taken := none }
    if 2 * d.time.now < r.at' + 5800000 || d.convFailed 3 || !d.convUsable 3 then d0
    else
      let c := d.image.senseCfg
      let d1 := ((upTo 4).filter (senseEnabled c)).foldl (fun d x =>
        let t := tempReading c x (r.temp.getD x 0) r.sref (vgetD d.sense.tempVal x 0)
        (d.onSense fun s => { s with tempVal := vupdN s.tempVal x (fun _ => t.1) }).setInputs (0x020 + x) 0
          [t.1, t.2.1, BitVec.ofNat 32 t.2.2]) d0
      let mode := byteAt c 0x60
      let d2 :=
        if !senseEnabled c 4 then d1
        else
          let cur := lightCurrent r.daylight r.range
          let beyond := lightOver r.daylight && (mode ≠ 1 || r.range = 3)
          (d1.onSense fun s => { s with lightRange := if mode = 1 then nextRange r.daylight r.range else s.lightRange }).setInputs
            0x024 0 [cur, fMul (fDiv cur (fDec 1000 0)) (cfgWord c 0x64), BitVec.ofNat 32 r.range, cellOf beyond]
      let d3 := if senseEnabled c 5 then d2.presenceStep c r.presence else d2
      let d4 := [0, 1].foldl (fun d x =>
        if !senseEnabled c (6 + x) then d
        else
          let o := 0x70 + 16 * x
          let v := r.gas.getD x 0
          let cur := gasCurrent v (byteAt c (o + 1))
          let status := if 50 * v < 131072 || 24 * 131072 < 50 * v then 2
            else if d.ms < (vgetD d.sense.cells x { bias := none, since := 0 }).since + 256 * byteAt c (o + 2) then 1 else 0
          d.setInputs (0x026 + x) 0 [cur, fDiv cur (cfgWord c (o + 8)), BitVec.ofNat 32 status]) d3
      d4.onSense fun s => { s with delivered := true }

/-! ## Digital inputs (R332 to R334) -/

/-- The samples that a filter setting counts. -/
def filterCount (f : BitVec 2) : Nat := 4 ^ f.toNat

/-- LEVEL of a digital input: the filtered level XOR INV. -/
def DigIn.shown (x : DigIn) : Bool := x.level ^^ x.inv

/-- Digital input `i`. -/
def Dev.diOf (d : Dev) (i : Nat) : DigIn := vgetD d.sense.di i DigIn.reset

/-- DI_LEVEL_CHANGE (R332): `run` consecutive samples from the µs `stamp` on show the level; the filtered level changes
once FILTER's count is reached, with a capture entry. -/
def Dev.diChange (i : Fin 8) (level : Bool) (stamp run : Nat) (d : Dev) : Dev :=
  let x := d.sense.di[i]
  if run < filterCount x.filter || x.level = level then d
  else
    let y := { x with level := level }
    ((d.onSense fun s => { s with di := s.di.set i y }).setInput i.val 0 (cellOf y.shown)).capture i.val stamp y.shown

/-- Step 6: the DI_CFG writes of this boundary take effect (R334). -/
def Dev.sensePresent (d : Dev) : Dev :=
  (upTo 8).foldl (fun d i =>
    match (d.diOf i).pending with
    | none => d
    | some v =>
      let y := { d.diOf i with filter := v.setWidth 2, inv := v.getLsbD 2, pending := none }
      (d.onSense fun s => { s with di := vupdN s.di i (fun _ => y) }).setInput i 0 (cellOf y.shown)) d

/-! ## The I²C master (R335 to R339) -/

/-- One device entry of SCRIPTS KEY 0x0301; empty where the device is not USED. -/
def Image.i2c (m : Image) (x : Nat) : Option (List Byte) :=
  match payloadOf m.scripts 0x301 with
  | some p =>
    let e := (p.data.drop (16 * x)).take 16
    if byteAt e 0 = 1 then some e else none
  | none => none

/-- Device `x`. -/
def Dev.i2cOf (d : Dev) (x : Nat) : I2cDev := vgetD d.sense.i2c x I2cDev.reset

/-- One device changed. -/
def Dev.onI2c (d : Dev) (x : Nat) (f : I2cDev → I2cDev) : Dev :=
  d.onSense fun s => { s with i2c := vupdN s.i2c x f }

/-- The devices whose write phase falls in the present milestone, with NWR above 0 (R337). -/
def Dev.i2cWrites (d : Dev) : List Nat :=
  (upTo 8).filter fun x =>
    match d.image.i2c x with
    | some e => byteAt e 3 ≠ 0 && d.cycleCount % 2 ^ byteAt e 9 = byteAt e 10
    | none => false

/-- The devices whose read phase falls in the present milestone. -/
def Dev.i2cReads (d : Dev) : List Nat :=
  (upTo 8).filter fun x =>
    match d.image.i2c x with
    | some e => (d.cycleCount + 256 - byteAt e 11) % 2 ^ byteAt e 9 = byteAt e 10
    | none => false

/-- What the end of a transaction counts (R338, R339). -/
def Dev.i2cCount (d : Dev) (e : I2cEnd) : Dev :=
  d.onSense fun s =>
    { s with stuck := if e.code = 3 && e.sdaLow then satInc s.stuck else s.stuck,
             timeout := if e.code = 4 then satInc s.timeout else s.timeout }

/-- The bytes of a write transaction: the address with write, then NWR bytes of WR. -/
def i2cWriteBytes (c : List Byte) : List Byte :=
  BitVec.ofNat 8 (2 * byteAt c 1) :: ((c.drop 4).take (byteAt c 3))

/-- The bytes that the master takes, each acknowledged but the last. -/
def i2cTaken : List Byte → List I2cSym
  | [] => []
  | [b] => [.rx b false]
  | b :: bs => .rx b true :: i2cTaken bs

/-- What the master sends in a transaction of the device whose entry is `c` (R337, Table 11.6). -/
def i2cWire (c : List Byte) (read : Bool) (e : I2cEnd) : List I2cSym :=
  let addr := BitVec.ofNat 8 (2 * byteAt c 1 + 1)
  if e.code = 5 then []
  else if e.code = 3 then [.pulses (min 9 e.bytes), .stop]
  else if read then
    if e.code = 0 then .start :: .tx addr :: i2cTaken (e.data.take (byteAt c 8)) ++ [.stop]
    else .start :: (if e.bytes = 0 && e.code = 4 then [] else .tx addr :: i2cTaken (e.data.take (e.bytes - 1))) ++ [.stop]
  else
    let n := if e.code = 0 then 5 else if e.code = 1 then 1 else e.bytes
    .start :: ((i2cWriteBytes c).take n).map I2cSym.tx ++ [.stop]

/-- The master's part of a transaction, which ended as `e` says. -/
def Dev.i2cSend (d : Dev) (x : Nat) (read : Bool) (e : I2cEnd) : Dev :=
  let c := (d.image.i2c x).getD []
  (d.i2cCount e).onI2c x fun y => { y with wire := i2cWire c read e, fast := byteAt c 2 = 1 }

/-- A write transaction ended: a failure is kept for the read that follows (R338). -/
def Dev.i2cWriteEnd (d : Dev) (x : Nat) (e : I2cEnd) : Dev :=
  (d.i2cSend x false e).onI2c x fun y => { y with writeFail := if e.code = 0 then none else some e.code }

/-- A read transaction ended: its outcome waits for the next milestone boundary. -/
def Dev.i2cReadEnd (d : Dev) (x : Nat) (e : I2cEnd) : Dev :=
  (d.i2cSend x true e).onI2c x fun y => { y with outcome := some (e.code, e.data) }

/-- A transaction that is not started in time (R337). -/
def I2cEnd.skipped : I2cEnd := { code := 5, bytes := 0, sdaLow := false, data := [] }

/-- Transactions of a phase in ascending device order; after a STUCK with SDA still low the rest are SKIPPED (R338). -/
def Dev.i2cPhase (f : Dev → Nat → I2cEnd → Dev) : List Nat → List I2cEnd → Bool → Dev → Dev
  | [], _, _, d => d
  | x :: xs, es, dead, d =>
    let e := if dead then I2cEnd.skipped else es.headD I2cEnd.skipped
    Dev.i2cPhase f xs es.tail (dead || (e.code == 3 && e.sdaLow)) (f d x e)

/-- I2C_WRITE_PHASE (R337): in RUN, at waymark 8. The operand gives how each due transaction ends, in device order; one
that it does not give has not started in time. -/
def Dev.i2cWritePhase (es : List I2cEnd) (d : Dev) : Dev :=
  if d.sys.mode ≠ .run || d.time.wm < 8 || 120 ≤ d.time.wm then d
  else Dev.i2cPhase Dev.i2cWriteEnd d.i2cWrites es false d

/-- I2C_READ_PHASE (R337, R338): in RUN, at waymark 128; a read whose write failed is not run and reports that failure. -/
def Dev.i2cReadPhase (es : List I2cEnd) (d : Dev) : Dev :=
  if d.sys.mode ≠ .run || d.time.wm < 128 || 248 ≤ d.time.wm then d
  else
    let failed := d.i2cReads.filter (fun x => (d.i2cOf x).writeFail.isSome)
    let good := d.i2cReads.filter (fun x => (d.i2cOf x).writeFail.isNone)
    let d1 := failed.foldl (fun d x =>
      match (d.i2cOf x).writeFail with
      | some c => d.onI2c x fun y => { y with outcome := some (c, []), writeFail := none, wire := [] }
      | none => d) d
    Dev.i2cPhase Dev.i2cReadEnd good es false d1

/-- I2C_TIMEOUT (R338): a target held SCL low for more than 1 ms in the write or the read transaction of a device that is
due in this milestone, after `bytes` bytes of it. -/
def Dev.i2cTimeout (x : Fin 8) (read : Bool) (bytes : Nat) (d : Dev) : Dev :=
  let e : I2cEnd := { code := 4, bytes := bytes, sdaLow := false, data := [] }
  if d.sys.mode ≠ .run then d
  else if read then (if d.i2cReads.contains x.val then d.i2cReadEnd x.val e else d)
  else if d.i2cWrites.contains x.val then d.i2cWriteEnd x.val e else d

/-- I2C_DELIVERY at a milestone boundary (R338). -/
def Dev.i2cDeliver (d : Dev) : Dev :=
  (upTo 8).foldl (fun d x =>
    let y := d.i2cOf x
    match y.outcome with
    | none => d
    | some (code, data) =>
      let nrd := match d.image.i2c x with | some e => byteAt e 8 | none => 0
      let z :=
        if code = 0 then
          { y with outcome := none, status := 0, data := (data.take nrd ++ List.replicate 8 0).take 8, count := y.count + 1,
                   good := satInc y.good }
        else { y with outcome := none, status := code, err := satInc y.err }
      (d.onI2c x fun _ => z).setInputs (0x028 + x) 0
        [BitVec.ofNat 32 (leAt z.data 0 4), BitVec.ofNat 32 (leAt z.data 4 4), BitVec.ofNat 32 z.status, z.count]) d

/-- The inputs of every I²C device and digital input as a reset leaves them (R333, R338). -/
def Dev.senseInit (d : Dev) : Dev :=
  let d1 := (upTo 8).foldl (fun d x => d.setInputs (0x028 + x) 0 [0, 0, 0xFF, 0]) d
  (upTo 8).foldl (fun d i => d.setInput i 0 (cellOf (d.diOf i).shown)) d1

end Sys2Proof.Machine
end

