-- ==== Sys2Proof/Machine/Whisk.lean ====
section
/-! DEFINITION. The Whisk motor units: estimator, switching table, states, ramps, speed loop, braking, the command pin and
trips (15, R443 to R473). Quantities are binary32, computed in the order that the chapter gives. -/

namespace Sys2Proof.Machine

/-- Unit `u`. -/
def Dev.unit (d : Dev) (u : Nat) : Whisk := vgetD d.whisk u Whisk.reset

/-- One unit changed. -/
def Dev.onUnit (d : Dev) (u : Nat) (f : Whisk → Whisk) : Dev := { d with whisk := vupdN d.whisk u f }

/-! ## Parameters (Table 15.3) -/

/-- The parameter payload of a unit. -/
def Image.whiskPar (m : Image) (u : Nat) : List Byte :=
  match payloadOf m.scripts (0x600 + u) with
  | some p => p.data
  | none => []

/-- An f32 field. -/
def parF (c : List Byte) (o : Nat) : Word := BitVec.ofNat 32 (leAt c o 4)

/-- A whole-number field of `n` bytes as binary32. -/
def parN (c : List Byte) (o n : Nat) : Word := fOfScaled false (leAt c o n) 0

/-- π, √3 and T = 12.5 µs in binary32. -/
def fPi : Word := 0x40490FDB
def fSqrt3 : Word := fSqrt (fDec 3 0)
def fT : Word := fDec 125 7

/-- A whole number as binary32. -/
def fN (i : Int) : Word := fOfScaled false i 0

/-- Clamp in binary32. -/
def fClamp (x lo hi : Word) : Word := fMin (fMax x lo) hi

/-- SB_RPM of R463 from the payload. -/
def whiskSb (c : List Byte) : Nat :=
  let psim := parF c 0x10
  let x := fMul (parF c 0x18) (parF c 0x0C)
  if condF .le psim x then 0xFFFF
  else
    let e := fDiv (fMul (parF c 0x18) (parF c 0x08)) (fSqrt (fSub (fMul psim psim) (fMul x x)))
    let rpm := fDiv (fMul e (fN 60)) (fMul (fMul (fN 2) fPi) (parN c 0 1))
    (fToInt .floor 0 0 0xFFFE rpm).1.toNat

/-- The floor in rpm, rounded down. -/
def whiskFloor (c : List Byte) : Nat := byteAt c 1 * leAt c 4 2 / 100

/-- The floor in rpm as binary32. -/
def whiskFloorF (c : List Byte) : Word := fMul (fDiv (parN c 1 1) (fN 100)) (parN c 4 2)

/-- Whether a pot owns the unit's channel (R443). -/
def Dev.whiskUsed (d : Dev) (u : Nat) : Bool := d.image.owner (0x058 + u) < 16

/-- MODE as Table 15.2 takes a presented value. -/
def whiskModeOf (w : Word) : WhiskMode := if w = 1 then .run else if w = 2 then .brake else .off

/-- Whether a unit is enabled in the sense of Table 3.4 (R455). -/
def Dev.whiskEnabled (d : Dev) (u : Nat) : Bool :=
  d.whiskUsed u && (whiskModeOf (d.presented (0x058 + u) 0) ≠ .off ||
    ((d.unit u).run ≠ .off && (d.unit u).run ≠ .tripped))

/-! ## Vectors and the switching table (R450, R451) -/

/-- High-side states of a voltage vector. -/
def vectorLegs (k : Nat) : Bool × Bool × Bool :=
  match k with
  | 1 => (true, false, false)
  | 2 => (true, true, false)
  | 3 => (false, true, false)
  | 4 => (false, true, true)
  | 5 => (false, false, true)
  | 6 => (true, false, true)
  | 7 => (true, true, true)
  | _ => (false, false, false)

/-- Legs that differ between two vectors. -/
def legsChanged (a b : Nat) : Nat :=
  let x := vectorLegs a
  let y := vectorLegs b
  b2n (x.1 != y.1) + b2n (x.2.1 != y.2.1) + b2n (x.2.2 != y.2.2)

/-- The sector of an angle in degrees (R450): an angle on a boundary belongs to the higher-numbered sector. -/
def sectorOf (theta : Word) : Nat :=
  ((((fToInt .floor 0 (-200) 200 theta).1 + 30).fdiv 60) % 6).toNat + 1

/-- The vector of Table 15.4; Z is the zero vector that changes fewer legs, V0 of two equal ones. -/
def switchVector (dpsi : Bool) (dT : Int) (sector now : Nat) : Nat :=
  if dT = 0 then (if legsChanged now 7 < legsChanged now 0 then 7 else 0)
  else
    let step := if dpsi then (if 0 < dT then 1 else 5) else (if 0 < dT then 2 else 4)
    (sector - 1 + step) % 6 + 1

/-- The six gate outputs, UH VH WH UL VL WL (R450, R454): all low while OFF or TRIPPED. -/
def Whisk.gates (w : Whisk) : List Bool :=
  if w.run = .off || w.run = .tripped then List.replicate 6 false
  else
    let x := vectorLegs w.vector
    [x.1, x.2.1, x.2.2, !x.1, !x.2.1, !x.2.2]

/-! ## The estimator (R448, R449, R468) -/

/-- A mean of 8 samples in volts. -/
def whiskVolts (sum : Nat) : Word := fOfRat false (5 * sum) 1048576

/-- atan2 in degrees, in [−180, 180), within ±0.01° of the true angle (R449). -/
def whiskAngle (psb psa : Word) : Word :=
  match fPair psb psa with
  | none => fNaN
  | some (y, x) =>
    let t : Int := atan2Fixed y x * 1800000 / piFixed
    let e := t + clampInt (-99) 99 (Config.atanError psb psa)
    fDec (if 1800000 ≤ e then e - 3600000 else if e < -1800000 then e + 3600000 else e) 4

/-- A change of angle taken into [−180°, 180°). -/
def wrapDeg (x : Word) : Word :=
  if condF .ge x (fN 180) then fSub x (fN 360) else if condF .lt x (fN (-180)) then fAdd x (fN 360) else x

/-- The stator current amplitude. -/
def Whisk.current (w : Whisk) : Word := fSqrt (fAdd (fMul w.ia w.ia) (fMul w.ib w.ib))

/-- Flux, torque and angle at a decision (R449). -/
def Whisk.estimator (w : Whisk) (c : List Byte) (x : WhiskSample) : Whisk :=
  let cur := fun s => fMul (fSub (whiskVolts s) (fDec 125 2)) (parF c 0x20)
  let iu := cur x.iu
  let iv := cur x.iv
  let iw := cur x.iw
  let vdc := fMul (whiskVolts x.vdc) (parF c 0x24)
  let ph := fun s => fMul (whiskVolts s) (parF c 0x28)
  let ia := fDiv (fSub (fSub (fMul (fN 2) iu) iv) iw) (fN 3)
  let ib := fDiv (fSub iv iw) fSqrt3
  let l := vectorLegs w.vector
  let su := fN (b2n l.1)
  let sv := fN (b2n l.2.1)
  let sw := fN (b2n l.2.2)
  let driven := w.run = .align || w.run = .drive || w.run = .regen || w.run = .short
  let va := if driven then fDiv (fMul vdc (fSub (fSub (fMul (fN 2) su) sv) sw)) (fN 3)
    else fDiv (fSub (fSub (fMul (fN 2) (ph x.vu)) (ph x.vv)) (ph x.vw)) (fN 3)
  let vb := if driven then fDiv (fMul vdc (fSub sv sw)) fSqrt3 else fDiv (fSub (ph x.vv) (ph x.vw)) fSqrt3
  let rs := parF c 0x08
  let psa := fAdd w.psa (fMul fT (fSub (fSub va (fMul rs ia)) (fMul fPi w.psa)))
  let psb := fAdd w.psb (fMul fT (fSub (fSub vb (fMul rs ib)) (fMul fPi w.psb)))
  let theta := whiskAngle psb psa
  { w with
    ia, ib, vdc, psa, psb
    te := fMul (fMul (fDec 15 1) (parN c 0 1)) (fSub (fMul psa ib) (fMul psb ia))
    flux := fSqrt (fAdd (fMul psa psa) (fMul psb psb))
    theta := theta
    angle := fAdd w.angle (wrapDeg (fSub theta w.theta))
    decisions := w.decisions + 1
    pinSum := w.pinSum + x.pin
    flt := !x.fltHigh
    overRun := if condF .gt (fSqrt (fAdd (fMul ia ia) (fMul ib ib))) (fMul (fDec 15 1) (parF c 0x14)) then w.overRun + 1 else 0
    vdcRun := if w.run ≠ .off && (condF .lt vdc (parF c 0x54) || condF .gt vdc (parF c 0x5C)) then w.vdcRun + 1 else 0 }

/-! ## States (R454 to R457, R464, R465) -/

/-- The estimator back to STANDSTILL (Table 15.7); DIR keeps its last valid value. -/
def Whisk.standstill (w : Whisk) : Whisk := { w with est := .standstill, rotation := 0, speed := 0, lowRun := 0 }

/-- Entry to ALIGN. -/
def Whisk.toAlign (w : Whisk) : Whisk :=
  { w.standstill with run := .align, alignRun := 0, idRef := 0, integ := 0, vector := 0 }

/-- Comparators at an entry to DRIVE or REGEN (R452). -/
def Whisk.fresh (w : Whisk) : Whisk := { w with dpsi := true, dT := 0 }

/-- Entry to DRIVE after an alignment (R456). -/
def Whisk.alignedDrive (w : Whisk) (c : List Byte) : Whisk :=
  ({ w with run := .drive, psa := parF c 0x10, psb := 0, ramp := 0, idRef := 0, integ := 0 } : Whisk).fresh

/-- Entry to DRIVE by a flying start (R457). -/
def Whisk.flying (w : Whisk) : Whisk :=
  ({ w with run := .drive, ramp := w.rpm, idRef := 0, integ := 0 } : Whisk).fresh

/-- Entry to SHORT: the commit point of a stop (R465). -/
def Whisk.toShort (w : Whisk) : Whisk := { w with run := .short, vector := 0, shorts := satInc w.shorts }

/-- A MODE taken at a decision (Table 15.5): one equal to the present one changes nothing. -/
def Whisk.takeMode (w : Whisk) (m : WhiskMode) : Whisk :=
  if m = w.mode then w
  else
    let w1 := { w with mode := m, dba := if m = .brake then false else w.dba || w.run == .short }
    match w.run, m with
    | .tripped, _ => w1
    | .off, .run => if w.est = .valid then w1.flying else w1.toAlign
    | .off, _ => w1
    | _, .off => { w1 with run := .off, vector := 0 }
    | .regen, .run => ({ w1 with run := .drive, idRef := 0 } : Whisk).fresh
    | .short, .run => w1.toAlign
    | _, _ => w1

/-- A MODE taken while the trip latch is or becomes set: it is noted, and BRAKE clears DBA (R465). -/
def Whisk.noteMode (w : Whisk) (m : WhiskMode) : Whisk :=
  if m = w.mode then w else { w with mode := m, dba := w.dba && m != .brake }

/-- The trip latch set (R470): all gates low, state TRIPPED, the first source recorded. -/
def Whisk.trip (w : Whisk) (cause cx : Nat) : Whisk :=
  if w.latched then w
  else
    { w.standstill with run := .tripped, latched := true, cause := BitVec.ofNat 4 cause, cx := BitVec.ofNat 4 cx,
                        trips := satInc w.trips, vector := 0, overRun := 0, vdcRun := 0 }

/-- Whether a crossing routed to a unit is asserted, with its number. -/
def Dev.routedCx (d : Dev) (u : Nat) : Option Nat :=
  (upTo 16).find? (fun i => (d.cxOf i).state && (if u = 0 then (d.cxOf i).tripWa else (d.cxOf i).tripWb))

/-- A trip of a unit, in every device mode, while PD13 is usable. -/
def Dev.tripUnit (d : Dev) (u cause cx : Nat) : Dev := if d.pd 13 then d.onUnit u (fun w => w.trip cause cx) else d

/-! ## Target, ramp, comparators (R452, R459 to R461) -/

/-- The target of a unit and whether its clamp acts (R459). -/
def Whisk.target (w : Whisk) (c : List Byte) : Word × Bool :=
  let raw :=
    if w.run = .regen then fN 0
    else if w.source = 0 then fOfScaled false w.ref.toInt 0
    else
      let f := if w.lost then fN 0 else w.frac
      let t := fMul f (parN c 6 2)
      if w.dir then fNeg t else t
  let lim := fMul (fN 2) (parN c 4 2)
  let t := fClamp raw (fNeg lim) lim
  (t, condF .ne t raw)

/-- The ramp one decision on (R460, R461). -/
def Whisk.rampStep (w : Whisk) (c : List Byte) : Whisk :=
  let (target, clamped) := w.target c
  let up := fMul fT (parF c 0x2C)
  let dn := fMul fT (if w.run = .regen then parF c 0x34 else parF c 0x30)
  let z := fN 0
  let r := w.ramp
  let r1 :=
    if condF .gt target r then
      if condF .lt r z then fMin (fAdd r dn) (fMin target z) else fMin (fAdd r up) target
    else if condF .lt target r then
      if condF .gt r z then fMax (fSub r dn) (fMax target z) else fMax (fSub r up) target
    else r
  let band := fMul (fDec 5 2) (parN c 4 2)
  let away := (condF .gt (fSub r1 w.rpm) band && condF .gt r1 r) || (condF .gt (fSub w.rpm r1) band && condF .lt r1 r)
  { w with ramp := if w.est = .valid && away then r else r1, clamped := clamped }

/-- The comparators (R452). -/
def Whisk.compare (w : Whisk) (c : List Byte) : Whisk :=
  let h := fDiv (parF c 0x38) (fN 2)
  let ht := parF c 0x3C
  let dpsi :=
    if condF .lt w.flux (fSub w.psiRef h) then true
    else if condF .gt w.flux (fAdd w.psiRef h) then false
    else w.dpsi
  let dT : Int :=
    if w.dT = 0 then
      (if condF .le w.te (fSub w.tref ht) then 1 else if condF .ge w.te (fAdd w.tref ht) then -1 else 0)
    else if 0 < w.dT then (if condF .ge w.te w.tref then 0 else 1)
    else (if condF .le w.te w.tref then 0 else -1)
  { w with dpsi, dT }

/-- The vector of a decision (R451, R452, R454, R456). -/
def Whisk.choose (w : Whisk) (c : List Byte) : Whisk :=
  match w.run with
  | .align =>
    { w with vector := if condF .lt w.current (parF c 0x60) then 1 else 0, alignRun := w.alignRun + 1,
             clamped := (w.target c).2 }
  | .drive | .regen =>
    let w1 := (w.rampStep c).compare c
    let dT := if condF .gt w1.current (parF c 0x14) then 0 else w1.dT
    { w1 with vector := switchVector w1.dpsi dT (sectorOf w1.theta) w1.vector }
  | _ => { w with vector := 0, clamped := (w.target c).2 }

/-- ALIGN_T has elapsed (R456): ALIGN ends in DRIVE. A decision falls every 12.5 µs, 80 in a ms. -/
def Whisk.alignEnd (w : Whisk) (c : List Byte) : Whisk :=
  if w.run = .align && 80 * leAt c 0x64 2 ≤ w.alignRun then w.alignedDrive c else w

/-- DECISION (R448 to R457): while the unit is in use and PD13 usable; rows in the order of R454. -/
def Dev.whiskDecision (u : Fin 2) (x : WhiskSample) (d : Dev) : Dev :=
  if !d.whiskUsed u.val || !d.pd 13 then d
  else
    let c := d.image.whiskPar u.val
    let m := whiskModeOf (d.presented (0x058 + u.val) 0)
    let conv := d.convUsable u.val && !d.convFailed u.val
    d.onUnit u.val fun w0 =>
      let w1 := if conv then w0.estimator c x
        else { w0 with flt := !x.fltHigh, decisions := w0.decisions + 1, pinSum := w0.pinSum + x.pin }
      let w2 := { w1 with ref := d.presented (0x058 + u.val) 1, dir := d.presented (0x058 + u.val) 2 != 0 }
      if !w2.latched && !conv then (w2.trip 5 0).noteMode m
      else if !w2.latched && 4 ≤ w2.overRun then (w2.trip 3 0).noteMode m
      else if !w2.latched && 80 ≤ w2.vdcRun then (w2.trip 4 0).noteMode m
      else if w2.latched then
        if m = .off && (d.routedCx u.val).isNone && x.fltHigh then
          { w2 with latched := false, run := .off, mode := .off, vector := 0 }
        else w2.noteMode m
      else ((w2.takeMode m).alignEnd c).choose c

/-- ALIGN_COMPLETE (R456): ALIGN_T has elapsed. -/
def Dev.whiskAlign (u : Fin 2) (d : Dev) : Dev :=
  if (d.unit u.val).run ≠ .align || !d.pd 13 then d
  else d.onUnit u.val fun w => w.alignedDrive (d.image.whiskPar u.val)

/-! ## Estimates (R458, R462, R464, R466, R468, R469) -/

/-- The fraction of a pulse pin over the complete periods that end at or after `since` (R466 DUTY), edges newest first;
none where no period ends there. -/
def dutyFraction (edges : List (Nat × Bool)) (since : Nat) : Option Word :=
  let es := edges.reverse
  let rises := (es.filter (·.2)).map (·.1)
  let periods := (List.zip rises rises.tail).filter (fun p => since ≤ p.2)
  let total := periods.foldl (fun s p => s + (p.2 - p.1)) 0
  let high := periods.foldl (fun s p =>
    match es.find? (fun e => !e.2 && p.1 ≤ e.1) with
    | some e => s + (min e.1 p.2 - p.1)
    | none => s + (p.2 - p.1)) 0
  if total = 0 then none else some (fOfRat false high total)

/-- The pin fraction of the estimate period that ends (R466); an estimate period is 800 µs, 12,800 units of 62.5 ns. In
DUTY without a complete period it is free, and in FREQ it stays until the first complete period (log 145). -/
def Whisk.pinFraction (w : Whisk) (c : List Byte) (now : Nat) : Word :=
  if w.source = 2 then
    match dutyFraction w.edges (now - 12800) with
    | some f => f
    | none => fOfRat false (Config.dutyHold now % 65537) 65536
  else if w.source = 3 then
    match (w.edges.filter (·.2)).map (·.1) with
    | a :: b :: _ => if a = b then w.frac else fMin (fOfRat false 16000000 ((a - b) * leAt c 0x68 2)) (fN 1)
    | _ => w.frac
  else fMin (fOfRat false w.pinSum (3200 * max 1 w.decisions)) (fN 1)

/-- id_ref, limits and flux reference (R458). -/
def Whisk.weaken (w : Whisk) (c : List Byte) : Whisk :=
  let tp := fDec 8 4
  let vmax := fDiv w.vdc fSqrt3
  let m := fSub (fN 1) (fDiv (fMul (fAbs w.omega) w.flux) vmax)
  let thr := parF c 0x48
  let kfw := parF c 0x4C
  let id :=
    if condF .lt m thr then fMax (parF c 0x50) (fSub w.idRef (fMul (fMul kfw (fSub thr m)) tp))
    else fMin (fN 0) (fAdd w.idRef (fMul (fMul kfw (fSub m thr)) tp))
  let imax := parF c 0x14
  let psim := parF c 0x10
  let k := fMul (fMul (fDec 15 1) (parN c 0 1)) psim
  let iqm := fSqrt (fSub (fMul imax imax) (fMul id id))
  let iq := fDiv w.te k
  let a := fAdd psim (fMul (parF c 0x0C) id)
  let b := fMul (parF c 0x0C) iq
  { w with idRef := id, tlim := fMin (parF c 0x1C) (fMul k iqm), psiRef := fSqrt (fAdd (fMul a a) (fMul b b)) }

/-- The speed loop (R462). -/
def Whisk.speedLoop (w : Whisk) (c : List Byte) : Whisk :=
  if w.run ≠ .drive && w.run ≠ .regen then w
  else
    let tp := fDec 8 4
    let e := fSub w.ramp w.rpm
    let lo := fNeg w.tlim
    let integ := fClamp (fAdd w.integ (fMul (fMul (parF c 0x44) e) tp)) lo w.tlim
    let t := fClamp (fAdd (fMul (parF c 0x40) e) integ) lo w.tlim
    let fold := fClamp (fDiv (fSub (parF c 0x5C) w.vdc) (fSub (parF c 0x5C) (parF c 0x58))) (fN 0) (fN 1)
    { w with integ := integ, tref := if condF .lt (fMul t w.omega) (fN 0) then fMul t fold else t }

/-- Whether the latest two estimates agree (R468). -/
def Whisk.agree (w : Whisk) : Bool :=
  let d := fAbs (fSub w.rpm w.rpmPrev)
  decide (w.rpm.msb = w.rpmPrev.msb) && condF .le d (fMul (fDec 5 2) (fAbs w.rpm))

/-- The estimator's state at an estimate (Table 15.7); estimates stand 0.8 ms apart. -/
def Whisk.estStep (w : Whisk) (c : List Byte) : Whisk :=
  let fl := whiskFloorF c
  let above := condF .ge (fAbs w.rpm) fl
  let spd : Word := BitVec.ofInt 32 (fToInt .even 0 (-(2 ^ 31)) (2 ^ 31 - 1) w.rpm).1
  let valid := { w with est := .valid, speed := spd, dirOut := w.rpm.msb, lowRun := 0 }
  match w.est with
  | .standstill => if condF .ge (fAbs w.rotation) (fN 60) && w.agree && above then valid else w
  | .valid => if above then valid else { w with est := .low, speed := 0, lowRun := 0 }
  | .low =>
    if above && w.agree then valid
    else if 5 * leAt c 0x66 2 ≤ 4 * (w.lowRun + 1) then w.standstill
    else { w with lowRun := w.lowRun + 1 }

/-- The brake rule (R464). -/
def Whisk.brake (w : Whisk) : Whisk :=
  if w.mode ≠ .brake || w.run = .tripped || w.run = .short then w
  else
    let sb := fN w.sbRpm.toNat
    if w.sbRpm = 0xFFFF || (condF .le (fAbs w.rpm) sb && condF .le (fAbs w.rpmPrev) sb) then w.toShort
    else if w.run = .regen then w
    else ({ w with run := .regen, ramp := w.rpm } : Whisk).fresh

/-- Bits [11:0] of WHISK.STAT (Table 15.10). -/
def Whisk.stat (w : Whisk) : Nat :=
  let st := match w.run with | .off => 0 | .align => 1 | .drive => 2 | .regen => 3 | .short => 4 | .tripped => 5
  let es := match w.est with | .standstill => 0 | .low => 1 | .valid => 2
  let limit := w.clamped || (condF .gt w.tlim (fN 0) && condF .ge (fAbs w.tref) w.tlim)
  st + 16 * es + 64 * b2n (w.est == .valid) + 128 * b2n w.dirOut + 256 * b2n (condF .lt w.idRef (fN 0)) +
    512 * b2n w.lost + 1024 * b2n limit + 2048 * b2n w.dba

/-- FRACTION: the fraction × 65,536, ties to even; 0 while the command is lost (R466, R467). -/
def Whisk.fraction (w : Whisk) : Nat := if w.lost then 0 else (fToInt .even 16 0 65536 w.frac).1.toNat

/-- The elements delivered at an estimate (R469). -/
def Dev.whiskDeliver (d : Dev) (u : Nat) : Dev :=
  let w := d.unit u
  d.setInputs (0x058 + u) 3
    [w.speed, BitVec.ofNat 32 (w.stat + w.cause.toNat * 2 ^ 16), w.te, w.vdc, w.current, BitVec.ofNat 32 w.fraction]

/-- ESTIMATE (R449, R458, R462, R464, R466, R468, R469), 64 decisions after the one before. `now` is the decision's
instant in units of 62.5 ns. Without its converter a unit measures only its command pin (R466, R471). -/
def Dev.whiskEstimate (u : Fin 2) (now : Nat) (d : Dev) : Dev :=
  let c := d.image.whiskPar u.val
  if !d.whiskUsed u.val || !d.pd 13 || (d.unit u.val).decisions < 64 then d
  else if !d.convUsable u.val || d.convFailed u.val then
    d.onUnit u.val fun w => { w with frac := w.pinFraction c now, angle := 0, decisions := 0, pinSum := 0 }
  else
    let d1 := d.onUnit u.val fun w =>
      let omega := fDiv (fDiv (fMul w.angle fPi) (fN 180)) (fMul (fN 64) fT)
      let rpm := fDiv (fMul omega (fN 60)) (fMul (fMul (fN 2) fPi) (parN c 0 1))
      let frac := w.pinFraction c now
      let w1 := { w with omega := omega, rpmPrev := w.rpm, rpm := rpm, frac := frac, angle := 0, decisions := 0, pinSum := 0,
                         rotation := if w.est = EstState.standstill then fAdd w.rotation w.angle else 0,
                         edges := w.edges.take 256 }
      (((w1.weaken c).speedLoop c).estStep c).brake
    d1.whiskDeliver u.val

/-- STANDSTILL_TIMEOUT (R468): STILL_T has been spent in LOW. -/
def Dev.whiskStill (u : Fin 2) (d : Dev) : Dev :=
  if (d.unit u.val).est ≠ .low || !d.pd 13 then d else d.onUnit u.val Whisk.standstill

/-! ## Trips and the command pin -/

/-- OVERCURRENT (Table 15.8). -/
def Dev.whiskOver (u : Fin 2) (d : Dev) : Dev := if d.whiskUsed u.val then d.tripUnit u.val 3 0 else d

/-- DC_VOLTAGE (Table 15.8): in any state but OFF. -/
def Dev.whiskVdc (u : Fin 2) (d : Dev) : Dev :=
  if d.whiskUsed u.val && (d.unit u.val).run ≠ .off then d.tripUnit u.val 4 0 else d

/-- DRV_FAULT: the fault pin held low for 100 ns. -/
def Dev.whiskFault (u : Fin 2) (d : Dev) : Dev :=
  if d.whiskUsed u.val then (d.onUnit u.val fun w => { w with flt := true }).tripUnit u.val 2 0 else d

/-- CMD_LOSS (R467): the cause of Table 15.6 has held for LOSS_T; PROGRAM is never lost. -/
def Dev.whiskLoss (u : Fin 2) (d : Dev) : Dev :=
  let w := d.unit u.val
  if !d.whiskUsed u.val || w.lost || w.source = 0 then d
  else d.onUnit u.val fun w => { w with lost := true, losses := satInc w.losses }

/-- CMD_REGAINED: the cause has been absent for LOSS_T. -/
def Dev.whiskRegain (u : Fin 2) (d : Dev) : Dev := d.onUnit u.val fun w => { w with lost := false }

/-- SPEED_COMMAND_EDGE (R466): an edge stamped in units of 62.5 ns. -/
def Dev.whiskEdge (u : Fin 2) (rise : Bool) (stamp : Nat) (d : Dev) : Dev :=
  if d.whiskUsed u.val then d.onUnit u.val fun w => { w with edges := (stamp, rise) :: w.edges } else d

/-- Step 6: a WHISK.CMD write takes effect (R473). -/
def Dev.whiskPresent (d : Dev) : Dev :=
  { d with whisk := vmap (fun (w : Whisk) =>
      match w.sourcePending with
      | some s => { w with source := s, sourcePending := none, lost := if s = 0 then false else w.lost }
      | none => w) d.whisk }

/-- A unit in its start state with its counters kept (R472). -/
def Whisk.restart (w : Whisk) : Whisk :=
  { Whisk.reset with source := w.source, sourcePending := w.sourcePending, flt := w.flt, trips := w.trips, cause := w.cause,
                     cx := w.cx, sbRpm := w.sbRpm, floorRpm := w.floorRpm, shorts := w.shorts, losses := w.losses,
                     edges := w.edges, lost := w.lost, frac := w.frac }

/-- PD13 becomes usable (R472): the latch is set at once by a low fault pin or a routed crossing. -/
def Dev.whiskWake (d : Dev) : Dev :=
  [0, 1].foldl (fun d u =>
    let d1 := d.onUnit u Whisk.restart
    if d.whiskUsed u && (d.unit u).flt then d1.tripUnit u 2 0
    else match d1.routedCx u with
      | some i => d1.tripUnit u 1 i
      | none => d1) d

/-- PD13 goes off: both units stop with every gate low (R75). -/
def Dev.whiskOff (d : Dev) : Dev := { d with whisk := vmap Whisk.restart d.whisk }

/-- The parameters that an acceptance loads (R463, R473). -/
def Dev.loadWhisk (d : Dev) : Dev :=
  [0, 1].foldl (fun d u =>
    if d.whiskUsed u then
      let c := d.image.whiskPar u
      d.onUnit u fun w =>
        { w with sbRpm := BitVec.ofNat 16 (whiskSb c), floorRpm := BitVec.ofNat 16 (whiskFloor c),
                 source := BitVec.ofNat 2 (byteAt c 0x6C) }
    else d.onUnit u fun w => { w with run := .off, mode := .off, vector := 0, latched := false }) d

end Sys2Proof.Machine
end

