-- ==== Sys2Proof/Machine/Domain.lean ====
section
/-! DEFINITION. The safe plate, what each domain does when it goes off and when it becomes usable, and the events of the
converters that reach other blocks (R75, R76, R139, R140, R292, R295, R300, R302). -/

namespace Sys2Proof.Machine

/-! ## The safe plate -/

/-- The safe value of an output element (R139, R190, R506). -/
def Dev.safeOf (d : Dev) (ch el : Nat) : Word :=
  if ch = 0x060 then
    (if el = 0 || el = 1 then 1
     else if el = 2 then BitVec.ofNat 32 d.faceSafe
     else BitVec.ofNat 32 (byteAt d.image.faceCfg 0x0B))
  else
    match d.image.safe.find? (fun s => s.channel == ch && s.elem == el) with
    | some s => s.value
    | none => 0

/-- The output elements of an owned channel. -/
def Dev.outputsOf (d : Dev) (ch : Nat) : List Nat :=
  (upTo 64).filter (fun el => d.image.elem d.netAddr ch el == some true)

/-- The owned channels, ascending. -/
def Image.ownedChannels (m : Image) : List Nat := (upTo 512).filter (fun ch => m.owner ch < 16)

/-- Safe-plate values written into the output image for the owned channels that a test picks (R140). -/
def Dev.writeSafe (d : Dev) (pick : Nat → Bool) : Dev :=
  (d.image.ownedChannels.filter pick).foldl (fun d ch =>
    (d.outputsOf ch).foldl (fun d el =>
      { d with cycle := { d.cycle with outImage := mapPut d.cycle.outImage (elemKey ch el) (d.safeOf ch el) } }) d) d

/-- The safe plate of every owned element, at entry to READY and HALT. -/
def Dev.safeAll (d : Dev) : Dev := d.writeSafe (fun _ => true)

/-- The safe plate of the elements of one pot. -/
def Dev.safePot (d : Dev) (p : Nat) : Dev := d.writeSafe (fun ch => d.image.owner ch == p)

/-- The safe plate of the elements of domains that become usable. -/
def Dev.safeDomains (d : Dev) (woke : BitVec 16) : Dev :=
  d.writeSafe (fun ch => (channelDomains ch).any (fun n => woke.getLsbD n))

/-! ## Domains that go off and wake -/

/-- A converter's scripts end at an instant in half ns, and what is bound to it stops: a Whisk unit trips, the Line loses its receiver (R302, R371,
R470). -/
def Dev.convLost (d : Dev) (c at' : Nat) : Dev :=
  let d1 := d.convScriptsOff c at'
  if c < 2 then (if d1.image.bind c ≠ 0 then d1.tripUnit c 5 0 else d1)
  else if c = 2 then d1.onLine LineState.loseMc
  else d1.onSense fun s => { s with taken := none }

/-- PD11 goes off: its front ends go with the converter. -/
def Dev.frontsOff (d : Dev) (c : Nat) : Dev := if c = 3 then d.onSense SenseState.off else d

/-- What the blocks of one domain do at the instant, in ns, at which it goes off (R75, Table 3.6). A carriageway takes every task on it
into an overrun at its next deadline (Table 3.7), as CARRIAGEWAY even where its lane had failed before (DESIGN CHOICE, log 161). -/
def Dev.domainOff (d : Dev) (at' n : Nat) : Dev :=
  if n < 2 || n = 6 || n = 7 then d
  else if n < 6 then
    let lose := fun (t : Nat) (x : TaskState) =>
      match d.image.route t, x.window with
      | some r, some w =>
        if 2 + r.lane / 11 = n then { x with window := some { w with status := .stuck, fail := some OvrCause.carriageway } } else x
      | some r, none => if 2 + r.lane / 11 = n then { x with cwLost := true } else x
      | none, _ => x
    { d with cycle := { d.cycle with tasks := vmapi lose d.cycle.tasks } }
  else if n < 12 then ((d.convLost (n - 8) (2 * at')).convOff (n - 8) (2 * at')).frontsOff (n - 8)
  else if n = 12 then d.onLine LineState.offPd12
  else if n = 13 then d.whiskOff
  else if n = 14 then d.onFan FanState.off
  else d.faceOff

/-- The Line's quiet start begins at the boundary at which PD12 first becomes usable under an image that uses the Line
(R273). -/
def Dev.lineStart (d : Dev) : Dev :=
  if d.image.lineEn && d.pd 12 && d.line.quiet.isNone then d.onLine fun l => { l with quiet := some d.ms } else d

/-- What the blocks of one domain do when it becomes usable. -/
def Dev.domainWake (cals : List (List CalResult)) (d : Dev) (n : Nat) : Dev :=
  if n = 11 then (d.convWake (cals.getD 3 []) 3).senseWake
  else if 8 ≤ n && n < 11 then d.convWake (cals.getD (n - 8) []) (n - 8)
  else if n = 12 then d.lineStart
  else if n = 13 then d.whiskWake
  else if n = 14 then d.fanWake
  else if n = 15 then d.faceWake
  else d

/-- Several domains, ascending. -/
def Dev.domainsOff (d : Dev) (m : BitVec 16) : Dev :=
  ((upTo 16).filter (fun n => m.getLsbD n)).foldl (fun d n => d.domainOff d.time.now n) d

/-- Several domains that become usable, ascending, with the safe plate of their elements. -/
def Dev.domainsWake (cals : List (List CalResult)) (d : Dev) (m : BitVec 16) : Dev :=
  if m = 0 then d else (((upTo 16).filter (fun n => m.getLsbD n)).foldl (Dev.domainWake cals) d).safeDomains m

/-- A host write of SYS.PD_REQ accepted before a fault does not restart the domain (R81): its bit is read as 0. -/
def maskReq (n : Nat) (w : HostWrite) : HostWrite :=
  match w with
  | .reg a v p r k => if a = 0x104 then .reg a (v &&& ~~~(1#32 <<< n)) p r k else w
  | _ => w

/-- DOMAIN_FAULT of PD3, PD4, PD5 or PD8 to PD15 (R80, R81, Table 3.7): power is removed at once, at an instant
in ns. -/
def Dev.domainFault (d : Dev) (at' n : Nat) : Dev :=
  if !d.pdOn n then d
  else
    let m : BitVec 16 := 1#16 <<< n
    let d1 := (d.onPower fun p =>
      { p with on := p.on &&& ~~~m, ready := p.ready &&& ~~~m, req := p.req &&& ~~~m, fault := p.fault ||| m,
               faults := satInc p.faults }).dropVcore n
    let d2 := { d1 with cycle := { d1.cycle with hostQ := d1.cycle.hostQ.map (maskReq n) } }
    (d2.domainOff (max at' d.time.now) n).event 0x04 n 0 0 0

/-! ## Converter events -/

/-- What a converter event at an instant in half ns leaves: a converter that has newly failed takes its users with it (R302). -/
def Dev.afterConv (before after : Dev) (c at' : Nat) : Dev :=
  if !before.convFailed c && after.convFailed c then after.convLost c at' else after

/-- SLICE_STALL (R295), of a slice whose tick falls at an instant in half ns. -/
def Dev.sliceStall (c : Fin 4) (k : Fin 9) (at' : Nat) (d : Dev) : Dev := d.afterConv (d.stallSlice c.val k.val at') c.val at'

/-- CALIBRATION_ROTATION (R292). -/
def Dev.rotation (c : Fin 4) (e : CalEnv) (d : Dev) : Dev := d.afterConv (d.calRotation c e) c.val (2 * d.time.now)

/-- CROSSING_ASSERT (R300, R65): the crossing's input passes its threshold at a ns stamp, so it asserts, with every action that it
is routed to. `level` is the input in µV as the comparator sees it. -/
def Dev.crossingAssert (i : Fin 16) (stamp level : Nat) (d : Dev) : Dev :=
  if d.cxArmed i.val && (d.cxOf i.val).meets level then
    let d1 := d.cxAssert i.val stamp
    let d2 := if (d.cxOf i.val).tripWa then d1.tripUnit 0 1 i.val else d1
    if (d.cxOf i.val).tripWb then d2.tripUnit 1 1 i.val else d2
  else d

/-- CROSSING_DEASSERT (R300). -/
def Dev.crossingDrop (i : Fin 16) (stamp level : Nat) (d : Dev) : Dev :=
  if (d.cxOf i.val).returns level then d.cxDrop i.val stamp else d

end Sys2Proof.Machine
end

