-- ==== Sys2Proof/Machine/Lanes.lean ====
section
/-! DEFINITION. Physical and logical lanes: the map of an acceptance, failures, retirement and exchange (04, R83 to
R94). -/

namespace Sys2Proof.Machine

/-- An operation of the lanes on the whole device. -/
def Dev.onLane (d : Dev) (f : LaneState → LaneState) : Dev := { d with lane := f d.lane }

/-- The working physical lanes of carriageway `c`, ascending. -/
def LaneState.working (l : LaneState) (c : Nat) : List Nat :=
  ((upTo 12).map (12 * c + ·)).filter (fun k => !(vgetD l.phys k { retired := true, cause := 0, fails := 0 }).retired)

/-- The map of a fresh acceptance (R83): ascending logical lanes onto ascending working physical lanes, the first one
left over being the spare. -/
def LaneState.remap (l : LaneState) : LaneState :=
  { l with map := vmapi (fun i _ => (l.working (i / 11))[i % 11]?) l.map,
           spare := vmapi (fun c _ => (l.working c)[11]?) l.spare, failing := [], planned := none }

/-- The physical lane that serves a logical lane. -/
def LaneState.served (l : LaneState) (i : Nat) : Option Nat := vgetD l.map i none

/-- The logical lane that a physical lane serves. -/
def LaneState.logical (l : LaneState) (k : Nat) : Option Nat := (upTo 44).find? (fun i => l.served i == some k)

/-- Whether a window of a logical lane is open. -/
def Dev.laneOpen (d : Dev) (i : Nat) : Bool :=
  (upTo 64).any fun t =>
    match d.image.route t with
    | some r => r.lane == i && (vgetD d.cycle.tasks t TaskState.reset).window.isSome
    | none => false

/-- The retirement of a physical lane (R90): its state, the record of R580 and the fault log; `served` is what the log
gives as the logical lane. -/
def Dev.retireLane (d : Dev) (k cause served : Nat) : Dev :=
  ((d.onLane fun l => { l with phys := vupdN l.phys k (fun p => { p with retired := true, cause := BitVec.ofNat 4 cause }) })
    |>.recordRetirement 1 k cause).event 0x05 k cause 0 served

/-- A failure found in a physical lane: counted; a mapped lane waits for its exchange, and inside an open window a STALL
or PARITY leaves that release without a commit (R89); a spare or an unmapped lane is retired at once (R87). -/
def Dev.laneFail (d : Dev) (k cause : Nat) : Dev :=
  if (vgetD d.lane.phys k { retired := true, cause := 0, fails := 0 }).retired then d
  else
    let d1 := d.onLane fun l => { l with phys := vupdN l.phys k (fun p => { p with fails := satInc p.fails }) }
    match d1.lane.logical k with
    | some i =>
      let stuck := fun (t : Nat) (s : TaskState) =>
        match d1.image.route t, s.window with
        | some r, some w =>
          if r.lane = i then { s with window := some { w with status := .stuck, fail := some .lane } } else s
        | _, _ => s
      let d2 := if cause = 1 then d1 else { d1 with cycle := { d1.cycle with tasks := vmapi stuck d1.cycle.tasks } }
      if d2.lane.failing.any (fun f => f.1 == i) then d2
      else d2.onLane fun l => { l with failing := l.failing ++ [(i, cause)] }
    | none =>
      (d1.onLane fun l => { l with spare := vmapi (fun _ s => if s = some k then none else s) l.spare }).retireLane k cause 0xFFFF

/-- SELFTEST (R86): run only while no window of the lane is open; a wrong signature is a failure of cause SELFTEST. -/
def Dev.selftest (k : Fin 48) (good : Bool) (d : Dev) : Dev :=
  let open' := match d.lane.logical k.val with
    | some i => d.laneOpen i
    | none => false
  if good || open' then d else d.laneFail k.val 1

/-- LANE_STALL. -/
def Dev.laneStall (k : Fin 48) (d : Dev) : Dev := d.laneFail k.val 2

/-- LANE_PARITY. -/
def Dev.laneParity (k : Fin 48) (d : Dev) : Dev := d.laneFail k.val 3

/-- The exchange of one failed logical lane for its carriageway's spare (R88), or, with no spare, its retirement with
the logical lane left unmapped (R91). A planned exchange asked for the same lane is carried out with it (R94). -/
def Dev.exchangeFailed (d : Dev) (i cause : Nat) : Dev :=
  let c := i / 11
  match d.lane.served i with
  | none => d.onLane fun l => { l with failing := l.failing.filter (fun f => f.1 != i) }
  | some k =>
    let s := vgetD d.lane.spare c none
    let asked := d.lane.planned == some i && s.isSome
    let d1 := d.onLane fun l =>
      { l with map := vupdN l.map i (fun _ => s), spare := vupdN l.spare c (fun _ => none),
               failing := l.failing.filter (fun f => f.1 != i),
               planned := if asked then none else l.planned, xResult := if asked then 1 else l.xResult }
    d1.retireLane k cause (if s.isSome then i else 0xFFFF)

/-- The planned exchange (R92): the former physical lane becomes the spare; with no spare left it reports NO_SPARE. -/
def Dev.exchangePlanned (d : Dev) (i : Nat) : Dev :=
  let c := i / 11
  match d.lane.served i, vgetD d.lane.spare c none with
  | some k, some s =>
    (d.onLane fun l =>
      { l with map := vupdN l.map i (fun _ => some s), spare := vupdN l.spare c (fun _ => some k), planned := none,
               xResult := 1 }).event 0x06 i k 0 s
  | _, _ => d.onLane fun l => { l with planned := none, xResult := 2 }

/-- LANE_EXCHANGE: every failed lane with no open window, then a planned exchange whose lane has none (R88, R92). -/
def Dev.laneExchange (d : Dev) : Dev :=
  let d1 := d.lane.failing.foldl (fun d f => if d.laneOpen f.1 then d else d.exchangeFailed f.1 f.2) d
  match d1.lane.planned with
  | some i => if d1.laneOpen i then d1 else d1.exchangePlanned i
  | none => d1

/-- LANE_XCHG: a write of LANE.XCHG (R92, R94, Table 4.2). RESULT keeps the earlier outcome until the exchange (DESIGN CHOICE,
log 159). -/
def Dev.laneXchg (v : Word) (d : Dev) : Dev :=
  let i := bitsOf v.toNat 5 0
  if !bitOf v.toNat 8 then d
  else if 44 ≤ i || (d.lane.served i).isNone then d.onLane fun l => { l with xResult := 3 }
  else if (vgetD d.lane.spare (i / 11) none).isNone then d.onLane fun l => { l with xResult := 2 }
  else d.onLane fun l => { l with planned := some i }

/-- A reset retires every lane whose exchange is pending (R88). -/
def Dev.lanesAtReset (d : Dev) : Dev :=
  let d1 := d.lane.failing.foldl (fun d f =>
    match d.lane.served f.1 with
    | some k => d.retireLane k f.2 f.1
    | none => d) d
  d1.onLane fun l => { l with failing := [], planned := none, xResult := 0, map := Vector.replicate 44 none,
                              spare := Vector.replicate 4 none }

/-- Lane records loaded at start-up from the retirement records (R580). -/
def Dev.loadLaneRecords (d : Dev) : Dev :=
  let n := min d.sys.recorded.toNat 255
  let rec' := (upTo n).map (fun i => d.store.group (0x101 + i))
  d.onLane fun l =>
    { l with phys := vmapi (fun k p =>
        match rec'.find? (fun b => byteAt b 0 == 1 && byteAt b 1 == k) with
        | some b => { p with retired := true, cause := BitVec.ofNat 4 (byteAt b 2) }
        | none => { p with retired := false, cause := 0 }) l.phys }

end Sys2Proof.Machine
end

