-- ==== Sys2Proof/Machine/Time.lean ====
section
/-! DEFINITION. The zero-crossing lock, the milestone generator, crystal compensation, beacon discipline and the time
latches (02, R38 to R58; R266). -/

namespace Sys2Proof.Machine

/-- An operation of the time base on the whole device. -/
def Dev.onTime (d : Dev) (f : TimeState → TimeState) : Dev := { d with time := f d.time }

/-- Whether a period lies between 65 Hz and 45 Hz inclusive. -/
def periodInRange (p : Nat) : Bool := decide (15384615 ≤ p) && decide (p ≤ 22222222)

/-- Whether a crossing with period `p` after a period `prev` is good: in range, and within 1 % of a previous period
that is itself in range. -/
def goodPeriod (prev p : Nat) : Bool :=
  periodInRange p && (!periodInRange prev || (if p ≤ prev then prev - p else p - prev) * 100 ≤ prev)

/-- Whether a phase offset lies within ±1/36 of a period of `k` thirds. -/
def nearThird (p ofs k : Nat) : Bool :=
  let c := k * p / 3
  (if ofs ≤ c then c - ofs else ofs - c) * 36 ≤ p

/-- The nominal third of a learnt offset: 1, 2, or 0 where it lies near neither. -/
def nominalThird (p ofs : Nat) : Nat := if nearThird p ofs 1 then 1 else if nearThird p ofs 2 then 2 else 0

/-- ZC1_OK and ZC2_OK (R41): 8 consecutive accepted crossings, an offset near a third, another one than the other
input's. An offset that has not yet been averaged over 256 milestones is the mean of those seen (DESIGN CHOICE, log 153). -/
def TimeState.okBits (t : TimeState) : TimeState :=
  let p := t.meanPeriod
  let n1 := if t.offsets1.isEmpty then 0 else nominalThird p (meanOf t.offsets1)
  let n2 := if t.offsets2.isEmpty then 0 else nominalThird p (meanOf t.offsets2)
  let on := t.zcMode == 1 && p != 0
  { t with
    zc1Ok := on && decide (8 ≤ t.zc[1].accepted) && n1 != 0 && n1 != n2
    zc2Ok := on && decide (8 ≤ t.zc[2].accepted) && n2 != 0 && n1 != n2 }

/-- The input that the milestone is taken from, by its number. -/
def TimeSource.input : TimeSource → Option Nat
  | .zc0 => some 0
  | .zc1 => some 1
  | .zc2 => some 2
  | .timeBase => none

/-- The source of an input number. -/
def sourceOf (i : Nat) : TimeSource := if i = 0 then .zc0 else if i = 1 then .zc1 else .zc2

/-- The learnt offset of an input from ZC0. -/
def TimeState.learnt (t : TimeState) (i : Nat) : Nat :=
  if i = 1 then meanOf t.offsets1 else if i = 2 then meanOf t.offsets2 else 0

/-- The instant that a milestone start should have, from a crossing of the source input (R39): the stamp less the
learnt offset, plus OFFSET, plus TRIM. -/
def TimeState.aim (t : TimeState) (i stamp : Nat) : Nat :=
  ((stamp : Int) - t.learnt i + t.zcOffset.toNat * 1000 + t.trim.toInt * 10).toNat

/-- The lock to FREE: milestones from the time base. -/
def TimeState.free (t : TimeState) : TimeState :=
  { t with lock := .free, source := .timeBase, aligned := false, target := none, holdMs := 0, sourceMove := false }

/-- How late a milestone start stands against its target, in ns: positive where the next milestones must shorten; the
direction that reaches the target sooner, lengthening where both are equal (R46). -/
def phaseError (start target p : Nat) : Int :=
  let e := (((start : Int) - target) % (p : Int)).toNat
  if 2 * e < p then (e : Int) else (e : Int) - p

/-- Whether a milestone that started at `start` stands at its target phase: within 5 µs of it (Table 2.3 ALIGNED; DEDUCED from
Table 2.6, log 30). -/
def standsAt (start target p : Nat) : Bool := decide ((phaseError start target p).natAbs ≤ 5000)

/-- The lock to LOCKED on an input. ALIGNED tells at once whether the present milestone stands at the target. -/
def TimeState.lockOn (t : TimeState) (i stamp : Nat) : TimeState :=
  { t with lock := .locked, source := sourceOf i, aligned := standsAt t.msStart (t.aim i stamp) (vgetD t.zc i ZcInput.none).period,
           outRange := 0, holdMs := 0, sourceMove := t.lock == .locked,
           lockedPeriods := ((vgetD t.zc i ZcInput.none).period :: (if t.lock = .locked then t.lockedPeriods else [])).take 8
           target := some (t.aim i stamp) }

/-- A zero-crossing stamp truncated to 1/65,536 of a waymark of system time (R58, Table 2.8), as its instant in ns. An instant
before the present milestone lies in the one before. -/
def TimeState.zcStamp (t : TimeState) (at' : Nat) : Nat :=
  let part := fun (start len : Nat) => start + (at' - start) * 2 ^ 24 / len * len / 2 ^ 24
  if t.msStart ≤ at' then part t.msStart t.msLen
  else
    match t.starts with
    | _ :: b :: _ => part b (t.msStart - b)
    | _ => at'

/-- Whether a period between crossings counts for TIME.PERIOD: it fits the 25-bit field. A longer one is a gap in the mains
(DESIGN CHOICE, log 82). -/
def periodCounts (p : Nat) : Bool := p != 0 && decide (p < 2 ^ 25)

/-- An accepted crossing entered in its input's record. -/
def TimeState.stampZc (t : TimeState) (i : Fin 3) (stamp : Nat) : TimeState :=
  let z := t.zc[i]
  let p := match z.last with | some l => stamp - l | none => 0
  let good := z.last.isSome && goodPeriod z.period p
  let t1 := { t with zc := t.zc.set i { last := some stamp, period := p, mains := if periodInRange p then p else z.mains
                                        good := if good then z.good + 1 else 0, accepted := z.accepted + 1 } }
  if i.val = 0 then
    let t2 := { t1 with range := if z.last.isSome then !periodInRange p else t1.range, zc0Good := t1.zc0Good || good
                        zc0Periods := if periodCounts p then (p :: t1.zc0Periods).take 8 else t1.zc0Periods }
    t2.okBits
  else
    match t1.zc[0].last with
    | some l =>
      let p0 := t1.meanPeriod
      if p0 ≠ 0 && 2 * (stamp - l) < 3 * p0 then
        let o := (stamp - l) % p0
        (if i.val = 1 then { t1 with offsets1 := (o :: t1.offsets1).take 256 }
         else { t1 with offsets2 := (o :: t1.offsets2).take 256 }).okBits
      else t1.okBits
    | none => t1.okBits

/-- What an accepted crossing does to the lock (Table 2.2, R43). -/
def TimeState.lockStep (t : TimeState) (i stamp : Nat) : TimeState :=
  let z := vgetD t.zc i ZcInput.none
  let out := decide (z.period ≠ 0) && !periodInRange z.period
  match t.lock with
  | .free => if i = 0 && 1 ≤ z.good && !t.imgXtal then { t with lock := .acquire } else t
  | .acquire =>
    if i ≠ 0 then t
    else if z.good = 0 then t.free
    else if 8 ≤ z.good then t.lockOn 0 stamp
    else t
  | .holdover => if i = 0 && 8 ≤ z.good then t.lockOn 0 stamp else t
  | .locked =>
    if t.source.input = some i then
      if out then
        if t.outRange + 1 < 4 then { t with outRange := t.outRange + 1 }
        else { t.free with range := true, cntRange := satInc t.cntRange, outRange := 0 }
      else
        { t with outRange := 0, target := some (t.aim i stamp),
                 lockedPeriods := if periodInRange z.period then (z.period :: t.lockedPeriods).take 8 else t.lockedPeriods }
    else if i = 0 && 8 ≤ z.good then t.lockOn 0 stamp
    else t

/-- ZC_CROSSING (R38): the input passed its threshold at `at'` ns and stayed above it for `high` ns. Less than 400 µs, less than
half the last accepted period after the crossing before, or ZC1 and ZC2 in one-phase mode: not accepted. The last accepted period
is the last one between 45 and 65 Hz, as the worked outage of the chapter needs (DEDUCED, log 154). -/
def Dev.zcCrossing (i : Fin 3) (at' high : Nat) (d : Dev) : Dev :=
  let z := d.time.zc[i]
  let stamp := d.time.zcStamp at'
  let early := match z.last with
    | some l => stamp ≤ l || 2 * (stamp - l) < z.mains
    | none => false
  if high < 400000 || early || (i.val ≠ 0 && d.time.zcMode != 1) then d
  else d.onTime fun t => (t.stampZc i stamp).lockStep i.val stamp

/-- ZC_TIMEOUT (R42): 1.5 periods without a crossing on an input. -/
def Dev.zcTimeout (i : Fin 3) (d : Dev) : Dev :=
  d.onTime fun t0 =>
    let t := ({ t0 with zc := vupd t0.zc i (fun z => { z with good := 0, accepted := 0 }) } : TimeState).okBits
    match t.lock with
    | .acquire => if i.val = 0 then t.free else t
    | .locked =>
      if t.source.input ≠ some i.val then t
      else if t.zcMode == 1 && t.zc1Ok && i.val ≠ 1 then { t with source := .zc1, outRange := 0, sourceMove := true }
      else if t.zcMode == 1 && t.zc2Ok && i.val ≠ 2 then { t with source := .zc2, outRange := 0, sourceMove := true }
      else { t with lock := .holdover, source := .timeBase, holdMs := 0, outRange := 0, sourceMove := false,
                        cntLoss := satInc t.cntLoss }
    | _ => t

/-- HOLDOVER_EXPIRY (R42). -/
def Dev.holdoverExpiry (d : Dev) : Dev :=
  if d.time.lock == .holdover && 250 ≤ d.time.holdMs then d.onTime TimeState.free else d

/-- The crystal is declared failed (R53): the time base runs from the RC oscillator until the next reset. -/
def Dev.xtalFail (d : Dev) : Dev :=
  if d.time.xtalFail then d
  else
    (d.onTime fun t => { t with xtalFail := true, onXtal := false, cntXtal := satInc t.cntXtal }).event 0x0F 0 0 0 0

/-- XTAL_SWITCHOVER (R266): 4,096 crystal periods have agreed with the RC oscillator; the move itself falls at the next
milestone boundary. -/
def Dev.xtalSwitchover (d : Dev) : Dev :=
  if d.time.xtalFail || d.time.onXtal then d else { d with sys := { d.sys with xtalAgree := true } }

/-- XTAL_START_TIMEOUT (R266): 2.0 s after step 2 the crystal has not taken over. -/
def Dev.xtalStartTimeout (d : Dev) : Dev := if d.time.onXtal || d.sys.xtalAgree then d else d.xtalFail

/-- error(T) in ppb for a temperature in 0.01 °C (R50). -/
def TimeState.errorPpb (t : TimeState) (temp : Int) : Int :=
  let dt := temp - t.compT0.toInt
  t.compD.toInt - ((t.compK.toNat : Int) * dt * dt).fdiv 10000

/-- XTAL_COMP (R50): at the boundary of a milestone whose count is a multiple of 16 the sensor, in 0.01 °C, gives the new
correction; the device subtracts the error from the counted rate. -/
def Dev.xtalComp (temp : Int) (d : Dev) : Dev :=
  if d.time.count.toNat % 16 ≠ 0 || d.time.wm ≠ 0 then d
  else d.onTime fun t => { t with dieTemp := temp, rate := -t.errorPpb temp }

/-- DIE_TEMP_REFRESH (R31): at the boundary of a milestone whose count is a multiple of 256 the measured value, in 0.01 °C, is
rounded to whole °C, ties to even. -/
def Dev.dieTempRefresh (temp : Int) (d : Dev) : Dev :=
  if d.time.count.toNat % 256 ≠ 0 || d.time.wm ≠ 0 then d
  else d.onTime fun t => { t with dieTemp := temp, dieShown := divRoundEven temp 100 }

/-- Both readings of the die temperature at a milestone boundary, before any task releases (R31, R50). -/
def Dev.readDie (temp : Int) (d : Dev) : Dev := (d.xtalComp temp).dieTempRefresh temp

/-- NET_CHECKPOINT (R55): the junction writes its network number at every multiple of 65,536. -/
def Dev.netCheckpoint (d : Dev) : Dev :=
  if d.junction && d.time.netValid && d.netMs % 65536 = 0 then
    d.onStore fun s => s.writeImm 0x82 (leBytes 6 d.netMs ++ [0, 0])
  else d

/-! ## Time latches (R56) -/

/-- Waymark and fraction as TIME.WM shows them. -/
def Dev.wmWord (d : Dev) (frac : BitVec 16) : BitVec 32 := BitVec.ofNat 32 (frac.toNat + d.time.wm * 65536)

/-- Local SI time, in µs, at a fraction of the present waymark. -/
def Dev.siAt (d : Dev) (frac : BitVec 16) : Nat :=
  (d.time.now + (d.wmStart (d.time.wm + 1) - d.wmStart d.time.wm) * frac.toNat / 65536) / 1000 % 2 ^ 64

/-- TIME_MS_LO_READ: an accessor's read of TIME.MS_LO latches its MS_HI and WM; accessors 0 to 15 are the pots, 0 the
Hob, and 16 is the host seat. -/
def Dev.msLoRead (who : Fin 17) (frac : BitVec 16) (d : Dev) : Dev :=
  d.onTime fun t =>
    { t with latchHi := t.latchHi.set who (BitVec.ofNat 16 (t.count.toNat / 2 ^ 32)),
             latchWm := t.latchWm.set who (d.wmWord frac) }

/-- TIME_SI_LO_READ: an accessor's read of TIME.SI_LO latches its SI_HI. -/
def Dev.siLoRead (who : Fin 17) (frac : BitVec 16) (d : Dev) : Dev :=
  d.onTime fun t => { t with latchSi := t.latchSi.set who (BitVec.ofNat 32 (d.siAt frac / 2 ^ 32)) }

/-- A privileged write of TIME.SI_OFS_LO on the junction: held until the high half is written. -/
def Dev.siOfsLo (v : BitVec 32) (d : Dev) : Dev :=
  if d.junction then d.onTime fun t => { t with siOfsLoHeld := v } else d

/-- SI_OFS_WRITE (R55): on the junction the held value takes effect and SI_VALID is set; a member ignores it. -/
def Dev.siOfsWrite (hi : BitVec 32) (d : Dev) : Dev :=
  if d.junction then d.onTime fun t => { t with siOfs := hi ++ t.siOfsLoHeld, siValid := true } else d

/-! ## The milestone generator (R39, R45 to R49) -/

/-- The nominal length of the next milestone. -/
def TimeState.nominal (t : TimeState) : Nat :=
  match t.lock, t.source.input with
  | .locked, some i =>
    let p := (vgetD t.zc i ZcInput.none).period
    if periodInRange p then p else meanOf t.lockedPeriods
  | .locked, none => meanOf t.lockedPeriods
  | .holdover, _ => meanOf t.lockedPeriods
  | _, _ => 20000000

/-- The length of the milestone that starts now, and whether its start stands at the target phase: in RUN by slewing of
at most 0.5 % (R46), otherwise in one step that leaves no milestone shorter than half its nominal length (R45). A start
within 5 µs of its target counts as aligned (DEDUCED from Table 2.6, log 30). -/
def TimeState.plan (t : TimeState) (run : Bool) : TimeState :=
  let p := t.nominal
  match t.target with
  | none => { t with msLen := p, aligned := false }
  | some g =>
    let s := phaseError t.msStart g p
    let lim : Int := if t.sourceMove then 2000 else Int.ofNat (p / 200)
    let adj := if run || t.sourceMove then clampInt (-lim) lim s else s
    { t with msLen := ((p : Int) - adj).toNat, aligned := standsAt t.msStart g p,
             sourceMove := t.sourceMove && decide (2000 < s.natAbs) }

/-- Whether a milestone that starts now outside RUN moves the phase in one step (R45): by more than the 5 µs within which a start
stands at its target (DEDUCED, log 185). -/
def TimeState.steps (t : TimeState) (run : Bool) : Bool :=
  match t.target with
  | none => false
  | some g => !run && !t.sourceMove && !standsAt t.msStart g t.nominal

/-- TRIM moved by at most 1 µs towards the filtered error while BEACON is active and the last beacon carried LOCKED (R51); a
junction's TRIM is 0. -/
def TimeState.moveTrim (t : TimeState) (junction : Bool) : TimeState :=
  if junction then { t with trim := 0 }
  else if !t.beacon || !t.beaconLock || t.trimLimit || t.phMismatch then t
  else
    let now := t.trim.toInt
    { t with trim := BitVec.ofInt 16 (clampInt (now - 100) (now + 100) (clampInt (-25000) 25000 t.trimFilter)) }

/-- TIME.ZC with a write that waits for the milestone boundary: reserved values of a field leave it as it was (R5). The
register reads as written from the write on (DEDUCED, log 48). -/
def TimeState.zcTaken (t : TimeState) : TimeState :=
  match t.zcPending with
  | none => t
  | some v =>
    let o := bitsOf v.toNat 14 0
    let ph := bitsOf v.toNat 17 16
    let m := bitsOf v.toNat 19 18
    { t with zcPending := none,
             zcOffset := if o ≤ 22222 then BitVec.ofNat 15 o else t.zcOffset,
             zcPhase := if ph < 3 then BitVec.ofNat 2 ph else t.zcPhase,
             zcMode := if m < 2 then BitVec.ofNat 2 m else t.zcMode }

/-- TIME.ZC as one word. -/
def TimeState.zcWord (t : TimeState) : Nat := t.zcOffset.toNat + 65536 * t.zcPhase.toNat + 262144 * t.zcMode.toNat

/-- A write of TIME.ZC, after any that waits. -/
def TimeState.zcWrite (t : TimeState) (v : Word) : TimeState :=
  { t with zcPending := some (BitVec.ofNat 32 ({ t.zcTaken with zcPending := some v }.zcTaken.zcWord)) }

/-- A TIME.ZC write takes effect (R40). -/
def TimeState.zcApply (t : TimeState) : TimeState :=
  if t.zcPending.isNone then t
  else
    let t1 := t.zcTaken
    let shift : Int := ((t1.zcOffset.toNat : Int) - t.zcOffset.toNat) * 1000
    { t1 with target := t1.target.map (fun g => ((g : Int) + shift).toNat) }.okBits

/-- A milestone boundary: the count and the crystal take-over of R266 (R49). The length of the milestone that starts is planned
once the modes and sources of its boundary have been settled. -/
def Dev.newMilestone (d : Dev) : Dev :=
  let t := d.time
  let t1 := { t with msStart := t.msStart + t.msLen, wm := 0, count := t.count + 1, now := t.msStart + t.msLen,
                     holdMs := if t.lock == LockState.holdover then t.holdMs + 1 else t.holdMs,
                     beaconAge := t.beaconAge + 1, junctionAge := t.junctionAge + 1,
                     onXtal := t.onXtal || (d.sys.xtalAgree && !t.xtalFail) }
  { d with time := { t1 with starts := (t1.msStart :: t1.starts).take 256 },
           sys := { d.sys with xtalAgree := false } }

/-- The plan of the milestone that starts at the present boundary: the writes of R40 that the boundary has accepted, TRIM, and
the length, in the mode and from the source that the boundary leaves (R45, R46). A source that an image switched in at this
boundary selects counts from this milestone on (DESIGN CHOICE, log 155). -/
def Dev.planMilestone (d : Dev) : Dev :=
  d.onTime fun t => (t.zcApply.moveTrim d.junction).plan (d.sys.mode == .run)

/-- Whether that milestone begins with a step of the phase. -/
def Dev.phaseSteps (d : Dev) : Bool := (d.time.zcApply.moveTrim d.junction).steps (d.sys.mode == .run)

/-- The instant of the next waymark boundary within the milestone. -/
def Dev.nextWaymark (d : Dev) : Dev :=
  d.onTime fun t => { t with wm := t.wm + 1, now := d.wmStart (t.wm + 1) }

/-- The lock as an image that selects the crystal leaves it, at the milestone at which it becomes active (Table 2.2). The
milestone that begins at that boundary is the first of 20.000 ms (DESIGN CHOICE, log 155). -/
def TimeState.selectSource (t : TimeState) (xtal : Bool) : TimeState :=
  let t1 := { t with imgXtal := xtal }
  if xtal then t1.free else t1

/-- XCOMP_D written back to the larder every 65,536 milestones (Table 2.4); K and T0 of its group stay. -/
def Dev.xcompWriteback (d : Dev) : Dev :=
  if d.time.count.toNat % 65536 = 0 && d.time.count.toNat ≠ 0 then
    d.onStore fun s => s.writeImm 0x81 ((s.param 0x81).take 4 ++ leBytes 4 d.time.compD.toNat)
  else d

end Sys2Proof.Machine
end

