-- ==== Sys2Proof/Machine/Cycle.lean ====
section
/-! DEFINITION. Modes, pots, overruns, the force table and the commands that change them (05, R121, R122, R143 to R168;
09, R281). -/

namespace Sys2Proof.Machine

/-- An operation of the control cycle on the whole device. -/
def Dev.onCycle (d : Dev) (f : CycleState → CycleState) : Dev := { d with cycle := f d.cycle }

/-- An operation of the device registers on the whole device. -/
def Dev.onSys (d : Dev) (f : SysState → SysState) : Dev := { d with sys := f d.sys }

/-- Pot `p`. -/
def Dev.pot (d : Dev) (p : Nat) : PotState := vgetD d.cycle.pots p PotState.reset

/-- Pot `p` changed. -/
def Dev.onPot (d : Dev) (p : Nat) (f : PotState → PotState) : Dev := d.onCycle fun c => { c with pots := vupdN c.pots p f }

/-- Task `t`. -/
def Dev.task (d : Dev) (t : Nat) : TaskState := vgetD d.cycle.tasks t TaskState.reset

/-- Task `t` changed. -/
def Dev.onTask (d : Dev) (t : Nat) (f : TaskState → TaskState) : Dev :=
  d.onCycle fun c => { c with tasks := vupdN c.tasks t f }

/-- The declared pots, ascending. -/
def Image.declaredPots (m : Image) : List Nat := (upTo 16).filter m.declared

/-! ## The force table (R148 to R154) -/

/-- A write of CYCLE.FORCE_SEL[i]: CHANNEL, ELEM, KIND and EN; BAD and the reserved bits are read-only. -/
def Dev.forceSel (i : Nat) (v : Word) (d : Dev) : Dev :=
  d.onCycle fun c =>
    { c with force := vupdN c.force i (fun f =>
        { f with channel := BitVec.ofNat 10 (bitsOf v.toNat 9 0), elem := BitVec.ofNat 6 (bitsOf v.toNat 15 10),
                 output := bitOf v.toNat 16, en := bitOf v.toNat 17 }) }

/-- A write of CYCLE.FORCE[i]. -/
def Dev.forceValue (i : Nat) (v : Word) (d : Dev) : Dev :=
  d.onCycle fun c => { c with force := vupdN c.force i (fun f => { f with value := v }) }

/-- FORCE_TABLE_WRITE (R148): a write to one word of an entry, the value word where `value`; not in TOLLGATE (R153). -/
def Dev.forceWrite (i : Fin 256) (value : Bool) (v : Word) (d : Dev) : Dev :=
  if d.sys.mode = .tollgate then d else if value then d.forceValue i.val v else d.forceSel i.val v

/-- FORCE_CLEAR_ALL (R154): EN becomes 0 in every entry. -/
def Dev.forceClear (d : Dev) : Dev :=
  if d.sys.mode = .tollgate then d else d.onCycle fun c => { c with force := vmap (fun f => { f with en := false }) c.force }

/-- The force table at its reset values (R153). -/
def Dev.forceReset (d : Dev) : Dev := d.onCycle fun c => { c with force := Vector.replicate 256 ForceEntry.reset }

/-! ## Pots that leave RUN -/

/-- The tasks of a pot. -/
def Dev.tasksOf (d : Dev) (p : Nat) : List Nat :=
  (upTo 64).filter (fun t => match d.image.route t with | some r => r.pot == p | none => false)

/-- Every open window of a pot abandoned. -/
def Dev.abandon (d : Dev) (p : Nat) : Dev :=
  (d.tasksOf p).foldl (fun d t => d.onTask t (fun x => { x with window := none })) d

/-- What a pot leaves behind when it leaves RUN (R315, R520). -/
def Dev.potLeave (d : Dev) (p : Nat) : Dev :=
  if (d.pot p).run = PotRun.run then ((d.abandon p).slotsLeave p).faceLeave p else d.abandon p

/-! ## Starts (R164 to R168, R405) -/

/-- The retained region of a pot in the worktop: start and length; length 0 for none (R193). -/
def Image.retained (m : Image) (p : Nat) : Nat × Nat :=
  let r := m.retain.getD p (0, 0)
  ((m.window p).base * 4096 + r.1, r.2)

/-- CRC-32 over the retained region of a pot as the worktop stands. -/
def Dev.retainCrc (d : Dev) (p : Nat) : Nat :=
  let r := d.image.retained p
  crc32 (Mem.readBytes zeroByte d.cycle.worktop r.1 r.2)

/-- After a commit or a host write, the held CRCs of the regions that it changed follow; a pot that has not started since the
reset that made its CRC invalid keeps it so (R166, Table 9.2). `old` is the worktop before. -/
def Dev.holdCrcs (old : Mem) (d : Dev) : Dev :=
  d.image.declaredPots.foldl (fun d p =>
    let r := d.image.retained p
    if r.2 ≠ 0 && (d.pot p).armed &&
        Mem.readBytes zeroByte old r.1 r.2 ≠ Mem.readBytes zeroByte d.cycle.worktop r.1 r.2 then
      d.onPot p (fun x => { x with heldCrc := some (d.retainCrc p) })
    else d) d

/-- The input elements of the remote groups that a pot owns start at 0 with STALE set (R405). -/
def Dev.remoteStart (d : Dev) (p : Nat) : Dev :=
  d.image.groups.foldl (fun d g =>
    if d.image.owner (0x100 + g.1) ≠ p then d
    else
      (g.2.producers.zipIdx).foldl (fun d e =>
        if e.1 = d.netAddr then d
        else
          let k := elemKey (0x100 + g.1) e.2
          d.onCycle fun c => { c with inputs := mapPut c.inputs k 0, stale := k :: c.stale.filter (· != k) }) d) d

/-- A pot starts, warm where asked and its region's check passes (`same` tells that the region is the one that was held,
R237); the window is cleared but for a kept region (R164, R165). -/
def Dev.potStart (d : Dev) (p : Nat) (warm same host : Bool) : Dev :=
  let w := d.image.window p
  let lo := w.base * 4096
  let hi := lo + w.pages * 4096
  let r := d.image.retained p
  let pass := warm && same && (if r.2 = 0 then (d.pot p).armed else (d.pot p).heldCrc == some (d.retainCrc p))
  let mem := if pass then (Mem.clear (Mem.clear d.cycle.worktop lo r.1) (r.1 + r.2) hi) else Mem.clear d.cycle.worktop lo hi
  let d1 := d.onCycle fun c => { c with worktop := mem }
  let d2 := d1.onPot p fun x =>
    { x with run := .run, start := if pass then 2 else if warm then 3 else 1, armed := true
             heldCrc := if same then x.heldCrc else none }
  let d3 := (d.tasksOf p).foldl (fun d t => d.onTask t (fun _ =>
    { TaskState.reset with first := true, entry := if pass then .warm else .cold })) d2
  let d4 := if host then d3.onSys fun s =>
      { s with voidOvr := s.voidOvr &&& ~~~(1#16 <<< p), voidMem := s.voidMem &&& ~~~(1#16 <<< p) } else d3
  let fresh := fun (i : Nat) (x : RegionStat) =>
    match d.image.region i with
    | some g => if g.owner = p then { x with lost := false, retired := false, overflow := false } else x
    | none => x
  let d5 := d4.onStore fun s => { s with regions := vmapi fresh s.regions }
  ((d5.slotsStart p).facePotStart p).remoteStart p

/-! ## Mode changes (R155 to R158) -/

/-- Whether every domain of class ON is usable. -/
def Dev.onUsable (d : Dev) : Bool := (upTo 16).all (fun n => d.image.cls n != .on || d.pd n)

/-- A mode command (Table 5.7): RESULT, and the pending command that it replaces. -/
def Dev.modeCommand (c : ModeCmd) (d : Dev) : Dev :=
  let ok : Bool := match d.sys.mode with
    | .tollgate => false
    | .ready => true
    | .run => c == .halt
    | .halt => c != .halt
  if ok then d.onSys fun s => { s with modeResult := 1, modePend := some c } else d.onSys fun s => { s with modeResult := 2 }

/-- Every pot leaves RUN and is IDLE; the Hob's bus service stops. -/
def Dev.allIdle (d : Dev) : Dev :=
  let d1 := (upTo 16).foldl Dev.potLeave d
  (d1.onCycle fun c => { c with pots := vmap (fun x => { x with run := .idle, pend := none, pendNext := none }) c.pots }).busStop

/-- Entry to RUN (R122, R158, Table 5.8): OFS set, every declared pot started. -/
def Dev.enterRun (d : Dev) (warm : Bool) : Dev :=
  let d1 := d.onSys fun s =>
    { s with mode := .run, start := if warm then 2 else 1, modePend := none, hostRunAt := false,
             runMs := d.ms, voidHob := false }
  let d2 := d1.onCycle fun c => { c with ofs := if d.time.netValid then d.time.netOfs.setWidth 8 else 0 }
  (d.image.declaredPots.foldl (fun d p => d.potStart p warm true true) d2).busStart

/-- Entry to HALT: windows abandoned, pots IDLE, the safe plate written; the domain states are kept for R77. -/
def Dev.enterHalt (d : Dev) : Dev :=
  let d1 := d.allIdle.onSys fun s => { s with mode := .halt, modePend := none, hostRunAt := false }
  (d1.onPower fun p => { p with haltOn := p.on }).safeAll

/-- Whether the domains of R77 are all usable. -/
def Dev.haltUsable (d : Dev) : Bool := (d.haltReturn &&& ~~~d.power.ready) == 0

/-- Step 2 of a RUN command in HALT (R77 1): the domains return to their states, and SYS.PD_REQ with them. A faulted one is
switched on too, without a request of its own (DESIGN CHOICE, log 157). -/
def Dev.haltRestore (d : Dev) : Dev :=
  match d.sys.mode, d.sys.modePend, d.sys.hostRunAt with
  | .halt, some _, false =>
    let want := d.haltReturn
    let off := d.power.on &&& ~~~want
    let d1 := (d.domainsOff off).onPower fun p => ({ p with req := want } : PowerState).switchTo want
    d1.onSys fun s => { s with hostRunAt := true }
  | _, _, _ => d

/-- MODE_CHANGE at step 5 of a milestone boundary (R157, R158). -/
def Dev.modeChange (d : Dev) : Dev :=
  match d.sys.mode, d.sys.modePend with
  | .ready, some .halt => d.enterHalt
  | .run, some .halt => d.enterHalt
  | .ready, some .runWarm => if d.onUsable then d.enterRun true else d
  | .ready, some .runCold => if d.onUsable then d.enterRun false else d
  | .halt, some .runWarm => if d.sys.hostRunAt && d.haltUsable then d.enterRun true else d
  | .halt, some .runCold => if d.sys.hostRunAt && d.haltUsable then d.enterRun false else d
  | _, _ => d

/-- SYS.MODE.WAIT_NET (Table 5.6): READY waits for NET_VALID under NET_WAIT. -/
def Dev.waitsNet (d : Dev) : Bool :=
  d.sys.mode == .ready && d.image.autorun && !d.time.netValid && d.image.netWait != 0 &&
    decide (d.ms < d.sys.readyMs + d.image.netWait)

/-- AUTORUN (R157): in READY with no command pending, once the conditions of Table 5.7 hold. -/
def Dev.autorun (d : Dev) : Dev :=
  if d.sys.mode ≠ .ready || !d.image.autorun || d.sys.modePend.isSome || d.time.wm ≠ 0 then d
  else if d.waitsNet || !d.onUsable || d.ms ≤ d.sys.readyMs then d
  else d.enterRun (d.sys.lastKind == .warm)

/-! ## Pot commands (R159 to R163) -/

/-- A write of CYCLE.POTCMD for pot `p` (R160, R161). A host write taken at the same boundary stands over the Hob's. -/
def Dev.potCommand (p : Nat) (a : PotAction) (host : Bool) (d : Dev) : Dev :=
  if p = 0 || !d.image.declared p then d.onCycle fun c => { c with potResult := 2 }
  else if d.sys.mode ≠ .run then d.onCycle fun c => { c with potResult := 3 }
  else
    let d1 := d.onCycle fun c => { c with potResult := 1 }
    let old := d.pot p
    if !host && old.pend.isSome && old.pendByHost then d1
    else d1.onPot p fun x => { x with pend := some a, pendByHost := host, pendHost := host }

/-- A command of a Hob commit (R160). At a milestone boundary the commits of step 4 come too late for its step 5, so the command
waits for the next one, unless a host's of this boundary stands. -/
def Dev.hobPotCommand (p : Nat) (a : PotAction) (d : Dev) : Dev :=
  if d.time.wm ≠ 0 || p = 0 || !d.image.declared p || d.sys.mode ≠ .run then d.potCommand p a false
  else
    let d1 := d.onCycle fun c => { c with potResult := 1 }
    if (d.pot p).pend.isSome && (d.pot p).pendByHost then d1 else d1.onPot p fun x => { x with pendNext := some a }

/-- At the end of a boundary a host's command no longer stands over a later one of the Hob, and a Hob's of its commits waits for
the next milestone boundary. -/
def Dev.potCommandsAge (d : Dev) : Dev :=
  let age := fun (x : PotState) =>
    match x.pendNext with
    | some a => { x with pend := some a, pendNext := none, pendByHost := false, pendHost := false }
    | none => { x with pendByHost := false }
  d.onCycle fun c => { c with pots := vmap age c.pots }

/-- One pending pot command at step 5 (R162); `host` restarts clear VOID bits (Table 1.7). -/
def Dev.potApply (d : Dev) (p : Nat) : Dev :=
  let x := d.pot p
  match x.pend with
  | none => d
  | some a =>
    let d1 := ((d.potLeave p).safePot p).onPot p fun x => { x with pend := none, pendByHost := false }
    match a with
    | .stop => d1.onPot p fun x => { x with run := .stopped }
    | .warm => (d1.potStart p true true x.pendHost).onPot p fun x => { x with restarts := satInc x.restarts }
    | .cold => (d1.potStart p false true x.pendHost).onPot p fun x => { x with restarts := satInc x.restarts }

/-- POT_COMMAND_APPLY: the pending commands of all pots in RUN, ascending. -/
def Dev.potCommands (d : Dev) : Dev := if d.sys.mode = .run then (upTo 16).foldl Dev.potApply d else d

/-! ## Overruns (R143 to R147) -/

/-- Why a task whose deadline is here has overrun; none where it has finished in order (Table 5.3). Where several rows hold,
CARRIAGEWAY comes before UNMAPPED and that before LATE (DESIGN CHOICE, log 161). -/
def Dev.overrunCause (d : Dev) (r : Route) (w : Window) : Option Nat :=
  match w.fail with
  | some .lane => some 2
  | some .carriageway => some 3
  | some .unmapped => some 4
  | some .late => some 1
  | none =>
    if !d.pd (2 + r.lane / 11) then some 3
    else if (d.lane.served r.lane).isNone then some 4
    else if w.status = RelStatus.finished then none
    else some 1

/-- The tasks whose deadline is this boundary, ascending, with their overrun cause. -/
def Dev.dueTasks (d : Dev) : List (Nat × Option Nat) :=
  (upTo 64).filterMap fun t =>
    match d.image.route t, (d.task t).window with
    | some r, some w => if w.left = 0 then some (t, d.overrunCause r w) else none
    | _, _ => none

/-- One waymark counted off every open window. -/
def Dev.countWindows (d : Dev) : Dev :=
  d.onCycle fun c => { c with tasks := vmap (fun (x : TaskState) =>
    { x with window := x.window.map (fun w => { w with left := w.left - 1 }) }) c.tasks }

/-- The seat freed (R413, R428): a session ends, ESTRANGED stays (R419). -/
def SeatState.freed (s : SeatState) : SeatState := { s with holder := .free, priv := false, nonce := none, stored := none }

/-- The seat freed where a remote host holds it. -/
def SeatState.freeRemote (s : SeatState) : SeatState :=
  match s.holder with
  | .remote _ => s.freed
  | _ => s

/-- A switch that is verifying or armed is abandoned at an entry to TOLLGATE (R235). -/
def Dev.switchAbandon (d : Dev) : Dev :=
  if d.store.sw = .idle then d else (d.onStore fun s => { s.setResult 4 0xB with sw := .idle }).attnStore

/-- Entry to TOLLGATE (R153, R235, R276, Table 2.3): cause, force table cleared, the seat of a remote holder freed, IMG_SRC 0. -/
def Dev.enterTollgate (d : Dev) (cause vfyA : Nat) : Dev :=
  ((({ d with seat := d.seat.freeRemote, line := d.line.cutTx } : Dev).switchAbandon.forceReset.onSys fun s =>
    { s with mode := .tollgate, tollCause := BitVec.ofNat 8 cause, modePend := none, hostRunAt := false }).onTime
    fun t => { t with imgXtal := false }).event 0x02 0 cause 0 vfyA

/-- SYS.VFY_A (Table 6.11). -/
def Dev.vfyA (d : Dev) : Nat := d.sys.vfyStep.toNat + 256 * d.sys.vfyDetail.toNat + 65536 * d.sys.vfyIndex.toNat

/-- An overrun recorded in CYCLE.OVR, its pot's count, the task's OVR and the fault log (R147, Table 20.2). -/
def Dev.recordOverrun (d : Dev) (t c : Nat) : Dev :=
  let p := d.potOf t
  (((d.onPot p fun x => { x with overruns := satInc x.overruns }).onTask t fun x => { x with ovr := true }).onCycle
    fun k => { k with ovrCount := satInc k.ovrCount }).event 0x03 t c (d.tag p) p

/-- OVERRUN and HOB_OVERRUN at step 3 (R144 to R146). -/
def Dev.overruns (d : Dev) : Dev :=
  let late := d.dueTasks.filterMap (fun x => x.2.map (fun c => (x.1, c)))
  match late with
  | [] => d
  | (t0, c0) :: _ =>
    let d1 := late.foldl (fun d x => d.recordOverrun x.1 x.2) d
    let d2 := d1.onCycle fun k =>
      { k with ovrTask := BitVec.ofNat 6 t0, ovrCause := BitVec.ofNat 4 c0, ovrPot := BitVec.ofNat 4 (d.potOf t0),
               ovrMs := BitVec.ofNat 32 (d.ms % 2 ^ 32) }
    let pots := (upTo 16).filter (fun p => late.any (fun x => d.potOf x.1 == p))
    if pots.contains 0 then
      let d3 := (upTo 16).foldl Dev.potLeave d2
      let d4 := d3.onCycle fun k =>
        { k with pots := vmapi (fun p (x : PotState) =>
            { x with run := if p = 0 then .overrun else .idle, pend := none, pendNext := none }) k.pots }
      let d5 := d4.busStop.onSys fun s => { s with voidHob := true, hobMs := some d.ms }
      (d5.enterTollgate 9 d5.vfyA).safeAll
    else
      pots.foldl (fun d p =>
        (d.potLeave p).onPot p (fun x => { x with run := .overrun }) |>.onSys
          fun s => { s with voidOvr := s.voidOvr ||| (1#16 <<< p) }) d2

/-- The safe plates of step 4 for the pots that overran at this boundary. -/
def Dev.overrunPlates (before d : Dev) : Dev :=
  (upTo 16).foldl (fun d p =>
    if (before.pot p).run = PotRun.run && (d.pot p).run = PotRun.overrun then d.safePot p else d) d

end Sys2Proof.Machine
end

