-- ==== Sys2Proof/Machine/Net.lean ====
section
/-! DEFINITION. The Hefen Line's MAC: frame starts, reception, beacons, time, joining, tone maps, probes and remote I/O
(13). -/

namespace Sys2Proof.Machine

/-! ## Reception (R366, R380, R385, R401, R403) -/

/-- What accepting a frame does to the caches: neighbour, LSEQ, route, the run of low margins (R385, R390, R403). -/
def Dev.accept (d : Dev) (m : Mac) (f : RxFrame) : Dev :=
  let l1 := (d.line.touch m.lsrc d.time.now).onNeigh m.lsrc (fun n => { n with lseq := some m.lseq })
  let l2 := if m.osrc != d.addr then l1.learn m.osrc m.lsrc m.hop d.ms else l1
  let l3 := { l2 with members := l2.members.map (fun x => if x.addr == m.osrc then { x with heard := d.ms } else x) }
  let low := decide (d.line.margin f < 8)
  let run := match d.line.neighbour m.lsrc with
    | some n => if low then n.lowRun + 1 else 0
    | none => if low then 1 else 0
  if f.mode = .normal && f.tmid != 0 then
    let d1 := { d with line := l3.onNeigh m.lsrc (fun n => { n with lowRun := run }) }
    if 3 ≤ run then d1.offerMap m.lsrc f.snr else d1
  else { d with line := l3 }

/-- The ACK of a unicast frame (R386): slot 0, not before 2.0 ms after the frame's end, in the frame's kind of mode. -/
def Dev.sendAck (d : Dev) (m : Mac) (f : RxFrame) : Dev :=
  let (d1, e) := (d.mapFor m.lsrc).nextEseq
  let mode := if f.mode = .normal then LineMode.normal else .rob4
  d1.enqueue { QFrame.base 3 0 mode (leBytes 4 m.lseq) with
    ldst := m.lsrc, osrc := d.addr, fdst := m.lsrc, eseq := e, slot := some 0, due := f.ends + 2000000 }

/-- Forwarding of a unicast frame (R401): one hop more, the next hop of R402. A JOIN_REQ takes this node's address into
its block (R400). -/
def Dev.forward (d : Dev) (m : Mac) : Dev :=
  if m.hop = 8 then d.onLine fun l => { l with hopDrop := satInc l.hopDrop }
  else
    let place := if m.ftype = 6 then 2 else 1
    let robust := m.ftype = 6 || m.ftype = 7
    let q := { QFrame.base m.ftype place .normal m.body with
      hop := m.hop + 1, osrc := m.osrc, fdst := m.fdst, eseq := m.eseq }
    if m.ftype = 6 then
      let as := (match m.sr with
        | some (_, as) => as
        | none => []) ++ [d.addr]
      let idx := as.length
      d.sendRouted { q with sr := none } robust |>.onLine fun l =>
        { l with queue := l.queue.map (fun x =>
            if x.ftype = 6 && x.osrc = m.osrc && x.eseq = m.eseq then { x with sr := some (idx, as.take 7) } else x) }
    else d.sendRouted { q with sr := m.sr } robust

/-- Whether the node relays: joined, with RELAY set (R393, R401). -/
def Dev.relays (d : Dev) : Bool := d.line.joined && d.line.params.relay

/-- A relay repeats a TIME or COURIER frame once, in the same place (R401). -/
def Dev.repeatBroadcast (d : Dev) (m : Mac) : Dev :=
  let seen := d.line.recent.any (fun r => r.1 == m.osrc && r.2.1 == m.eseq && decide (d.ms < r.2.2 + 256))
  if !d.relays || seen then d
  else if m.hop = 8 then d.onLine fun l => { l with hopDrop := satInc l.hopDrop }
  else
    let place := if m.ftype = 2 then 1 else
      match d.image.group (byteAt m.body 0) with
      | some x => x.prio
      | none => 1
    let d1 := d.enqueue { QFrame.base m.ftype place (if m.ftype = 2 then .rob4 else .normal) m.body with
      bcast := true, hop := m.hop + 1, ldst := 0xFFF, osrc := m.osrc, fdst := m.fdst, eseq := m.eseq }
    d1.onLine fun l =>
      { l with recent := (m.osrc, m.eseq, d.ms) :: l.recent.filter (fun r => decide (d.ms < r.2.2 + 256)) }

/-- A frame that the receiver has delivered, of type `ftype`: checked, opened, forwarded where it is for another node.
The MAC frame is handed on where this node is its receiver. -/
def Dev.deliver (ftype : Nat) (f : RxFrame) (d : Dev) : Dev × Option Mac :=
  if d.line.key.all (· == 0) then (d, none)
  else
    match parseMac f.bytes with
    | none => (d.onLine fun l => { l with fmtFail := satInc l.fmtFail }, none)
    | some (m0, rest) =>
      if m0.netId != d.line.params.netId.toNat then (d.onLine fun l => { l with fmtFail := satInc l.fmtFail }, none)
      else if m0.ftype != ftype then (d, none)
      else if !m0.bcast && m0.ldst != d.addr then (d, none)
      else
        let n := rest.length - 8
        match ccmOpen (m0.keyOf d.line.key) m0.nonce m0.header (rest.take n) (rest.drop n) with
        | none => (d.onLine fun l => { l with micFail := satInc l.micFail }, none)
        | some body =>
          let m := { m0 with body }
          let old := match d.line.neighbour m.lsrc with
            | some x => x.lseq
            | none => none
          if (match old with
              | some h => decide (m.lseq ≤ h)
              | none => false) then (d.onLine fun l => { l with replay := satInc l.replay }, none)
          else
            let d2 := d.accept m f
            let d3 := if !m.bcast && m.ackreq then d2.sendAck m f else d2
            if m.bcast then (d3, some m)
            else if m.fdst = d.addr then (d3, some m)
            else if m.ftype = 6 || m.ftype = 7 || m.ftype = 10 then (d3.forward m, none)
            else (d3, none)

/-- A frame of type `ftype` that has ended at the pin: decoded and delivered to the MAC, its report beside it. -/
def Dev.receive (ftype : Nat) (e : RxEnd) (d : Dev) : Dev × Option (RxFrame × Mac) :=
  match d.received e with
  | (d1, none) => (d1, none)
  | (d1, some f) =>
    let r := d1.deliver ftype f
    (r.1, r.2.map (fun m => (f, m)))

/-- A frame that breaks the form of its type is dropped and counted in FMT_FAIL (R380). -/
def Dev.fmtFail (d : Dev) : Dev := d.onLine fun l => { l with fmtFail := satInc l.fmtFail }

/-! ## Acknowledgement and retries (R387) -/

/-- ACK: a frame carrying an awaited LSEQ confirms it. -/
def Dev.rxAck (e : RxEnd) (d : Dev) : Dev :=
  match d.receive 3 e with
  | (d1, none) => d1
  | (d1, some (_, m)) =>
    if m.body.length != 4 then d1.fmtFail
    else
      let q := leNat m.body
      d1.onLine fun l =>
        match l.awaits.find? (fun a => a.lseq == q && a.frame.ldst == m.lsrc) with
        | some _ => { l with awaits := l.awaits.filter (fun b => b.lseq != q) }
        | none => l

/-- A neighbour that the ladder gave up: its map and every route through it go; a lost parent is chosen afresh. -/
def Dev.dropNeighbour (d : Dev) (n : Nat) : Dev :=
  let d1 := d.onLine fun l =>
    { (l.onNeigh n (fun x => { x with mapTo := none, beacons := if l.parent = some n then [] else x.beacons })) with
      routes := l.routes.filter (fun r => r.next != n) }
  if d.line.parent = some n then d1.chooseParent else d1

/-- ACK_TIMEOUT of the frame sent under an LSEQ: one ladder step down, or dropped after the fourth (R387). -/
def Dev.ackTimeout (lseq : Nat) (d : Dev) : Dev :=
  match d.line.awaits.find? (fun a => a.lseq == lseq) with
  | none => d
  | some a =>
    if d.time.now < a.deadline then d
    else
      let d1 := d.onLine fun l => { l with awaits := l.awaits.filter (fun b => b.lseq != lseq) }
      if 4 ≤ a.frame.step then
        (d1.onLine fun l => { l with ackFail := satInc l.ackFail }).dropNeighbour a.frame.ldst
      else d1.enqueue { a.frame with step := a.frame.step + 1, slot := none }

/-! ## Tone maps (R388 to R390) -/

/-- MAP_ASK: answered with a MAP_OFFER built from this frame's SNR. -/
def Dev.rxMapAsk (e : RxEnd) (d : Dev) : Dev :=
  match d.receive 4 e with
  | (d1, none) => d1
  | (d1, some (f, m)) => d1.offerMap m.lsrc f.snr

/-- MAP_OFFER: the map becomes the one in use towards its sender; TMID 0 leaves the link to the robust modes. -/
def Dev.rxMapOffer (e : RxEnd) (d : Dev) : Dev :=
  match d.receive 5 e with
  | (d1, none) => d1
  | (d1, some (_, m)) =>
    if m.body.length != 11 then d1.fmtFail
    else
      let t := byteAt m.body 0
      let v := leNat (m.body.drop 1)
      let codes := (upTo 40).map (fun c => bitsOf v (2 * c + 1) (2 * c))
      if t = 0 then d1.onLine fun l => l.onNeigh m.lsrc (fun n => { n with mapTo := none, step := 3 })
      else if mapOn codes < 10 then d1.fmtFail
      else d1.onLine fun l =>
        l.onNeigh m.lsrc (fun n => { n with mapTo := some { tmid := t, codes }, mapAt := d.si, step := 1 })

/-- Age in µs at which a map is refreshed (Table 13.4 TM_REFRESH). -/
def LineState.refreshUs (l : LineState) : Nat :=
  if l.params.tmRefresh = 0 then 120000000 else l.params.tmRefresh.toNat * 10000000

/-- MAP_REFRESH: a cached map of TM_REFRESH age causes a MAP_ASK. -/
def Dev.mapRefresh (n : Nat) (d : Dev) : Dev :=
  match d.line.neighbour n with
  | some x => if x.mapTo.isSome && decide (x.mapAt + d.line.refreshUs ≤ d.si) then d.askMap n else d
  | none => d

/-! ## Beacons (R19, R392 to R395, R51) -/

/-- The nonce of a beacon with the given body. -/
def beaconNonce (body : List Byte) : List Byte :=
  (body.drop 2).take 2 ++ (body.drop 4).take 6 ++ body.take 2 ++ [0xFF, 0xFF, 0xFF]

/-- A beacon's MAC frame: body and integrity code. -/
def sealBeacon (key body : List Byte) : List Byte := body ++ (ccmSeal key (beaconNonce body) body []).2

/-- The fields of Table 13.5. -/
structure Beacon where
  hop : Nat
  claim : Bool
  locked : Bool
  phase : Nat
  jphase : Nat
  slot : Nat
  netId : Nat
  ms : Nat
  fstart : Nat
  uid : Nat
  deriving DecidableEq, Repr

/-- The body of a beacon; the UID only with CLAIM. -/
def Beacon.body (b : Beacon) : List Byte :=
  leBytes 1 (1 + 16 * b.hop + 128 * b2n b.claim) ++
  leBytes 1 (b2n b.locked + 2 * b.phase + 8 * b.jphase + 32 * b.slot) ++ leBytes 2 b.netId ++ leBytes 6 b.ms ++
  leBytes 1 b.fstart ++ (if b.claim then leBytes 8 b.uid else [])

/-- A received beacon taken apart; none where its form breaks R380. -/
def parseBeacon (bs : List Byte) : Option Beacon :=
  let b0 := byteAt bs 0
  let b1 := byteAt bs 1
  let claim := bitOf b0 7
  if b0 % 16 != 1 || bs.length != (if claim then 27 else 19) || 8 ≤ byteAt bs 10 || bitsOf b1 2 1 == 3 || bitsOf b1 4 3 == 3 then
    none
  else
    some { hop := bitsOf b0 6 4, claim, locked := bitOf b1 0, phase := bitsOf b1 2 1, jphase := bitsOf b1 4 3,
           slot := bitsOf b1 7 5, netId := leAt bs 2 2, ms := leAt bs 4 6, fstart := byteAt bs 10,
           uid := if claim then leAt bs 11 8 else 0 }

/-- Instant in ns of a stamp in 1/16 µs. -/
def stampNs (s : Nat) : Nat := s * 125 / 2

/-- The start of the sender's milestone in ns (R394). -/
def Dev.senderStart (d : Dev) (b : Beacon) (f : RxFrame) : Int :=
  (stampNs f.stamp : Int) - ((b.fstart * d.periodT / 8 : Nat) : Int) -
    ((110000 + 230000 * b.slot / 3 : Nat) : Int) - (if f.mode = .tone then 12000000 else 2560000)

/-- The phase error of R394 in ns, reduced into [−T/2, T/2). -/
def Dev.beaconError (d : Dev) (b : Beacon) (f : RxFrame) : Int :=
  let t : Int := (d.periodT : Int)
  let raw := ((d.time.msStart : Nat) : Int) - d.senderStart b f -
    ((d.time.zcPhase.toNat : Int) - (b.phase : Int)) * t / 3
  let m := raw % t
  if t ≤ 2 * m then m - t else m

/-- The error applied under R51: filtered within ±250 µs; TRIM clamped to 1 ms, at once and to the end with the sign of the error
(DESIGN CHOICE, log 156); PH_MISMATCH beyond. How the error is filtered the spec leaves open (log 24). -/
def TimeState.discipline (t : TimeState) (err : Int) : TimeState :=
  let a := if 0 ≤ err then err else -err
  if a ≤ 250000 then
    { t with trimFilter := Config.trimFilter t.trimFilter err, trimLimit := false, phMismatch := false }
  else if a ≤ 1000000 then
    let v : Int := if 0 ≤ err then 25000 else -25000
    { t with trim := BitVec.ofInt 16 v, trimFilter := v, trimLimit := true, phMismatch := false }
  else
    { t with phMismatch := true, cntMismatch := if t.phMismatch then t.cntMismatch else satInc t.cntMismatch }

/-- Keys of every remote I/O input element of the image (R405). -/
def Dev.remoteInputs (d : Dev) : List Nat :=
  d.image.groups.flatMap (fun p =>
    (p.2.producers.zipIdx.filter (fun q => q.1 != d.addr)).map (fun q => elemKey (0x100 + p.1) q.2))

/-- The device declines the junction role (R19, R55): CLASH, nothing sent, both valid bits cleared. -/
def Dev.decline (d : Dev) : Dev :=
  { d with sys := { d.sys with clash := true },
           time := { d.time with netValid := false, siValid := false, siOfs := 0, siOfsLoHeld := 0 },
           line := { d.line with queue := [], awaits := [], rep := none, joined := false },
           cycle := { d.cycle with stale := d.remoteInputs ++ d.cycle.stale.filter (fun k => decide (k < 64 * 0x100)) } }

/-- Whether the device is a junction within its quiet start or its claim period: the first four beacon cycles of 24
milestones after it (R395; the cycle's length DEDUCED, log 25). -/
def Dev.claiming (d : Dev) : Bool :=
  d.junction && (match d.line.quiet with
    | some q => decide (d.ms < q + 146)
    | none => true)

/-- What a member does with a beacon (R55, R394, R399). -/
def Dev.memberBeacon (d : Dev) (b : Beacon) (f : RxFrame) : Dev :=
  let off := divRoundUp (d.senderStart b f - (d.time.msStart : Int)) (max d.time.msLen 1)
  let near : Int := (d.ms : Int) + off
  let ofs : BitVec 48 := BitVec.ofInt 48 ((b.ms : Int) - near)
  let t1 := { d.time with netOfs := ofs, netValid := true, junctionAge := 0, beaconLock := b.locked }
  let t2 := if b.locked then { t1.discipline (d.beaconError b f) with beacon := true, beaconAge := 0 } else t1
  let l1 := (d.line.touch f.src d.time.now).onNeigh f.src (fun n =>
    { n with beacons := { hop := b.hop, margin := d.line.margin f, ms := d.ms } ::
        n.beacons.filter (fun x => decide (d.ms < x.ms + 48)) })
  let d1 := { d with time := t2, line := l1 }
  let d2 := d1.chooseParent
  if b.claim && d.line.joined then (d2.onLine fun l => { l with joined := false }).joinReq else d2

/-- The repeat that a decoded beacon calls for, or calls off; nodes at hop 8 do not repeat (R393). -/
def Dev.planRepeat (d : Dev) (b : Beacon) : Dev :=
  let base := if b.hop = 0 then b.ms else b.ms - (2 * b.hop + 5)
  let drop := match d.line.rep with
    | some r => r.base == base && b.hop == d.line.hop
    | none => false
  if drop then d.onLine fun l => { l with rep := none }
  else if d.relays && d.line.hop < 8 && b.hop + 1 = d.line.hop then
    d.onLine fun l =>
      { l with rep := some { base, sendAt := base + 2 * d.line.hop + 5, locked := b.locked, jphase := b.jphase } }
  else d

/-- BEACON: a received beacon or repeat (R392 to R395). -/
def Dev.rxBeacon (e : RxEnd) (d : Dev) : Dev :=
  match d.received e with
  | (d1, none) => d1
  | (d1, some f) =>
    if d.line.key.all (· == 0) then d1
    else
      match parseBeacon f.bytes with
      | none => d1.fmtFail
      | some b =>
        if b.netId != d.line.params.netId.toNat then d1.fmtFail
        else
          let n := f.bytes.length - 8
          let body := f.bytes.take n
          match ccmOpen d.line.key (beaconNonce body) body [] (f.bytes.drop n) with
          | none => d1.onLine fun l => { l with micFail := satInc l.micFail }
          | some _ =>
            if d.junction then
              let quiet := match d.line.quiet with
                | some q => decide (d.ms < q + 50)
                | none => true
              if d.claiming && (quiet || !b.claim || decide (b.uid < Config.uid.toNat)) then
                (d1.decline).memberBeacon b f
              else d1
            else (d1.memberBeacon b f).planRepeat b

/-! ## TIME frames (R396) -/

/-- TIME: SI_OFS and FERR from a junction's time frame. -/
def Dev.rxTime (e : RxEnd) (d : Dev) : Dev :=
  match d.receive 2 e with
  | (d1, none) => d1
  | (d1, some (_, m)) =>
    if m.body.length != 14 then d1.fmtFail
    else
      let d2 := d1.repeatBroadcast m
      let M := leAt m.body 0 6
      let si := leAt m.body 6 8
      let back := (d.ms + 2 ^ 48 - (M + 2 ^ 48 - d.time.netOfs.toNat) % 2 ^ 48) % 2 ^ 48
      if d.junction || !d.time.netValid then d2
      else
        match (d.time.starts[back]?.map (· / 1000) : Option Nat) with
        | none => d2
        | some own =>
          let ferr : BitVec 16 := match d.time.timeFrames.head? with
            | some (_, si0, own0) =>
              let dn : Int := (si : Int) - (si0 : Int)
              let dl : Int := (own : Int) - (own0 : Int)
              if dn ≤ 0 then d.time.ferr
              else BitVec.ofInt 16 (clampInt (-32768) 32767 (divRoundAway ((dl - dn) * 100000000) dn.toNat))
            | none => d.time.ferr
          { d2 with time := { d2.time with
              siOfs := BitVec.ofInt 64 ((si : Int) - (own : Int)), siValid := true, ferr,
              compD := if d.time.timeFrames.isEmpty then d.time.compD else Config.disciplineD d.time.compD ferr,
              timeFrames := [(M, si, own)] } }

/-! ## Joining (R398, R400) -/

/-- JOIN_REQ: the junction answers with a JOIN_ACC; every other node has forwarded it. -/
def Dev.rxJoinReq (e : RxEnd) (d : Dev) : Dev :=
  match d.receive 6 e with
  | (d1, none) => d1
  | (d1, some (_, m)) =>
    if m.body.length != 12 || byteAt m.body 11 != 0 then d1.fmtFail
    else if !d.junction then d1
    else
      let uid := leAt m.body 0 8
      let clash := d.line.members.any (fun x =>
        x.addr == m.osrc && x.uid != uid && decide (d.ms < x.heard + 65536))
      let path := match m.sr with
        | some (_, as) => as.reverse
        | none => []
      let d2 := if clash then d1
        else d1.onLine fun l =>
          { l with members := { addr := m.osrc, uid, path, hop := byteAt m.body 9, heard := d.ms } ::
              l.members.filter (fun x => x.addr != m.osrc) }
      let (d3, e) := d2.nextEseq
      let q := { QFrame.base 7 1 .normal (leBytes 8 uid ++ leBytes 1 (b2n clash)) with
        osrc := d.addr, fdst := m.osrc, eseq := e }
      if clash then
        match path with
        | [] => (d3.mapFor m.osrc).enqueue { q with ldst := m.osrc, ackreq := true, step := 3 }
        | a :: _ => (d3.mapFor a).enqueue { q with ldst := a, sr := some (1, path), ackreq := true, step := 3 }
      else d3.sendRouted q true

/-- JOIN_ACC: STATUS 0x00 makes the member joined, 0x01 reports ADDR_CLASH. -/
def Dev.rxJoinAcc (e : RxEnd) (d : Dev) : Dev :=
  match d.receive 7 e with
  | (d1, none) => d1
  | (d1, some (_, m)) =>
    if m.body.length != 9 || 1 < byteAt m.body 8 then d1.fmtFail
    else if leAt m.body 0 8 != Config.uid.toNat then d1
    else if byteAt m.body 8 = 0 then d1.onLine fun l => { l with joined := true, addrClash := false }
    else d1.onLine fun l => { l with addrClash := true }

/-- JOIN_RETRY: every 64 milestones while not joined the JOIN_REQ is repeated. -/
def Dev.joinRetry (d : Dev) : Dev :=
  if d.junction || d.line.joined || d.lineSilent || decide (d.ms < d.line.joinNext) || d.line.joinNext = 0 then d
  else d.joinReq

/-- JCLR: the junction frees the entry at an address (R400). -/
def Dev.jclr (addr : Nat) (d : Dev) : Dev :=
  if d.junction then d.onLine fun l => { l with members := l.members.filter (fun m => m.addr != addr) } else d

/-! ## Probes (R391) -/

/-- A PROBE in tone mode to a neighbour. -/
def Dev.sendProbe (d : Dev) (dst due : Nat) : Dev :=
  let (d1, e) := d.nextEseq
  d1.enqueue { QFrame.base 11 1 .tone [] with ldst := dst, osrc := d.addr, fdst := dst, eseq := e, due }

/-- PROBE_GO: a probe of a neighbour. -/
def Dev.probeGo (dst : Nat) (d : Dev) : Dev :=
  (d.sendProbe dst 0).onLine fun l => { l with probe := 1, probeDst := dst, probeAt := d.ms }

/-- PROBE: the reply to an own probe is reported, every other is returned. -/
def Dev.rxProbe (e : RxEnd) (d : Dev) : Dev :=
  match d.receive 11 e with
  | (d1, none) => d1
  | (d1, some (f, m)) =>
    if d.line.probe = 1 && d.line.probeDst = m.lsrc then
      d1.onLine fun l =>
        { l with probe := 2, probeMargin := BitVec.ofInt 8 (d.line.margin f), probeRssi := BitVec.ofNat 16 f.rssi }
    else d1.sendProbe m.lsrc (f.ends + 2000000)

/-- PROBE_TIMEOUT: no reply within 16 milestones. -/
def Dev.probeTimeout (d : Dev) : Dev :=
  if d.line.probe = 1 && decide (d.line.probeAt + 16 ≤ d.ms) then d.onLine fun l => { l with probe := 3 } else d

/-! ## Courier and convoy (R406 to R409) -/

/-- Values of a contribution, four bytes each. -/
def wordsOf (bs : List Byte) : List Word := (cut 4 bs).map (fun c => BitVec.ofNat 32 (leNat c))

/-- COURIER: kept for step 7 of the next boundary. -/
def Dev.rxCourier (e : RxEnd) (d : Dev) : Dev :=
  match d.receive 8 e with
  | (d1, none) => d1
  | (d1, some (_, m)) =>
    let d2 := d1.repeatBroadcast m
    let g := byteAt m.body 0
    match d.image.group g with
    | some x =>
      let es := x.elemsOf m.osrc
      if x.convoy || es.isEmpty || m.body.length != 3 + 4 * es.length then d2
      else d2.onLine fun l =>
        { l with courierIn := l.courierIn ++ [(g, m.osrc, leAt m.body 1 2, wordsOf (m.body.drop 3))] }
    | none => d2

/-- The first network milestone of a group at or after `n`. -/
def GroupDecl.nextDue (x : GroupDecl) (n : Nat) : Nat :=
  let p := 2 ^ x.e
  n + (x.phase + p - n % p) % p

/-- The groups of a CONVOY body after its stamp: each group number with its producer's values. -/
def convoyParts (m : Image) (p : Nat) : Nat → List Byte → List (Nat × GroupDecl × List Word)
  | 0, _ => []
  | _, [] => []
  | k + 1, b :: bs =>
    match m.group b.toNat with
    | none => []
    | some x =>
      let n := 4 * (x.elemsOf p).length
      if bs.length < n then []
      else (b.toNat, x, wordsOf (bs.take n)) :: convoyParts m p k (bs.drop n)

/-- CONVOY: a contribution is kept for the milestone it is stamped for (R409). -/
def Dev.rxConvoy (e : RxEnd) (d : Dev) : Dev :=
  match d.receive 9 e with
  | (d1, none) => d1
  | (d1, some (_, m)) =>
    let stamp := leAt m.body 0 2
    let parts := convoyParts d.image m.osrc 256 (m.body.drop 2)
    let add := parts.filterMap (fun p =>
      let n := p.2.1.nextDue d.netMs
      if p.2.1.convoy && stamp = n % 65536 then some (p.1, m.osrc, n, p.2.2) else none)
    d1.onLine fun l => { l with convoyIn := l.convoyIn ++ add }

/-- Whether a PSEQ is newer than the last, modulo 2^16 over half the range (R407). -/
def pseqNewer (new : Nat) (last : Option Nat) : Bool :=
  match last with
  | none => true
  | some o => let k := (new + 65536 - o) % 65536; 0 < k && k < 32768

/-- Values of a producer applied to a group's input elements, their STALE cleared (R407, R409), unless the node has declined
the junction role and keeps every remote group STALE (`keep`, R19). -/
def CycleState.applyGroup (c : CycleState) (g : Nat) (es : List Nat) (vs : List Word) (keep : Bool) : CycleState :=
  let keys := es.map (elemKey (0x100 + g))
  { c with inputs := (List.zip keys vs).foldl (fun m p => mapPut m p.1 p.2) c.inputs,
           stale := if keep then c.stale else c.stale.filter (fun k => !keys.contains k) }

/-- STALE set on a producer's elements; their values stay. -/
def CycleState.staleGroup (c : CycleState) (g : Nat) (es : List Nat) : CycleState :=
  let keys := es.map (elemKey (0x100 + g))
  { c with stale := keys ++ c.stale.filter (fun k => !keys.contains k) }

/-- LINE.GRP.APPLIED counts a contribution. -/
def LineState.countApplied (l : LineState) (g : Nat) : LineState :=
  { l with applied := mapPut l.applied g (min 0xFFFF ((mapFind l.applied g).getD 0 + 1)) }

/-- A value under a pair of group and producer. -/
def pairPut (m : List ((Nat × Nat) × Nat)) (k : Nat × Nat) (v : Nat) : List ((Nat × Nat) × Nat) :=
  (k, v) :: m.filter (fun p => p.1 != k)

/-- The value under a pair. -/
def pairFind (m : List ((Nat × Nat) × Nat)) (k : Nat × Nat) : Option Nat := (m.find? (fun p => p.1 == k)).map (·.2)

/-- One courier frame applied if its PSEQ is newer than the last from its producer (R407). -/
def Dev.applyCourier (d : Dev) (c : Nat × Nat × Nat × List Word) : Dev :=
  let (g, p, q, vs) := c
  match d.image.group g with
  | none => d
  | some x =>
    if pseqNewer q (pairFind d.line.lastPseq (g, p)) && p != d.addr then
      { d with cycle := d.cycle.applyGroup g (x.elemsOf p) vs d.sys.clash,
               line := { d.line.countApplied g with
                 lastPseq := pairPut d.line.lastPseq (g, p) q, lastFrom := pairPut d.line.lastFrom (g, p) d.ms } }
    else d

/-- Step 7: the courier frames reported since the last boundary. -/
def Dev.courierApply (d : Dev) : Dev :=
  d.line.courierIn.foldl Dev.applyCourier (d.onLine fun l => { l with courierIn := [] })

/-- COURIER_STALE: no frame of a producer applied for STALE_N × 2^e milestones (R407). -/
def Dev.courierStale (g p : Nat) (d : Dev) : Dev :=
  match d.image.group g with
  | none => d
  | some x =>
    let last := (pairFind d.line.lastFrom (g, p)).getD 0
    if !x.convoy && p != d.addr && decide (last + x.staleN * 2 ^ x.e ≤ d.ms) then
      { d with cycle := d.cycle.staleGroup g (x.elemsOf p) }
    else d

/-- Boundary n+1:0: the contributions stamped n of every convoy group due at n; a missing producer goes STALE, and
every convoy input does while NET_VALID is 0 (R409). `n` is the network milestone that ends. -/
def Dev.convoyApply (d : Dev) (n : Nat) : Dev :=
  let due := d.image.groups.filter (fun p => p.2.convoy &&
    (!d.time.netValid || n % 2 ^ p.2.e == p.2.phase))
  let d1 := due.foldl (fun d p =>
    (p.2.producers.eraseDups.filter (· != d.addr)).foldl (fun d q =>
      let es := p.2.elemsOf q
      match (if d.time.netValid then d.line.convoyIn.find? (fun c => c.1 == p.1 && c.2.1 == q && c.2.2.1 == n)
             else none) with
      | some c => { d with cycle := d.cycle.applyGroup p.1 es c.2.2.2 d.sys.clash, line := d.line.countApplied p.1 }
      | none => { d with cycle := d.cycle.staleGroup p.1 es }) d) d
  d1.onLine fun l => { l with convoyIn := l.convoyIn.filter (fun c => n < c.2.2.1) }

/-- Step 6: a joined producer queues a COURIER frame at its phase, or when the presented values differ from those last
queued; a newer frame replaces an unsent older one (R406). -/
def Dev.courierQueue (d : Dev) : Dev :=
  if !(d.line.joined || d.junction) || d.sys.clash then d
  else
    d.image.groups.foldl (fun d p =>
      let (g, x) := p
      let vs := d.producedValues g x
      let due := d.time.wm = 0 && d.netMs % 2 ^ x.e == x.phase
      let moved := match mapFind d.line.lastSent g with
        | some old => old != vs
        | none => true
      if x.convoy || vs.isEmpty || !(due || moved) then d
      else
        let q := ((mapFind d.line.pseq g).getD 0 + 1) % 65536
        let d1 := d.onLine fun l =>
          { l with pseq := mapPut l.pseq g q, lastSent := mapPut l.lastSent g vs,
                   queue := l.queue.filter (fun f =>
                     !(f.ftype == 8 && f.osrc == d.addr && byteAt f.body 0 == g)) }
        d1.sendBroadcast 8 x.prio .normal
          (leBytes 1 g ++ leBytes 2 q ++ vs.flatMap (fun w => leBytes 4 w.toNat))) d

/-! ## Frame starts (R373 to R378, R393, R395, R398, R408) -/

/-- Frames that the present frame start may contend with, each with its slot, in the order of preference. -/
structure Contender where
  frame : QFrame
  slot : Nat
  kind : Nat
  deriving DecidableEq, Repr

/-- A beacon of the junction, where one is due at this frame start (R393, R395). -/
def Dev.dueBeacon (d : Dev) (k : Nat) : Option Contender :=
  if !d.junction || k != 0 then none
  else
    let claim := d.claiming
    let q := d.line.quiet.getD 0
    let c := (d.ms - (q + 50)) / 24
    let slot := if claim then 1 + (Config.uid.toNat + c) % 7 else 0
    if (if claim then (d.ms - (q + 50)) % 24 = 0 else d.netMs % 24 = 0) then
      let b : Beacon := { hop := 0, claim, locked := d.locked44 true, phase := d.time.zcPhase.toNat,
                          jphase := d.time.zcPhase.toNat, slot, netId := d.line.params.netId.toNat, ms := d.netMs,
                          fstart := 0, uid := Config.uid.toNat }
      some { frame := { QFrame.base 1 0 .tone b.body with bcast := true }, slot, kind := 1 }
    else none

/-- A relay's repeat due at this frame start (R393). -/
def Dev.dueRepeat (d : Dev) (k rnd : Nat) : Option Contender :=
  match d.line.rep with
  | some r =>
    if d.relays && r.sendAt = d.netMs && k < 4 then
      let slot := rnd % 8
      let b : Beacon := { hop := d.line.hop, claim := false, locked := r.locked, phase := d.time.zcPhase.toNat,
                          jphase := r.jphase, slot, netId := d.line.params.netId.toNat, ms := d.netMs, fstart := k,
                          uid := 0 }
      some { frame := { QFrame.base 1 0 .normal b.body with bcast := true }, slot, kind := 2 }
    else none
  | none => none

/-- The convoy frame of this frame start (R408); the Bool tells that it would end too late. -/
def Dev.dueConvoy (d : Dev) (k : Nat) : Option (Contender × Bool) :=
  let p := d.line.params
  let n := d.netMs + p.cvLead.toNat
  let gs := d.image.groups.filter (fun x => x.2.convoy && n % 2 ^ x.2.e == x.2.phase &&
    !(x.2.elemsOf d.addr).isEmpty)
  if k != p.cvStart.toNat || gs.isEmpty || !d.time.netValid || !(d.line.joined || d.junction) then none
  else
    let body := leBytes 2 (n % 65536) ++ gs.flatMap (fun x =>
      leBytes 1 x.1 ++ (d.producedValues x.1 x.2).flatMap (fun w => leBytes 4 w.toNat))
    let q := { QFrame.base 9 0 .normal body with bcast := true, ldst := 0xFFF, osrc := d.addr, fdst := 0xFFF }
    let fs := d.wmStart (32 * k)
    let first := fs + (18 + 23 * p.cvSlot.toNat) * 10000 / 3 + 50000
    let left := (256 - 32 * k) + 256 * p.cvLead.toNat
    let late := decide (fs + left * d.time.msLen * 995 / 256000 ≤ first + normalNs map0.codes q.len + 2000000)
    some ({ frame := q, slot := p.cvSlot.toNat, kind := 3 }, late)

/-- Whether a member's first frame is still to come: it is its JOIN_REQ (R273, R398). -/
def Dev.firstDue (d : Dev) : Bool := !d.junction && !d.line.joined && d.line.joinNext = 0

/-- Frame types that a node that is not joined may send (R398). -/
def preJoin (ftype : Nat) : Bool := ftype == 3 || ftype == 4 || ftype == 5 || ftype == 6 || ftype == 11

/-- The queued frame with the highest passing place, the oldest within it, queued before this frame start (R377). A
member's first frame is its JOIN_REQ, the one with a slot of its own (R273, R374). An ACK goes at the first frame start that
R386 gives, ahead of every other frame of its place (DEDUCED, log 169). -/
def Dev.dueQueued (d : Dev) (k rnd : Nat) : Option Contender :=
  let fs := d.wmStart (32 * k)
  let first := d.line.queue.any (fun q => q.ftype == 6 && q.slot.isSome)
  let ok := d.line.queue.filter (fun q =>
    !d.firstDue && (!first || (q.ftype == 6 && q.slot.isSome)) && decide (q.due ≤ fs) && decide (q.at' < fs) &&
    (d.line.joined || d.junction || preJoin q.ftype) &&
    !(q.ftype == 3 && k == 0 && d.time.netValid && d.netMs % 24 == 0))
  let rank := fun (q : QFrame) => if q.ftype = 3 then 0 else q.place + 1
  let best := ok.foldl (fun o q =>
    match o with
    | none => some q
    | some b => if rank q < rank b then some q else o) none
  best.map (fun q =>
    let s := match q.slot with
      | some s => s
      | none => 8 * q.place + (if q.place = 0 then 1 + rnd % 7 else rnd % 8)
    { frame := q, slot := s, kind := 0 })

/-- The MAC frame that goes on air for a contender. -/
def Dev.macBytes (d : Dev) (c : Contender) (lseq : Nat) : List Byte :=
  let q := c.frame
  if q.ftype = 1 then sealBeacon d.line.key q.body
  else
    let m : Mac := { ftype := q.ftype, bcast := q.bcast, ackreq := q.ackreq, linkKey := !q.bcast, hop := q.hop,
                     netId := d.line.params.netId.toNat, lsrc := d.addr, ldst := q.ldst, osrc := q.osrc,
                     fdst := q.fdst, eseq := q.eseq, lseq, sr := q.sr, body := q.body }
    m.seal d.line.key

/-- The body of a TIME frame: the present network milestone and the network SI time at its start (R396). -/
def Dev.timeBody (d : Dev) : List Byte :=
  leBytes 6 d.netMs ++ leBytes 8 ((d.time.msStart / 1000 + d.time.siOfs.toNat) % 2 ^ 64)

/-- A frame as it goes on air: the junction's own TIME frame names the milestone in which it is sent (R396). -/
def Dev.onAir (d : Dev) (q : QFrame) : QFrame :=
  if q.ftype = 2 && d.junction && q.osrc = d.addr then { q with body := d.timeBody } else q

/-- The checkpoint of LSEQ, written whenever LSEQ has reached a multiple of 65,536 (R384). -/
def Dev.checkpoint (d : Dev) : Dev :=
  if d.line.lseq.toNat % 65536 = 0 then d.onStore fun s => s.writePart 0x8A 0 (leBytes 4 d.line.lseq.toNat) else d

/-- A contender transmitted in its slot (R343, R369, R373, R384). -/
def Dev.transmit (d : Dev) (k : Nat) (c0 : Contender) : Dev :=
  let c := { c0 with frame := d.onAir c0.frame }
  let fs := d.wmStart (32 * k)
  let first := fs + (18 + 23 * c.slot) * 10000 / 3 + 50000
  let lseq := (d.line.lseq.toNat + 1) % 2 ^ 32
  let mode := c.frame.mode
  let m := c.frame.map
  let bytes := d.macBytes c lseq
  let bursts := match mode with
    | .tone => [(toneSymbols bytes).map (fun t => [t])]
    | .normal => [normalSymbols m bytes]
    | .rob4 => robustBursts false d.classB bytes
    | .rob6 => robustBursts true d.classB bytes
  let ends := first + frameNs mode m.codes d.classB bytes.length d.time.msLen
  let tx : TxFrame := { frame := c.frame, lseq, mode, tmid := if mode = .normal then m.tmid else 0, bytes, first, ends,
                        ackBy := ends + (if mode = .normal then 2 else 8) * d.time.msLen, bursts }
  let d1 := d.onLine fun l =>
    { l with lseq := BitVec.ofNat 32 lseq, tx := some tx, queue := l.queue.filter (· != c0.frame),
             rep := if c.kind = 2 then none else l.rep,
             rx := none, rxPreempt := if l.rx.isSome then satInc l.rxPreempt else l.rxPreempt }
  d1.checkpoint

/-- A contender held back: TX_DEFER, or CV_DEFER for a convoy frame, which is not retried (R376, R408). -/
def Dev.defer (d : Dev) (k : Nat) (c : Contender) : Dev :=
  d.onLine fun l =>
    if c.kind = 3 then { l with cvDefer := satInc l.cvDefer }
    else { l with txDefer := satInc l.txDefer, rep := if c.kind = 2 && 3 ≤ k then none else l.rep }

/-- What the first frame start of a milestone queues by itself, for the next one (R377): the junction's TIME frame (R396) and a
member's first JOIN_REQ (R273, R398), in slot s = (UID div 64) mod 8 of the low place (R374). While no parent is known the
JOIN_REQ has no next hop, waits, and stays the first frame (DEDUCED, log 170). -/
def Dev.startFrames (d : Dev) (k : Nat) : Dev :=
  if k != 0 then d
  else
    let d1 := if d.junction && d.netMs % 256 = 128 then
        d.sendBroadcast 2 1 .rob4 d.timeBody
      else d
    match d.line.quiet with
    | some q =>
      if d1.firstDue && d1.line.parent.isSome && decide (q + 50 + Config.uid.toNat % 64 ≤ d.ms) then
        d1.joinReq.onLine fun l =>
          { l with queue := l.queue.map (fun f =>
              if f.ftype = 6 && f.osrc = d.addr then { f with slot := some (16 + Config.uid.toNat / 64 % 8) } else f) }
      else d1
    | none => d1

/-- FRAME_START k: the node contends with one frame; a convoy frame that gives way to a beacon, or to an older frame of the high
place (R377), is held back and counted (R376, R408). `rnd` is the random source; `heard` is the first carrier detected in the window, in ns after the frame
start. -/
def Dev.frameStart (k rnd : Nat) (heard : Option Nat) (d : Dev) : Dev :=
  if d.time.wm != 32 * k || !d.rxReady || d.lineSilent then d
  else
    let d0 := d.startFrames k
    let (cv, d1) : Option Contender × Dev := match d0.dueConvoy k with
      | some (c, late) =>
        if late then (none, d0.onLine fun l => { l with cvLate := satInc l.cvLate }) else (some c, d0)
      | none => (none, d0)
    let pick := match d1.dueBeacon k with
      | some c => some c
      | none =>
        match d1.dueRepeat k rnd with
        | some c => some c
        | none =>
          match cv, d1.dueQueued k rnd with
          | some c, some q => if q.frame.place = 0 then some q else some c
          | some c, none => some c
          | none, q => q
    let d2 := if cv.isSome && pick != cv then d1.onLine fun l => { l with cvDefer := satInc l.cvDefer } else d1
    match pick with
    | none => d2
    | some c =>
      let early := match heard with
        | some h => decide (h < (18 + 23 * c.slot) * 10000 / 3)
        | none => false
      if d2.busyAt (d.wmStart (32 * k)) || early then d2.defer k c
      else
        let (d3, e) := if c.kind = 3 then d2.nextEseq else (d2, c.frame.eseq)
        d3.transmit k { c with frame := { c.frame with eseq := e } }

/-- FRAME_SENT: the last burst has ended (R369, R370, R387). -/
def Dev.frameSent (d : Dev) : Dev :=
  match d.line.tx with
  | none => d
  | some t =>
    d.onLine fun l =>
      { l with tx := none, ownEnd := some t.ends, txFrames := satInc l.txFrames, awaits := l.awaits ++ t.await }

/-- A new network key takes effect (R384): LSEQ and its checkpoint 0, replay state cleared; link keys follow from the
key. -/
def Dev.newNetKey (d : Dev) (key : List Byte) : Dev :=
  { d with line := { d.line with key, lseq := 0, neigh := d.line.neigh.map (fun n => { n with lseq := none }) },
           store := d.store.writePart 0x8A 0 [0, 0, 0, 0] }

end Sys2Proof.Machine
end

