-- ==== Sys2Proof/Machine/Regs.lean ====
section
/-! DEFINITION. The register atlas (18): what every register reads, who sees it, and what a write to it does. -/

namespace Sys2Proof.Machine

/-! ## Reading (Tables 18.2 to 18.15) -/

/-- The entry of a register array: index and byte offset within the stride, where the index is in range. -/
def regIndex (o base stride n : Nat) : Option (Nat × Nat) :=
  if base ≤ o && decide ((o - base) / stride < n) then some ((o - base) / stride, (o - base) % stride) else none

/-- The code of a reset kind (Table 9.4 KIND). -/
def ResetKind.code : ResetKind → Nat
  | .powerOn => 1
  | .cold => 2
  | .warm => 3

/-- The code of a mode (Table 5.6 MODE). -/
def Mode.code : Mode → Nat
  | .tollgate => 0
  | .ready => 1
  | .run => 2
  | .halt => 3

/-- SYS (Table 18.2). Write-only registers read 0. -/
def Dev.readSys (d : Dev) (o : Nat) : Option Nat :=
  let s := d.sys
  match o with
  | 0x00 => some 0x48160001
  | 0x08 => some (Config.uid.toNat % 2 ^ 32)
  | 0x0C => some (Config.uid.toNat / 2 ^ 32)
  | 0x10 => some (s.mode.code + 4 * s.start.toNat + 16 * b2n d.waitsNet)
  | 0x14 => some 0
  | 0x18 => some (s.modeResult.toNat + 4 * b2n s.modePend.isSome)
  | 0x20 => some (s.role.toNat + 256 * b2n s.clash)
  | 0x24 => some d.guar
  | 0x28 => some 0
  | 0x30 => some ((if s.mode = .tollgate && s.boot = .done then s.tollCause.toNat else 0) + 256 * s.tollAuto.toNat)
  | 0x34 => some (s.tstrap.toNat + 8 * b2n s.provEn + 16 * s.hostSel.toNat)
  | 0x38 => some (s.rstSource.toNat + 16 * s.rstKind.code + 256 * s.rstPd.toNat + 65536 * s.rstCount.toNat)
  | 0x3C => some 0
  | 0x40 => some d.vfyA
  | 0x44 => some s.vfyOffset.toNat
  | 0x48 => some (s.progress.toNat + 256 * s.aCause.toNat + 65536 * s.bCause.toNat + 16777216 * b2n s.fallback)
  | 0x100 => some (d.power.on.toNat + 65536 * d.power.ready.toNat)
  | 0x104 => some d.power.req.toNat
  | 0x108 => some d.power.fault.toNat
  | 0x10C => some (d.power.refDomain.toNat + 16 * d.power.refCause.toNat + 256 * b2n d.power.refValid)
  | 0x110 => some (d.power.refused.toNat + 256 * d.power.faults.toNat + 65536 * d.power.switches.toNat)
  | _ =>
    match regIndex o 0x140 4 16 with
    | some (n, 0) => some ((if d.pdOn n then (vgetD d.power.vnow n 0).toNat else 0) + 65536 * (vgetD d.power.vlow n 0).toNat)
    | _ => none

/-- The code of a lock state (Table 2.3 LOCK). -/
def LockState.code : LockState → Nat
  | .free => 0
  | .acquire => 1
  | .locked => 2
  | .holdover => 3

/-- TIME (Table 18.3) for one accessor; `frac` is the fraction of the waymark at which it reads. -/
def Dev.readTime (d : Dev) (who : Fin 17) (frac : BitVec 16) (o : Nat) : Option Nat :=
  let t := d.time
  let src := match t.source with
    | .zc0 => 0
    | .zc1 => 1
    | .zc2 => 2
    | .timeBase => 3
  match o with
  | 0x00 => some (t.lock.code + 4 * src + 16 * b2n t.imgXtal + 32 * b2n t.xtalFail + 64 * b2n t.range +
      128 * b2n t.aligned + 256 * b2n t.beacon + 512 * b2n t.phMismatch + 1024 * b2n t.trimLimit + 2048 * b2n t.netValid +
      4096 * b2n t.zc1Ok + 8192 * b2n t.zc2Ok + 16384 * b2n t.siValid)
  | 0x04 => some t.zcTaken.zcWord
  | 0x08 => some (d.period % 2 ^ 25)
  | 0x0C => some (t.cntLoss.toNat + 256 * t.cntRange.toNat + 65536 * t.cntXtal.toNat + 16777216 * t.cntMismatch.toNat)
  | 0x10 => some (t.count.toNat % 2 ^ 32)
  | 0x14 => some (t.latchHi[who]).toNat
  | 0x18 => some (t.latchWm[who]).toNat
  | 0x20 => some (t.netOfs.toNat % 2 ^ 32)
  | 0x24 => some (t.netOfs.toNat / 2 ^ 32)
  | 0x28 => some (d.siAt frac % 2 ^ 32)
  | 0x2C => some (t.latchSi[who]).toNat
  | 0x30 => some (t.siOfs.toNat % 2 ^ 32)
  | 0x34 => some (t.siOfs.toNat / 2 ^ 32)
  | 0x38 => some (t.compK.toNat + 65536 * t.compT0.toNat)
  | 0x3C => some t.compD.toNat
  | 0x40 => some (t.trim.toNat + 65536 * t.ferr.toNat)
  | _ => none

/-- LANE.PHYS[k] (Table 4.2). -/
def Dev.readPhys (d : Dev) (k : Nat) : Nat :=
  let x := vgetD d.lane.phys k { retired := false, cause := 0, fails := 0 }
  let named := fun (i : Nat) => (upTo 64).any (fun t =>
    match d.image.route t with
    | some r => r.lane == i
    | none => false)
  let m := d.lane.logical k
  let st :=
    if x.retired then 3
    else if d.sys.role = 0 then 1
    else match m with
      | some i => if named i then 0 else 1
      | none => 2
  st + 256 * m.getD 0x3F + 65536 * x.fails.toNat + 16777216 * x.cause.toNat

/-- The logical lanes of a pot in a range, as bits. -/
def Image.laneBits (m : Image) (p lo n : Nat) : Nat :=
  packBits ((upTo n).map (fun i => m.laneOwn.getD (lo + i) 0xFF == p))

/-- A route entry's three registers (Table 4.7). -/
def Image.readRoute (m : Image) (t o : Nat) : Option Nat :=
  match m.route t with
  | some r =>
    match o with
    | 0 => some (r.pot + 256 * r.lane + 65536 * r.period + 16777216 * r.phase)
    | 4 => some (r.length + 16777216 * r.release)
    | 8 => some 1
    | _ => none
  | none => if o < 12 then some 0 else none

/-- LANE.HATCH_A[h] (Table 4.6). -/
def Dev.readHatch (d : Dev) (h : Nat) : Nat :=
  match d.image.hatch h with
  | some x => x.writer + 256 * d.potOf x.writer + 4096 + 65536 * x.readers
  | none => 0

/-- LANE (Table 18.4). -/
def Dev.readLane (d : Dev) (o : Nat) : Option Nat :=
  if o < 0xC0 then (regIndex o 0 4 48).map (fun x => d.readPhys x.1)
  else if o = 0xC0 then some 0
  else if o = 0xC4 then some (d.lane.xResult.toNat + 4 * b2n d.lane.planned.isSome)
  else if o = 0xC8 then some d.lane.hostDenied.toNat
  else if 0xC00 ≤ o then
    (regIndex o 0xC00 4 1024).map (fun x => if d.image.owner x.1 < 16 then 16 + d.image.owner x.1 else 0)
  else if 0x800 ≤ o then
    match regIndex o 0x800 8 64 with
    | some (h, 0) => some (d.readHatch h)
    | some (h, 4) => some (vgetD d.cycle.hatches h HatchState.reset).gen.toNat
    | _ => none
  else if 0x400 ≤ o then
    match regIndex o 0x400 16 64 with
    | some (t, k) => d.image.readRoute t k
    | none => none
  else if 0x300 ≤ o then (regIndex o 0x300 4 64).map (fun x => d.image.work.getD x.1 0)
  else if 0x200 ≤ o then
    (regIndex o 0x200 4 16).map (fun x => (d.pot x.1).arith.toNat + 65536 * (d.pot x.1).constF.toNat)
  else
    match regIndex o 0x100 16 16 with
    | some (p, 0) => some (d.image.laneBits p 0 32)
    | some (p, 4) => some (d.image.laneBits p 32 12)
    | some (p, 8) => some ((d.image.window p).base + 256 * (d.image.window p).pages)
    | some (p, 12) => some ((d.pot p).denied.toNat + 65536 * (d.pot p).memFault.toNat)
    | _ => none

/-- The code of a pot's state (Table 5.9 STATE). -/
def PotRun.code : PotRun → Nat
  | .idle => 0
  | .run => 1
  | .overrun => 2
  | .stopped => 3

/-- CYCLE.FORCE_SEL[i] (Table 5.5); BAD tells of an enabled entry that names no element of its kind. -/
def Dev.readForceSel (d : Dev) (i : Nat) : Nat :=
  let f := vgetD d.cycle.force i ForceEntry.reset
  f.channel.toNat + 1024 * f.elem.toNat + 65536 * b2n f.output + 131072 * b2n f.en +
    262144 * b2n (f.en && !d.forceActive f)

/-- CYCLE (Table 18.5). COUNT reads 0 outside RUN, and SKEW tells of R122. -/
def Dev.readCycle (d : Dev) (o : Nat) : Option Nat :=
  let c := d.cycle
  let run := d.sys.mode == .run
  match o with
  | 0x00 => some (c.ofs.toNat + 256 * (if run then d.cycleCount else 0) +
      65536 * b2n (run && d.time.netValid && c.ofs != d.time.netOfs.setWidth 8))
  | 0x04 => some (d.forces.length + 65536 * b2n c.forceN)
  | 0x08 => some 0
  | 0x10 => some 0
  | 0x14 => some (c.potResult.toNat + 65536 * packBits (c.pots.toList.map (fun x => x.pend.isSome || x.pendNext.isSome)))
  | 0x18 => some (c.ovrTask.toNat + 256 * c.ovrCause.toNat + 4096 * c.ovrPot.toNat + 65536 * c.ovrCount.toNat)
  | 0x1C => some c.ovrMs.toNat
  | _ =>
    if 0x400 ≤ o then
      match regIndex o 0x400 8 256 with
      | some (i, 0) => some (d.readForceSel i)
      | some (i, 4) => some (vgetD c.force i ForceEntry.reset).value.toNat
      | _ => none
    else if 0x100 ≤ o then
      (regIndex o 0x100 4 64).map (fun x =>
        b2n (d.task x.1).first + 2 * b2n (d.task x.1).ovr + 256 * (d.task x.1).peak.toNat)
    else
      (regIndex o 0x40 4 16).map (fun x =>
        let p := d.pot x.1
        p.run.code + 4 * p.start.toNat + 256 * p.overruns.toNat + 65536 * p.restarts.toNat)

/-- The code of a bank state (Table 8.2 A_STATE). -/
def BankMode.code : BankMode → Nat
  | .empty => 0
  | .writing => 1
  | .complete => 2
  | .active => 3

/-- STORE.GEN_A and GEN_B. -/
def Bank.readGen (x : Bank) : Nat := if x.mode = .complete || x.mode = .active then x.generation else 0

/-- SW_STATE with SW_BANK. -/
def SwitchState.code : SwitchState → Nat
  | .idle => 0
  | .verifying b _ _ _ _ => 1 + 4 * b2n b
  | .armed b _ _ _ => 2 + 4 * b2n b

/-- STORE.REG_A and REG_B of a larder region (Table 8.2). -/
def Dev.readRegion (d : Dev) (r o : Nat) : Option Nat :=
  match d.image.region r, o with
  | some g, 0 => some (g.base + 32768 * b2n g.journaled + 65536 * g.owner + 1048576)
  | some g, 4 =>
    let x := vgetD d.store.regions r { overflow := false, lost := false, retired := false }
    some (g.groups + 65536 * b2n x.overflow + 131072 * b2n x.lost + 262144 * b2n x.retired)
  | none, 0 => some 0
  | none, 4 => some 0
  | _, _ => none

/-- STORE.STAT.PROGRESS (Table 8.2). How far an ERASE, SEAL or verification is, and how far one got that did not succeed, is
free within its range (Config.storePercent). -/
def Dev.percentShown (d : Dev) : Nat :=
  if d.store.progress = 127 then min 100 (Config.storePercent d.time.now) else d.store.progress.toNat

/-- STORE (Table 18.6). -/
def Dev.readStore (d : Dev) (o : Nat) : Option Nat :=
  let s := d.store
  match o with
  | 0x00 => some 0
  | 0x04 => some s.arg0.toNat
  | 0x08 => some s.arg1.toNat
  | 0x0C => some (s.result.toNat + 16 * s.op.toNat + 256 * b2n s.isBusy + 65536 * d.percentShown)
  | 0x10 => some (s.bankA.mode.code + 4 * s.bankB.mode.code + 16 * s.sw.code + 256 * s.vfyCause.toNat)
  | 0x14 => some s.bankA.readGen
  | 0x18 => some s.bankB.readGen
  | 0x1C => some s.swAt.toNat
  | 0x20 => some (s.corrected.toNat + 65536 * (2048 - s.spares))
  | 0x24 => some (s.lostCount.toNat + 65536 * s.spares + 268435456 * b2n s.wearMark + 536870912 * b2n s.noSpare)
  | 0x28 => some (s.redone.toNat + 256 * s.rolled.toNat + 65536 * s.crcLost.toNat)
  | 0x2C => some (s.pCorrected.toNat + 65536 * s.pUncorr.toNat)
  | _ =>
    if 0x400 ≤ o then
      match regIndex o 0x400 8 64 with
      | some (r, k) => d.readRegion r k
      | none => none
    else (regIndex o 0x100 4 64).map (fun x => (vgetD s.buf x.1 0).toNat)

/-- The code of a slice's duty (Table 10.3 DUTY). -/
def SliceDuty.code : SliceDuty → Nat
  | .active => 0
  | .spare => 1
  | .idle => 2
  | .retired => 3

/-- MANDOLINE.CAL_STAT (Table 10.3): a converter whose freed slice is being calibrated still rotates (log 176). -/
def Dev.readCalStat (d : Dev) (c : Nat) : Nat :=
  let x := d.conv c
  let st := if !d.convUsable c then 3 else if x.failed then 2 else if x.spare.isNone && x.freed.isNone then 1 else 0
  x.spare.getD 0xF + 16 * x.next + 256 * st + 65536 * x.exchanges.toNat

/-- The registers of slot `n` (R316). -/
def Dev.readSlot (d : Dev) (n o : Nat) : Option Nat :=
  let s := d.slot n
  match o with
  | 0 =>
    let own := d.image.slotOwn.getD n 0xFF
    let sc := match d.image.script n with
      | some x => 1 + 256 * x.mode
      | none => 0
    some (sc + (if own < 16 then 16 * own else 0) + 65536 * d.slotStatus n)
  | 4 => some (s.runs.toNat + 65536 * s.ignored.toNat)
  | 8 => some s.write.toNat
  | _ => none

/-- A converter's registers (Table 18.7). -/
def Dev.readConv (d : Dev) (c o : Nat) : Option Nat :=
  let x := d.conv c
  match o with
  | 0x00 => some (x.width.toNat + 4 * b2n x.lp + 16 * x.bind.toNat + 64 * b2n x.failed + 256 * x.working.length)
  | 0x04 => some x.map.toNat
  | 0x08 => some x.interval.toNat
  | 0x0C => some (d.readCalStat c)
  | _ =>
    if 0x200 ≤ o then
      (regIndex o 0x200 4 64).map (fun k => (vgetD (d.slot (4 * c + k.1 / 16)).par (k.1 % 16) 0).toNat)
    else if 0x100 ≤ o then
      match regIndex o 0x100 16 4 with
      | some (s, k) => d.readSlot (4 * c + s) k
      | none => none
    else
      (regIndex o 0x40 4 9).map (fun k =>
        let y := x.slice k.1
        y.duty.code + (if y.duty = .active then 4 * y.pos else 0) + 256 * y.attempts.toNat + 4096 * y.cause.toNat +
          65536 * y.fails.toNat)

/-- A crossing's registers (Table 10.7). -/
def Dev.readCx (d : Dev) (i o : Nat) : Option Nat :=
  let x := d.cxOf i
  match o with
  | 0 => some (b2n x.en + 2 * b2n x.pol + 4 * x.hys.toNat + 16 * x.input.toNat + 65536 * x.thr.toNat)
  | 4 => some (b2n x.tripWa + 2 * b2n x.tripWb)
  | 8 => some (b2n x.state + 65536 * x.asserts.toNat)
  | _ => none

/-- MANDOLINE (Tables 18.7 and 18.8). -/
def Dev.readMando (d : Dev) (o : Nat) : Option Nat :=
  if o < 0x4000 then d.readConv (o / 0x1000) (o % 0x1000)
  else if 0x8100 ≤ o then
    match regIndex o 0x8100 16 4 with
    | some (g, 0) =>
      let x := vgetD d.mando.groups g SampleGroup.reset
      some (b2n x.used + 2 * b2n x.byCross + 16 * x.source + 65536 * x.members)
    | some (g, 4) =>
      let x := vgetD d.mando.groups g SampleGroup.reset
      some (x.fires.toNat + 65536 * x.missed.toNat)
    | _ => none
  else
    match regIndex o 0x8000 16 16 with
    | some (i, k) => d.readCx i k
    | none => none

/-- SENSE (Table 18.9). -/
def Dev.readSense (d : Dev) (o : Nat) : Option Nat :=
  if o < 0x20 then
    (regIndex o 0 4 8).map (fun x =>
      let y := d.diOf x.1
      y.filter.toNat + 4 * b2n y.inv + 256 * b2n y.shown)
  else if o = 0x40 then some (d.sense.stuck.toNat + 65536 * d.sense.timeout.toNat)
  else (regIndex o 0x80 4 8).map (fun x => (d.i2cOf x.1).good.toNat + 65536 * (d.i2cOf x.1).err.toNat)

/-- Two 16-bit counters in one register. -/
def pair16 (lo hi : BitVec 16) : Nat := lo.toNat + 65536 * hi.toNat

/-- LINE.NET_STAT (Table 13.6). Before the Line has started after a reset, HOP reads its reset value 0 (DEDUCED, log 33). -/
def Dev.readNetStat (d : Dev) : Nat :=
  let l := d.line
  let hop := if d.junction || l.quiet.isNone then 0 else l.hop
  b2n l.joined + 2 * b2n d.relays + 4 * hop + 64 * l.parent.getD 0 + 262144 * b2n l.addrClash +
    524288 * b2n (!l.key.all (· == 0))

/-- LINE.GRP[g] (Table 13.6). -/
def Dev.readGrp (d : Dev) (g : Nat) : Nat :=
  match d.image.group g with
  | some x =>
    1 + 2 * b2n x.convoy + 4 * b2n (d.cycle.stale.any (fun k => k / 64 == 0x100 + g)) +
      65536 * (((mapFind d.line.applied g).getD 0) % 65536)
  | none => 0

/-- LINE (Table 18.10). -/
def Dev.readLine (d : Dev) (o : Nat) : Option Nat :=
  let l := d.line
  match o with
  | 0x00 => some (l.cfgPend.getD l.cfg).toNat
  | 0x04 => some (b2n d.rxReady + 2 * b2n d.txActive + 4 * b2n l.rx.isSome + 8 * b2n d.classB + 16 * l.phUsed.toNat +
      256 * l.noise.toNat + 65536 * l.blanked.toNat)
  | 0x10 => some (pair16 l.rxCarrier l.rxTone)
  | 0x14 => some (pair16 l.bannerFail l.checkFail)
  | 0x18 => some (pair16 l.burstLost l.burstSaved)
  | 0x1C => some (pair16 l.captured l.rxPreempt)
  | 0x20 => some (pair16 l.bubbles l.txFrames)
  | 0x24 => some l.txCut.toNat
  | 0x40 => some d.readNetStat
  | 0x44 => some (l.params.netId.toNat + 65536 * l.params.addr.toNat)
  | 0x48 => some (pair16 l.txDefer l.ackFail)
  | 0x4C => some (pair16 l.replay l.micFail)
  | 0x50 => some (pair16 l.fmtFail l.hopDrop)
  | 0x54 => some (pair16 l.cvLate l.cvDefer)
  | 0x58 => some (pair16 l.tooLong l.noRoute)
  | 0x60 => some 0
  | 0x64 => some (l.probe.toNat + 256 * l.probeMargin.toNat + 65536 * l.probeRssi.toNat)
  | 0x68 => some 0
  | _ => (regIndex o 0x100 4 256).map (fun x => d.readGrp x.1)

/-- HOLDER (Table 14.4). -/
def Holder.code : Holder → Nat
  | .free => 0
  | .spi => 1
  | .remote _ => 2

/-- One word of a queue slot (Table 18.12): data octets below LEN, 0 beyond. SEQ is reserved in a send slot. -/
def BusSlot.read (s : BusSlot) (rx : Bool) (o : Nat) : Option Nat :=
  if o = 0 then some (s.len.toNat + (if rx then 65536 * s.seq.toNat else 0) + 2147483648 * b2n s.full)
  else if o = 4 then some (s.ftype.toNat + 256 * s.peer.toNat)
  else if o < 0x200 then
    some (leNat ((upTo 4).map (fun k => if o - 8 + k < s.len.toNat then Mem.read zeroByte s.data (o - 8 + k) else 0)))
  else none

/-- BUS (Table 18.11). -/
def Dev.readBus (d : Dev) (o : Nat) : Option Nat :=
  let s := d.seat
  match o with
  | 0x00 => some (s.holder.code + 4 * b2n s.priv + 8 * b2n s.estr)
  | 0x04 => some (s.badCrc.toNat + 256 * s.badSeq.toNat + 65536 * s.authFail.toNat + 16777216 * s.idleFree.toNat)
  | 0x08 => some (b2n s.attnBoot + 2 * s.attn.toNat)
  | 0x0C => some (2 * s.attnEn.toNat)
  | 0x10 => some (packBits (s.tuns.toList.map Option.isSome) + 256 * packBits (s.tuns.toList.map (fun t =>
      match t with
      | some x => x.rx.isSome
      | none => false)))
  | 0x24 => some (pair16 d.bus.framesRx d.bus.crcErr)
  | 0x28 => some (pair16 d.bus.tokenLost d.bus.drop)
  | _ =>
    if 0x2000 ≤ o then
      match regIndex o 0x2000 0x200 4 with
      | some (i, k) => (vgetD d.bus.txq i BusSlot.reset).read false k
      | none => none
    else
      match regIndex o 0x1000 0x200 4 with
      | some (i, k) => (vgetD d.bus.rxq i BusSlot.reset).read true k
      | none => none

/-- WHISK (Table 18.13). -/
def Dev.readWhisk (d : Dev) (o : Nat) : Option Nat :=
  if 0x2000 ≤ o then none
  else
    let w := d.unit (o / 0x1000)
    match o % 0x1000 with
    | 0x00 => some w.source.toNat
    | 0x04 => some w.stat
    | 0x08 => some w.speed.toNat
    | 0x0C => some (w.cause.toNat + 16 * w.cx.toNat + 256 * b2n w.latched + 65536 * w.trips.toNat)
    | 0x10 => some (pair16 w.sbRpm w.floorRpm)
    | 0x14 => some (w.fraction + 131072 * b2n w.lost)
    | 0x18 => some (pair16 w.shorts w.losses)
    | _ => none

/-- ACT.DO[n] (Table 16.6): pair bits on both outputs of a pair. -/
def Dev.readDo (d : Dev) (n : Nat) : Nat :=
  let k := n / 2
  let p := vgetD d.fan.pairs k Pair.reset
  b2n (vgetD d.fan.doPin n false) +
    (if d.image.paired (2 * k) then 2 + 4 * p.status else 0) + 65536 * (vgetD d.fan.doCount n 0).toNat

/-- ACT.POS[n]: POSITION of the pair that a driver output belongs to. -/
def Dev.readPos (d : Dev) (n : Nat) : Nat :=
  if d.image.paired (2 * (n / 2)) then
    (vgetD d.fan.pairs (n / 2) Pair.reset).shown (d.image.tableOf (0x050 + 2 * (n / 2)))
  else 0

/-- FAN and ACT (Table 18.14). -/
def Dev.readFan (d : Dev) (o : Nat) : Option Nat :=
  match o with
  | 0x60 => some 0
  | 0x64 => some (packBits (d.fan.fans.toList.map (·.capture)))
  | 0x70 => some (b2n d.fan.shdn + 2 * d.fan.shdnCause.toNat + 256 * d.fan.shdnCount.toNat)
  | 0x74 => some d.fan.ohm.toNat
  | _ =>
    if 0x140 ≤ o then
      match regIndex o 0x140 8 8 with
      | some (n, 0) => some (d.readDo n)
      | some (n, 4) => some (d.readPos n)
      | _ => none
    else if 0x100 ≤ o then (regIndex o 0x100 4 8).map (fun x => (vgetD d.fan.aoOut x.1 0).toNat)
    else
      match regIndex o 0 16 6 with
      | some (f, 0) => some (256 * (d.fanOf f).mode + 2048 * d.fanStatus f)
      | some (f, 4) => some (d.fanOf f).speed.toNat
      | some (f, 8) => some ((d.fanOf f).age.toNat % 65536)
      | some (f, 12) => some (pair16 (d.fanOf f).kicks (d.fanOf f).tachLosses)
      | _ => none

/-- FACE (Table 18.15). -/
def Dev.readFace (d : Dev) (o : Nat) : Option Nat :=
  let f := d.face
  match o with
  | 0x00 => some f.statWord
  | 0x04 => some (f.vadj + 65536 * f.headMin.toNat)
  | 0x08 => some f.power.toNat
  | 0x0C => some (f.fvPasses.toNat + 65536 * f.fvLastOpen.toNat + 16777216 * f.fvLastShort.toNat)
  | 0x10 => some (pair16 f.opsDone f.rejects)
  | _ =>
    match regIndex o 0x100 8 16 with
    | some (r, 0) => some (d.image.faceRegA r)
    | some (r, 4) => some (d.faceRegB r)
    | _ => none

/-- The whole register at an aligned address of register space; none where the address is reserved (R536, R539). -/
def Dev.regAt (d : Dev) (who : Fin 17) (frac : BitVec 16) (a : Nat) : Option Nat :=
  let o := a % 65536
  if a % 4 ≠ 0 then none
  else
    match a / 65536 with
    | 0 => d.readSys o
    | 1 => d.readTime who frac o
    | 2 => d.readLane o
    | 3 => d.readCycle o
    | 4 => d.readStore o
    | 5 => d.readMando o
    | 6 => d.readSense o
    | 7 => d.readLine o
    | 8 => d.readBus o
    | 9 => d.readWhisk o
    | 10 => d.readFan o
    | 11 => d.readFace o
    | _ => none

/-! ## Views (R107, R424, R539, R543) -/

/-- The bits of a register whose view is P and not per-resource. -/
def pubMask (a : Nat) : Nat :=
  if [0x00000, 0x00008, 0x0000C, 0x00010, 0x00034, 0x10000, 0x10008, 0x10010, 0x10014, 0x10018, 0x10020, 0x10024, 0x10028,
      0x1002C, 0x30000, 0x70044, 0x80000].contains a then 0xFFFFFFFF
  else if a = 0x20 then 3
  else if a = 0x24 then 0x40000
  else if a = 0x30 then 0xFF
  else if a = 0x38 then 0x3F
  else if a = 0x48 then 0xFF
  else if a = 0x80008 || a = 0xA0070 then 1
  else if 0x50000 ≤ a && a < 0x54000 && a % 0x1000 = 0 then 0x3F
  else if 0x50000 ≤ a && a < 0x54000 && a % 0x1000 = 4 then 0xFFFFFFFF
  else 0

/-- Whether pot `p` owns the resource that a register with view H/P belongs to; none for a register without an H/P
field (R543). -/
def Dev.ownsReg (d : Dev) (p a : Nat) : Option Bool :=
  let o := a % 65536
  let chan := fun (c : Nat) => d.image.owner c == p
  match a / 65536 with
  | 0 => if o = 0x24 then some true else none
  | 1 => if o = 0x30 || o = 0x34 then some true else none
  | 2 =>
    if o < 0x100 then none
    else if 0xC00 ≤ o then some (chan ((o - 0xC00) / 4))
    else if 0x800 ≤ o then
      some (match d.image.hatch ((o - 0x800) / 8) with
        | some h => d.potOf h.writer == p || h.readers.testBit p
        | none => false)
    else if 0x400 ≤ o then some (d.potOf ((o - 0x400) / 16) == p)
    else if 0x300 ≤ o then some (d.potOf ((o - 0x300) / 4) == p)
    else if 0x200 ≤ o then some ((o - 0x200) / 4 == p)
    else some ((o - 0x100) / 16 == p)
  | 3 =>
    if 0x40 ≤ o && o < 0x80 then some ((o - 0x40) / 4 == p)
    else if 0x100 ≤ o && o < 0x200 then some (d.potOf ((o - 0x100) / 4) == p)
    else none
  | 4 =>
    if 0x400 ≤ o then
      some (match d.image.region ((o - 0x400) / 8) with
        | some r => r.owner == p
        | none => false)
    else none
  | 5 =>
    if o < 0x4000 then
      let k := o % 0x1000
      let s := if 0x200 ≤ k then (k - 0x200) / 64 else (k - 0x100) / 16
      if 0x100 ≤ k then some (d.image.slotOwn.getD (4 * (o / 0x1000) + s) 0xFF == p) else none
    else if 0x8100 ≤ o then
      let g := vgetD d.mando.groups ((o - 0x8100) / 16) SampleGroup.reset
      some (g.used && g.owner == p)
    else some (d.image.cxOwner ((o - 0x8000) / 16) == some p)
  | 6 =>
    if o < 0x40 then some (chan (o / 4))
    else if 0x80 ≤ o then some (chan (0x028 + (o - 0x80) / 4))
    else none
  | 7 => if 0x100 ≤ o then some (chan (0x100 + (o - 0x100) / 4)) else none
  | 9 => some (chan (0x058 + o / 0x1000))
  | 10 =>
    if o < 0x60 then some (chan (0x040 + o / 16))
    else if 0x140 ≤ o then some (chan (0x050 + (o - 0x140) / 8))
    else if 0x100 ≤ o then some (chan (0x048 + (o - 0x100) / 4))
    else none
  | 11 =>
    if 0x100 ≤ o then
      some (match d.image.faceRegion ((o - 0x100) / 8) with
        | some r => r.owner == p
        | none => false)
    else some (chan 0x060)
  | _ => none

/-- The H/P bits of a register that an owning pot sees: of SYS.GUAR its own VOID bit, of CYCLE.TASK bits [1:0]. -/
def ownMask (p a : Nat) : Nat :=
  if a = 0x24 then 2 ^ p
  else if 0x30100 ≤ a && a < 0x30200 then 3
  else 0xFFFFFFFF

/-- Whether a register has a field of view H: a pot's write to it is refused whole (DEDUCED, log 34). -/
def Dev.hiddenReg (d : Dev) (p a : Nat) : Bool :=
  a == 0x24 || (0x30100 ≤ a && a < 0x30200) ||
    (match d.ownsReg p a with
     | some _ => false
     | none => pubMask a ≠ 0xFFFFFFFF)

/-- What an unprivileged pot's window shows of an address (Table 18.16). -/
def Dev.potRead (d : Dev) (p : Fin 16) (a : Nat) : Word :=
  match d.regAt ⟨p.val, by omega⟩ 0 a with
  | none => 0
  | some v =>
    let own := match d.ownsReg p.val a with
      | some true => ownMask p.val a
      | _ => 0
    BitVec.ofNat 32 (v &&& (pubMask a ||| own))

/-- What a host sees (Table 18.17). -/
def Dev.hostRead (d : Dev) (priv : Bool) (frac : BitVec 16) (a : Nat) : Word :=
  let v := (d.regAt 16 frac a).getD 0
  BitVec.ofNat 32 (if priv then v else v &&& pubMask a)

/-- What a task of pot `p` latches for REG.RD at its release (R220, R543, R544): the Hob sees every register whole. -/
def Dev.taskRead (d : Dev) (p : Fin 16) (a : Nat) : Word :=
  if p = 0 then BitVec.ofNat 32 ((d.regAt 0 0 a).getD 0) else d.potRead p a

/-- The latches of R56 that the reads of several addresses set. -/
def Dev.latchReads (d : Dev) (who : Fin 17) (frac : BitVec 16) (as : List Nat) : Dev :=
  let d1 := if as.contains 0x10010 then d.msLoRead who frac else d
  if as.contains 0x10028 then d1.siLoRead who frac else d1

/-! ## Writing -/

/-- A reset ordered by software waits for the next milestone boundary (R255). -/
def Dev.orderReset (source : Nat) (kind : ResetKind) (d : Dev) : Dev :=
  d.onSys fun s => { s with pendResets := s.pendResets ++ [{ source, kind, faultPd := 0 }] }

/-- SYS.RESET (R259). -/
def Dev.resetWrite (v : Word) (d : Dev) : Dev :=
  let n := v.toNat
  if n / 65536 ≠ 0x4816 then d
  else if n % 4 = 1 then d.orderReset 4 .warm
  else if n % 4 = 2 then d.orderReset 5 .cold
  else d

/-- RETRY (R279): selection and acceptance run again from a tollgate entered at start-up. -/
def Dev.retry (d : Dev) : Dev :=
  if d.sys.mode = .tollgate && d.sys.boot = .done && d.sys.tollCause ≠ 9 then
    d.onSys fun s => { s with boot := .select, progress := 3, aCause := 0xFF, bCause := 0xFF }
  else d

/-- SYS.MODECMD: a privileged host's mode command (R156, R157); reserved commands do nothing (R5). -/
def Dev.modeWrite (v : Word) (d : Dev) : Dev :=
  match v.toNat % 8 with
  | 1 => d.modeCommand .runWarm
  | 2 => d.modeCommand .runCold
  | 3 => d.modeCommand .halt
  | _ => d

/-- CYCLE.POTCMD (R160). -/
def Dev.potCmdWrite (v : Word) (host : Bool) (d : Dev) : Dev :=
  let p := v.toNat % 16
  let order := fun (a : PotAction) => if host then d.potCommand p a true else d.hobPotCommand p a
  match bitsOf v.toNat 6 4 with
  | 1 => order .stop
  | 2 => order .warm
  | 3 => order .cold
  | _ => d

/-- STORE.CMD (Table 8.4). `words` is how much of a WRITE an ABORT finds done. -/
def Dev.storeCmd (v : Word) (priv : Bool) (words : Nat) (d : Dev) : Dev :=
  let b := bitOf v.toNat 4
  match v.toNat % 16 with
  | 1 => d.storeErase b
  | 2 => d.storeWrite b
  | 3 => d.storeSeal b
  | 4 => d.storeSwitch b
  | 5 => d.storeAbort words
  | 6 => d.txnBegin
  | 7 => d.txnWrite
  | 8 => d.txnCommit
  | 9 => d.storeProvision priv
  | _ => d

/-- A word of a receive slot written: FULL is cleared by writing 1, everything else is read-only. -/
def BusState.writeRx (b : BusState) (i o : Nat) (v : Word) : BusState :=
  if o = 0 && bitOf v.toNat 31 then { b with rxq := vupdN b.rxq i (fun s => { s with full := false }) } else b

/-- A word of a send slot written; ignored while its FULL is 1 (R542). A reserved LEN leaves LEN as it was (R5). Octets at or
above LEN are reserved and ignore the write (R4, R540). -/
def Dev.writeTx (d : Dev) (i o : Nat) (v : Word) : Dev :=
  let n := v.toNat
  if (vgetD d.bus.txq i BusSlot.reset).full then d
  else
    let set := fun (f : BusSlot → BusSlot) => d.onBus fun b => { b with txq := vupdN b.txq i f }
    if o = 0 then
      let d1 := set fun s => { s with len := if n % 512 ≤ 501 then BitVec.ofNat 9 n else s.len }
      if bitOf n 31 then d1.busSubmit i else d1
    else if o = 4 then set fun s => { s with ftype := BitVec.ofNat 8 n, peer := BitVec.ofNat 8 (n / 256) }
    else set fun s => { s with data := Mem.writeBytes zeroByte s.data (o - 8) ((leBytes 4 n).take (s.len.toNat - (o - 8))) }

/-- A write of the Mandoline registers: CAL, PAR by a host or the Hob, and the crossings. -/
def Dev.writeMando (d : Dev) (o : Nat) (v : Word) : Dev :=
  let n := v.toNat
  if o < 0x4000 then
    let c := o / 0x1000
    let k := o % 0x1000
    if k = 8 then
      (if 10 ≤ n % 16384 && n % 16384 ≤ 10000 then d.onConv c fun x => { x with interval := BitVec.ofNat 14 n } else d)
    else if 0x200 ≤ k && k < 0x300 then
      let j := (k - 0x200) / 4
      d.onSlot (4 * c + j / 16) fun s => { s with par := vupdN s.par (j % 16) (fun _ => v) }
    else d
  else
    match regIndex o 0x8000 16 16 with
    | some (i, 0) => d.onMando fun m => { m with cxPending := m.cxPending ++ [(2 * i, v)] }
    | some (i, 4) => d.onMando fun m => { m with cxPending := m.cxPending ++ [(2 * i + 1, v)] }
    | _ => d

/-- A write that its accessor may make takes effect: by a privileged host at step 1 or by the Hob at its commit. Read-only
fields, reserved bits and reserved addresses ignore it (R5, R544, R545). -/
def Dev.regWrite (host : Bool) (rec : Word) (words a : Nat) (v : Word) (d : Dev) : Dev :=
  let n := v.toNat
  let o := a % 65536
  match a / 65536 with
  | 0 =>
    if o = 0x14 then d.modeWrite v
    else if o = 0x28 then (if bitOf n 0 then d.ackRetire rec else d)
    else if o = 0x30 then (if bitOf n 16 then d.retry else d)
    else if o = 0x3C then d.resetWrite v
    else if o = 0x104 then d.pdReqWrite v host
    else if o = 0x10C then (if bitOf n 8 then d.onPower fun p => { p with refValid := false } else d)
    else d
  | 1 =>
    if o = 0x04 then d.onTime fun t => t.zcWrite v
    else if o = 0x30 then d.siOfsLo v
    else if o = 0x34 then d.siOfsWrite v
    else if o = 0x38 then d.onTime fun t => { t with compK := BitVec.ofNat 16 n, compT0 := BitVec.ofNat 16 (n / 65536) }
    else if o = 0x3C then d.onTime fun t => { t with compD := v }
    else d
  | 2 => if o = 0xC0 then d.laneXchg v else d
  | 3 =>
    if o = 0x08 then (if bitOf n 0 then d.forceClear else d)
    else if o = 0x10 then d.potCmdWrite v host
    else
      match regIndex o 0x400 8 256 with
      | some (i, 0) => if h : i < 256 then d.forceWrite ⟨i, h⟩ false v else d
      | some (i, 4) => if h : i < 256 then d.forceWrite ⟨i, h⟩ true v else d
      | _ => d
  | 4 =>
    if o = 0x04 then d.onStore fun s => { s with arg0 := v }
    else if o = 0x08 then d.onStore fun s => { s with arg1 := v }
    else
      match regIndex o 0x100 4 64 with
      | some (i, 0) => d.onStore fun s => { s with buf := vupdN s.buf i (fun _ => v) }
      | _ => if o = 0 then d.storeCmd v true words else d
  | 5 => d.writeMando o v
  | 6 =>
    match regIndex o 0 4 8 with
    | some (i, 0) => d.onSense fun s => { s with di := vupdN s.di i (fun x => { x with pending := some (BitVec.ofNat 3 n) }) }
    | _ => d
  | 7 =>
    if o = 0x00 then d.onLine fun l => l.writeCfg v
    else if o = 0x60 then (if bitOf n 12 then d.probeGo (n % 4096) else d)
    else if o = 0x68 then (if bitOf n 12 then d.jclr (n % 4096) else d)
    else d
  | 8 =>
    if o = 0x08 then { d with seat := { d.seat with attn := d.seat.attn &&& ~~~(BitVec.ofNat 4 (n / 2)) } }
    else if o = 0x0C then { d with seat := { d.seat with attnEn := BitVec.ofNat 4 (n / 2) } }
    else
      match regIndex o 0x1000 0x200 4 with
      | some (i, k) => d.onBus fun b => b.writeRx i k v
      | none =>
        match regIndex o 0x2000 0x200 4 with
        | some (i, k) => d.writeTx i k v
        | none => d
  | 9 =>
    if o = 0 || o = 0x1000 then
      d.onUnit (o / 0x1000) fun w => { w with sourcePending := some (BitVec.ofNat 2 n) }
    else d
  | 10 => if o = 0x60 then d.fanCapture (BitVec.ofNat 6 n) else d
  | _ => d

/-- A refused write of a pot (R107). -/
def Dev.deny (d : Dev) (p : Nat) : Dev := d.onPot p fun x => { x with denied := satInc x.denied }

/-- A Hob write at its commit (R544): only SYS.MODECMD, STORE.CMD and SYS.RESET refuse it (R156, R228, R259). -/
def Dev.hobWrite (d : Dev) (a : Nat) (v : Word) : Dev :=
  if a = 0x14 || a = 0x3C || a = 0x40000 then d.deny 0 else d.regWrite false d.sys.recorded 0 a v

/-- The channel to which a block's chapter assigns an AIN pin (11 Table 11.1, 15 Table 15.1 while the unit is in use, 17
R528). -/
def Image.pinChannel (m : Image) (pin : Nat) : Option Nat :=
  if 24 ≤ pin && pin ≤ 27 then some (0x020 + (pin - 24))
  else if pin = 31 then some 0x025
  else if pin = 30 then (if byteAt m.faceCfg 0x20 = 1 then some 0x060 else none)
  else if pin < 7 && m.owner 0x058 < 16 then some 0x058
  else if 8 ≤ pin && pin < 15 && m.owner 0x059 < 16 then some 0x059
  else none

/-- Whether R299 lets a pot name an AIN pin. -/
def Image.pinAllowed (m : Image) (p pin : Nat) : Bool :=
  match m.pinChannel pin with
  | some c => m.owner c == p
  | none => true

/-- Whether a pot may point crossing `i` at an input of its converter (Table 10.7 INPUT). -/
def Dev.cxPinOk (d : Dev) (p i input : Nat) : Bool := d.image.pinAllowed p (8 * (i / 4) + input)

/-- An unprivileged pot's write at its commit (R107, Table 18.16). -/
def Dev.potWrite (d : Dev) (p a : Nat) (v : Word) : Dev :=
  let o := a % 65536
  let n := v.toNat
  if (d.regAt 0 0 a).isNone || d.hiddenReg p a then d.deny p
  else
    match d.ownsReg p a with
    | none => d
    | some false => d.deny p
    | some true =>
      match a / 65536 with
      | 5 =>
        match regIndex o 0x8000 16 16 with
        | some (i, 0) => if d.cxPinOk p i (bitsOf n 6 4) then d.regWrite false 0 0 a v else d.deny p
        | some (_, 4) =>
          if (bitOf n 0 && d.image.owner 0x058 != p) || (bitOf n 1 && d.image.owner 0x059 != p) then d.deny p
          else d.regWrite false 0 0 a v
        | _ => d
      | 6 => if o < 0x20 then d.regWrite false 0 0 a v else d
      | 9 => if o % 0x1000 = 0 then d.regWrite false 0 0 a v else d
      | _ => d

/-- A write that a task staged, at its commit. -/
def Dev.taskWrite (d : Dev) (p : Nat) (a : Nat) (v : Word) : Dev := if p = 0 then d.hobWrite a v else d.potWrite p a v

/-- REGISTER_WRITE: a write of register `a` by a privileged host takes effect at step 1 (R546). -/
def Dev.registerWrite (a : Nat) (v : Word) (d : Dev) : Dev :=
  if a % 4 = 0 && decide (a < 0x100000) then d.regWrite true d.sys.recorded 0 a v else d

end Sys2Proof.Machine
end

