-- ==== Sys2Proof/Machine/RhCode.lean ====
section
/-! DEFINITION. The Rhamet code of an image: decoding (R199, R200), the checks of one function (R169 to R178, R207, R208,
R578), worst-case work and stores (R104, R182), the call graph and what each task names (R99, R128, R136, R201). -/

namespace Sys2Proof.Machine

/-- A failed acceptance check (Table 6.11): detail code, index, and image offset, 0xFFFF_FFFF for none. -/
structure VFail where
  detail : Nat
  index : Nat
  offset : Nat
  deriving DecidableEq, Repr

/-- Kinds of immediate (Table 7.2). -/
inductive ImmKind where
  | none | i8 | i16 | w32 | chel | chelU | ch | hw | lg | loop | ofs | fn | reg | ty | cond | selTime | selSelf | slot | spar
  | rg | lr | hg | base | key | lidx | pk
  deriving DecidableEq, Repr

/-- Types in a stack effect (Table 7.1): `t` and `a` to `c` stand for one type each wherever they appear, `m` for the TYPE of
the immediate. -/
inductive TyPat where
  | i | u | q | f | n | x | t | a | b | c | m
  deriving DecidableEq, Repr

/-- One row of Tables 7.3 to 7.13: immediate, operands and results with the deepest first, cost and store count (R104). -/
structure OpInfo where
  imm : ImmKind
  pops : List TyPat
  pushes : List TyPat
  cost : Nat
  stores : Nat
  deriving DecidableEq, Repr

/-- A row without stores. -/
def opRow (imm : ImmKind) (pops pushes : List TyPat) (cost : Nat) : Option OpInfo :=
  some { imm, pops, pushes, cost, stores := 0 }

/-- A row that counts as store instructions. -/
def opStore (imm : ImmKind) (pops pushes : List TyPat) (cost stores : Nat) : Option OpInfo :=
  some { imm, pops, pushes, cost, stores }

/-- The rows of Tables 7.3 to 7.5 by opcode byte. LD.L, ST.L, TEE.L and PICK have their stack effect in the verifier. -/
def opArith (op : Nat) : Option OpInfo :=
  match op with
  | 0x00 => opRow .none [] [] 1
  | 0x01 => opRow .i8 [] [.i] 1
  | 0x02 => opRow .i16 [] [.i] 1
  | 0x03 => opRow .w32 [] [.i] 1
  | 0x04 => opRow .w32 [] [.u] 1
  | 0x05 => opRow .w32 [] [.q] 1
  | 0x06 => opRow .w32 [] [.f] 1
  | 0x08 => opRow .none [.x] [] 1
  | 0x09 => opRow .none [.t] [.t, .t] 1
  | 0x0A => opRow .none [.a, .b] [.b, .a] 1
  | 0x0B => opRow .none [.a, .b] [.a, .b, .a] 1
  | 0x0C => opRow .none [.a, .b, .c] [.b, .c, .a] 2
  | 0x0D => opRow .pk [] [] 2
  | 0x10 => opRow .lidx [] [] 1
  | 0x11 => opRow .lidx [] [] 1
  | 0x12 => opRow .lidx [] [] 1
  | 0x20 => opRow .none [.i, .i] [.i] 1
  | 0x21 => opRow .none [.i, .i] [.i] 1
  | 0x22 => opRow .none [.i, .i] [.i] 3
  | 0x23 => opRow .none [.i, .i] [.i] 8
  | 0x24 => opRow .none [.i, .i] [.i] 8
  | 0x25 => opRow .none [.i] [.i] 1
  | 0x26 => opRow .none [.i] [.i] 1
  | 0x27 => opRow .none [.i, .i] [.i] 2
  | 0x28 => opRow .none [.i, .i] [.i] 2
  | 0x29 => opRow .none [.i, .i] [.i] 4
  | 0x2A => opRow .none [.i] [.i] 1
  | 0x2B => opRow .none [.i] [.i] 1
  | 0x2C => opRow .none [.i, .i] [.i] 1
  | 0x2D => opRow .none [.i, .i] [.i] 1
  | 0x30 => opRow .none [.u, .u] [.u] 1
  | 0x31 => opRow .none [.u, .u] [.u] 1
  | 0x32 => opRow .none [.u, .u] [.u] 3
  | 0x33 => opRow .none [.u, .u] [.u] 8
  | 0x34 => opRow .none [.u, .u] [.u] 8
  | 0x35 => opRow .none [.u, .u] [.u] 2
  | 0x36 => opRow .none [.u, .u] [.u] 2
  | 0x37 => opRow .none [.u, .u] [.u] 4
  | 0x38 => opRow .none [.u, .u] [.u] 1
  | 0x39 => opRow .none [.u, .u] [.u] 1
  | 0x40 => opRow .none [.q, .q] [.q] 1
  | 0x41 => opRow .none [.q, .q] [.q] 1
  | 0x42 => opRow .none [.q, .q] [.q] 4
  | 0x43 => opRow .none [.q, .q] [.q] 10
  | 0x44 => opRow .none [.q] [.q] 1
  | 0x45 => opRow .none [.q] [.q] 1
  | 0x46 => opRow .none [.q, .q] [.q] 1
  | 0x47 => opRow .none [.q, .q] [.q] 1
  | 0x48 => opRow .none [.f, .f] [.f] 3
  | 0x49 => opRow .none [.f, .f] [.f] 3
  | 0x4A => opRow .none [.f, .f] [.f] 3
  | 0x4B => opRow .none [.f, .f] [.f] 10
  | 0x4C => opRow .none [.f] [.f] 1
  | 0x4D => opRow .none [.f] [.f] 1
  | 0x4E => opRow .none [.f, .f] [.f] 2
  | 0x4F => opRow .none [.f, .f] [.f] 2
  | 0x50 => opRow .none [.f] [.f] 12
  | 0x51 => opRow .none [.f] [.f] 2
  | 0x52 => opRow .none [.f] [.f] 2
  | 0x53 => opRow .none [.f] [.f] 2
  | 0x54 => opRow .none [.f] [.f] 2
  | _ => none

/-- The rows of Tables 7.6 to 7.9. CALL and RET have their stack effect in the verifier. -/
def opLogic (op : Nat) : Option OpInfo :=
  match op with
  | 0x58 => opRow .cond [.i, .i] [.u] 1
  | 0x59 => opRow .cond [.u, .u] [.u] 1
  | 0x5A => opRow .cond [.q, .q] [.u] 1
  | 0x5B => opRow .cond [.f, .f] [.u] 2
  | 0x60 => opRow .none [.u, .u] [.u] 1
  | 0x61 => opRow .none [.u, .u] [.u] 1
  | 0x62 => opRow .none [.u, .u] [.u] 1
  | 0x63 => opRow .none [.u] [.u] 1
  | 0x64 => opRow .none [.i, .n] [.i] 1
  | 0x65 => opRow .none [.u, .n] [.u] 1
  | 0x66 => opRow .none [.i, .n] [.i] 1
  | 0x67 => opRow .none [.u, .n] [.u] 1
  | 0x68 => opRow .none [.u, .n] [.u] 1
  | 0x69 => opRow .none [.u, .n] [.u] 1
  | 0x6A => opRow .none [.u] [.u] 3
  | 0x6B => opRow .none [.u] [.u] 3
  | 0x6C => opRow .none [.n] [.u] 1
  | 0x70 => opRow .none [.i] [.u] 1
  | 0x71 => opRow .none [.u] [.i] 1
  | 0x72 => opRow .none [.i] [.f] 2
  | 0x73 => opRow .none [.u] [.f] 2
  | 0x74 => opRow .none [.q] [.f] 2
  | 0x75 => opRow .none [.f] [.i] 3
  | 0x76 => opRow .none [.f] [.u] 3
  | 0x77 => opRow .none [.f] [.q] 3
  | 0x78 => opRow .none [.i] [.q] 1
  | 0x79 => opRow .none [.u] [.q] 1
  | 0x7A => opRow .none [.q] [.i] 1
  | 0x7B => opRow .none [.f] [.u] 1
  | 0x7C => opRow .none [.u] [.f] 1
  | 0x7D => opRow .none [.q] [.i] 1
  | 0x7E => opRow .none [.i] [.q] 1
  | 0x80 => opRow .ofs [] [] 1
  | 0x81 => opRow .ofs [.n] [] 1
  | 0x82 => opRow .ofs [.n] [] 1
  | 0x83 => opRow .loop [.n] [] 2
  | 0x84 => opRow .fn [] [] 4
  | 0x85 => opRow .none [] [] 2
  | 0x86 => opRow .none [.t, .t, .n] [.t] 1
  | 0x90 => opRow .none [.u] [.u] 4
  | 0x91 => opRow .none [.u] [.i] 4
  | 0x92 => opRow .none [.u] [.u] 4
  | 0x93 => opRow .none [.u] [.i] 4
  | 0x94 => opRow .ty [.u] [.m] 4
  | 0x95 => opStore .none [.u, .n] [] 3 1
  | 0x96 => opStore .none [.u, .n] [] 3 1
  | 0x97 => opStore .none [.u, .x] [] 3 1
  | 0x98 => opRow .none [.u] [.u] 3
  | 0x99 => opRow .none [.u] [.u] 3
  | 0x9A => opRow .ty [.u] [.m] 3
  | _ => none

/-- The rows of Tables 7.11 and 7.13. -/
def opSystem (op : Nat) : Option OpInfo :=
  match op with
  | 0xA0 => opRow .chel [] [.m] 2
  | 0xA1 => opRow .chelU [] [.u] 2
  | 0xA2 => opRow .chel [.m] [] 2
  | 0xA3 => opRow .chel [] [.m] 2
  | 0xA4 => opRow .chel [] [.m] 2
  | 0xA5 => opRow .chelU [] [.u] 3
  | 0xA6 => opRow .chelU [] [.u] 3
  | 0xA8 => opRow .ch [] [.u] 2
  | 0xA9 => opRow .ch [] [.u] 2
  | 0xAA => opStore .ch [.u] [] 12 32
  | 0xB0 => opStore .base [.u, .u] [] 6 4
  | 0xB1 => opRow .none [.u] [.u] 5
  | 0xB2 => opRow .none [.u] [.u] 6
  | 0xB4 => opRow .selTime [] [.m] 1
  | 0xB8 => opRow .hw [] [.m] 2
  | 0xB9 => opRow .hw [.m] [] 2
  | 0xBA => opRow .hg [] [.u] 1
  | 0xC0 => opRow .lg [] [.m] 6
  | 0xC1 => opRow .lg [.m] [] 6
  | 0xC2 => opRow .lr [] [.u] 2
  | 0xC8 => opRow .slot [] [] 2
  | 0xC9 => opRow .slot [] [] 2
  | 0xCA => opRow .spar [.u] [] 2
  | 0xCB => opRow .slot [] [.u] 2
  | 0xD0 => opRow .rg [.u] [] 4
  | 0xD1 => opRow .rg [] [] 2
  | 0xD2 => opRow .key [] [] 4
  | 0xD3 => opRow .rg [] [.u] 2
  | 0xE0 => opRow .reg [] [.u] 2
  | 0xE1 => opRow .reg [.u] [] 2
  | 0xE2 => opRow .selSelf [] [.u] 1
  | _ => none

/-- The row of an opcode byte; none for a reserved one (R199). -/
def opInfo (op : Nat) : Option OpInfo :=
  if op < 0x58 then opArith op else if op < 0xA0 then opLogic op else opSystem op

/-- The bytes of an immediate. -/
def ImmKind.size : ImmKind → Nat
  | .none => 0
  | .i8 | .ty | .cond | .selTime | .selSelf | .slot | .rg | .lr | .hg | .base | .lidx | .pk => 1
  | .i16 | .ch | .hw | .ofs | .fn | .spar | .key => 2
  | .w32 | .chel | .chelU | .lg | .loop | .reg => 4

/-- Whether an immediate holds no reserved bit or value (R200). -/
def ImmKind.ok (k : ImmKind) (v : Nat) : Bool :=
  match k with
  | .chel => decide (v < 2 ^ 18)
  | .chelU => decide (v < 2 ^ 18) && decide (v / 2 ^ 16 = 1)
  | .ch => decide (v < 1024) && isCapture v
  | .hw => decide (v < 4096)
  | .lg => decide (v < 2 ^ 24)
  | .loop => decide (v % 65536 ≠ 0)
  | .reg => decide (v < 2 ^ 24) && decide (v % 4 = 0)
  | .ty => decide (v < 4)
  | .cond => decide (v < 6)
  | .selTime => decide (v < 12)
  | .selSelf => decide (v < 3)
  | .slot | .rg => decide (v < 16)
  | .spar => decide (v < 256)
  | .lr | .hg => decide (v < 64)
  | .base => decide (v < 2)
  | _ => true

/-- The type of a code of Table 6.1. -/
def rhTypeOf (n : Nat) : RhType :=
  match n % 4 with
  | 0 => .i32
  | 1 => .u32
  | 2 => .q16
  | _ => .f32

/-- The TYPE field of an immediate; of TIME the type of its selector (Table 7.10). -/
def ImmKind.type (k : ImmKind) (v : Nat) : RhType :=
  match k with
  | .chel | .chelU => rhTypeOf (v / 2 ^ 16)
  | .hw => rhTypeOf (v / 2 ^ 10)
  | .lg => rhTypeOf (v / 2 ^ 7)
  | .selTime => if v = 10 then .i32 else .u32
  | _ => rhTypeOf v

/-- One decoded instruction: its offset in the body, opcode, row, immediate and the offset of the next one. -/
structure RhIns where
  pc : Nat
  op : Nat
  info : OpInfo
  imm : Nat
  next : Nat
  deriving DecidableEq, Repr

/-- The instructions of a body, with the offset of the first one refused with detail DECODE: an opcode, or the first byte of an
immediate (DEDUCED, log 35). -/
def decodeBody : Nat → Nat → List Byte → List RhIns × Option Nat
  | 0, _, _ => ([], none)
  | _, _, [] => ([], none)
  | fuel + 1, pc, b :: rest =>
    match opInfo b.toNat with
    | none => ([], some pc)
    | some info =>
      let n := info.imm.size
      if rest.length < n then ([], some pc)
      else
        let v := leNat (rest.take n)
        if !info.imm.ok v then ([], some (pc + 1))
        else
          let r := decodeBody fuel (pc + 1 + n) (rest.drop n)
          ({ pc, op := b.toNat, info, imm := v, next := pc + 1 + n } :: r.1, r.2)

/-- One function of the CODE table as the verifier sees it: its entry, its place in the section, and its decoded body. -/
structure VFn where
  index : Nat
  pot : Nat
  args : List RhType
  results : List RhType
  nlocals : Nat
  offset : Nat
  size : Nat
  ins : List RhIns
  bad : Option Nat
  deriving DecidableEq, Repr

/-! ## Branches and loops (R174 to R177, R207) -/

/-- The loops of a function as (head, LOOP, MAX), by rising LOOP. -/
def VFn.loops (f : VFn) : List (Nat × Nat × Nat) :=
  f.ins.filterMap fun x =>
    if x.op = 0x83 && decide (x.imm / 65536 ≤ x.pc) then some (x.pc - x.imm / 65536, x.pc, x.imm % 65536) else none

/-- Whether an offset starts an instruction. -/
def VFn.starts (f : VFn) (pc : Nat) : Bool := f.ins.any (fun x => x.pc == pc)

/-- The forward successors of an instruction within its function. -/
def RhIns.succ (x : RhIns) : List Nat :=
  if x.op = 0x80 then [x.next + x.imm]
  else if x.op = 0x81 || x.op = 0x82 then [x.next + x.imm, x.next]
  else if x.op = 0x85 then []
  else [x.next]

/-- Whether a transfer from one instruction to another enters a loop body elsewhere than at its head (R176). -/
def VFn.entersLoop (f : VFn) (src dst : Nat) : Bool :=
  f.loops.any fun l => decide (l.1 < dst) && decide (dst ≤ l.2.1) && !(decide (l.1 ≤ src) && decide (src ≤ l.2.1))

/-- Whether a target is judged: past an undecodable instruction no start is known (DEDUCED, log 35). -/
def VFn.judges (f : VFn) (t : Nat) : Bool :=
  match f.bad with
  | some o => decide (t < o)
  | none => true

/-- The offset at which a branch or a loop breaks its rules, for one instruction. -/
def VFn.branchBad (f : VFn) (x : RhIns) : Option Nat :=
  if x.op = 0x80 || x.op = 0x81 || x.op = 0x82 then
    let t := x.next + x.imm
    if (f.judges t && !f.starts t) || f.entersLoop x.pc t then some (x.pc + 1) else none
  else if x.op = 0x83 then
    let back := x.imm / 65536
    if x.pc < back || !f.starts (x.pc - back) then some (x.pc + 1)
    else
      let h := x.pc - back
      let crossed := f.loops.any fun l => decide (l.1 < h) && decide (h ≤ l.2.1) && decide (l.2.1 < x.pc)
      let depth := (f.loops.filter (fun l => decide (l.1 ≤ h) && decide (x.pc ≤ l.2.1))).length
      if crossed || 8 < depth || f.entersLoop x.pc h then some x.pc else none
  else none

/-! ## Types (R169 to R171, R208) -/

/-- What the verifier holds at a point of the code: the types of the stack, top first, and of the locals. -/
structure TyState where
  stack : List RhType
  locals : List RhType
  deriving DecidableEq, Repr

/-- The result of one instruction on the types: STACK 0x0A or TYPE 0x0B, or the types after it. -/
abbrev TyRes := Except Nat TyState

/-- A pattern matched against a type, with what `t`, `a`, `b` and `c` stand for so far. -/
def matchTy (m : RhType) (b : List (TyPat × RhType)) (p : TyPat) (t : RhType) : Option (List (TyPat × RhType)) :=
  match p with
  | .i => if t = .i32 then some b else none
  | .u => if t = .u32 then some b else none
  | .q => if t = .q16 then some b else none
  | .f => if t = .f32 then some b else none
  | .n => if t = .i32 || t = .u32 then some b else none
  | .x => some b
  | .m => if t = m then some b else none
  | v =>
    match mapFind b v with
    | some u => if u = t then some b else none
    | none => some ((v, t) :: b)

/-- Patterns, the top operand first, matched against a stack. -/
def matchStack (m : RhType) : List TyPat → List RhType → List (TyPat × RhType) → Except Nat (List RhType × List (TyPat × RhType))
  | [], s, b => .ok (s, b)
  | _ :: _, [], _ => .error 0x0A
  | p :: ps, t :: s, b =>
    match matchTy m b p t with
    | some b1 => matchStack m ps s b1
    | none => if ps.length ≤ s.length then .error 0x0B else .error 0x0A

/-- The type that a pattern of a result stands for. -/
def resultTy (m : RhType) (b : List (TyPat × RhType)) (p : TyPat) : RhType :=
  match p with
  | .i => .i32
  | .u => .u32
  | .q => .q16
  | .f => .f32
  | .m => m
  | v => (mapFind b v).getD .i32

/-- A stack held to its 32 cells (R170). -/
def held (s : TyState) : TyRes := if 32 < s.stack.length then .error 0x0A else .ok s

/-- Arguments taken from the stack: as many cells as the callee has, each of its type. -/
def takeArgs (args stack : List RhType) : Except Nat (List RhType) :=
  if stack.length < args.length then .error 0x0A
  else if (stack.take args.length).reverse = args then .ok (stack.drop args.length)
  else .error 0x0B

/-- One instruction on the types. `fns` gives the functions that CALL names. -/
def tyStep (fns : List VFn) (f : VFn) (x : RhIns) (s : TyState) : TyRes :=
  if x.op = 0x0D then
    match s.stack[x.imm]? with
    | some t => held { s with stack := t :: s.stack }
    | none => .error 0x0A
  else if x.op = 0x10 then held { s with stack := s.locals.getD x.imm .i32 :: s.stack }
  else if x.op = 0x11 || x.op = 0x12 then
    match s.stack with
    | [] => .error 0x0A
    | t :: r => .ok { stack := if x.op = 0x12 then s.stack else r, locals := lupd s.locals x.imm (fun _ => t) }
  else if x.op = 0x84 then
    match fns[x.imm]? with
    | none => .ok s
    | some g =>
      match takeArgs g.args s.stack with
      | .ok r => held { s with stack := g.results.reverse ++ r }
      | .error e => .error e
  else if x.op = 0x85 then
    if s.stack.length ≠ f.results.length then .error 0x0A
    else if s.stack.reverse = f.results then .ok s
    else .error 0x0B
  else
    let m := x.info.imm.type x.imm
    match matchStack m x.info.pops.reverse s.stack [] with
    | .error e => .error e
    | .ok (r, b) => held { s with stack := (x.info.pushes.map (resultTy m b)).reverse ++ r }

/-- The walk over a body: the types held at each offset met so far, the path that falls through, the instructions reached,
and the failures as (offset, detail). -/
structure TyWalk where
  at' : List (Nat × TyState)
  fall : Option TyState
  reached : List Nat
  fails : List (Nat × Nat)
  deriving DecidableEq, Repr

/-- Two paths that meet: unequal depths are STACK, unequal types TYPE, at the instruction where they meet (log 35). -/
def meet (pc : Nat) (a b : TyState) : List (Nat × Nat) :=
  if a = b then [] else if a.stack.length ≠ b.stack.length then [(pc, 0x0A)] else [(pc, 0x0B)]

/-- The types carried to an offset ahead. -/
def TyWalk.carry (w : TyWalk) (pc : Nat) (s : TyState) : TyWalk :=
  match mapFind w.at' pc with
  | some t => { w with fails := w.fails ++ meet pc t s }
  | none => { w with at' := (pc, s) :: w.at' }

/-- One instruction of the walk. An instruction that no path reaches is not judged for depth or types (R578). -/
def tyIns (fns : List VFn) (f : VFn) (w : TyWalk) (x : RhIns) : TyWalk :=
  let w1 := match w.fall with
    | some s => { w.carry x.pc s with fall := none }
    | none => w
  match mapFind w1.at' x.pc with
  | none => w1
  | some s =>
    let w2 := { w1 with reached := x.pc :: w1.reached }
    match tyStep fns f x s with
    | .error e => { w2 with fails := w2.fails ++ [(x.pc, e)] }
    | .ok r =>
      if x.op = 0x85 then w2
      else if x.op = 0x80 then w2.carry (x.next + x.imm) r
      else if x.op = 0x81 || x.op = 0x82 then { w2.carry (x.next + x.imm) r with fall := some r }
      else if x.op = 0x83 then { w2.carry (x.pc - x.imm / 65536) r with fall := some r }
      else { w2 with fall := some r }

/-- The walk over a whole body: arguments in the first locals, i32 in the others (R170). -/
def VFn.walk (f : VFn) (fns : List VFn) : TyWalk :=
  let start : TyState :=
    { stack := [], locals := f.args ++ List.replicate (f.nlocals - f.args.length) .i32 }
  f.ins.foldl (tyIns fns f) { at' := [], fall := some start, reached := [], fails := [] }

/-- Failures of the checks on one function, at image offsets; `base` is the offset of CODE. What stands before an undecodable
instruction is judged beside it (R577). -/
def VFn.fails (f : VFn) (fns : List VFn) (base : Nat) : List VFail :=
  let mk := fun (o d : Nat) => ({ detail := d, index := f.index, offset := base + f.offset + o } : VFail)
  let w := f.walk fns
  let branches := f.ins.filterMap (fun x => (f.branchBad x).map (fun o => mk o 0x09))
  let ends := match f.bad, f.ins.getLast? with
    | some o, _ => [mk o 0x08]
    | none, some x => if x.op ≠ 0x85 && x.op ≠ 0x80 && w.reached.contains x.pc then [mk x.pc 0x09] else []
    | none, none => []
  let locals := f.ins.filterMap (fun x =>
    if x.info.imm = .lidx && decide (f.nlocals ≤ x.imm) then some (mk (x.pc + 1) 0x0C) else none)
  let calls := f.ins.filterMap (fun x =>
    if x.op = 0x84 then
      match fns[x.imm]? with
      | none => some (mk (x.pc + 1) 0x0D)
      | some g => if g.pot = f.pot then none else some (mk (x.pc + 1) 0x0D)
    else none)
  branches ++ ends ++ locals ++ calls ++ w.fails.map (fun p => mk p.1 p.2)

/-! ## The call graph -/

/-- The functions that a function calls. -/
def VFn.callees (f : VFn) : List Nat := (f.ins.filter (fun x => x.op == 0x84)).map (·.imm)

/-- The functions reached from a work list through CALL, itself included. -/
def reachFns (fns : List VFn) : Nat → List Nat → List Nat → List Nat
  | 0, _, seen => seen
  | _, [], seen => seen
  | k + 1, g :: todo, seen =>
    if seen.contains g then reachFns fns k todo seen
    else
      match fns[g]? with
      | some f => reachFns fns k (f.callees ++ todo) (g :: seen)
      | none => reachFns fns k todo seen

/-- Steps enough for any walk of the call graph. -/
def callFuel (fns : List VFn) : Nat := fns.foldl (fun n f => n + 1 + f.callees.length) 1

/-- The functions that a set of functions reaches. -/
def reachOf (fns : List VFn) (l : List Nat) : List Nat := reachFns fns (callFuel fns + l.length) l []

/-- The greatest depth at which each function can stand when every function may start at depth 1, also one that no task's entry
reaches (DESIGN CHOICE, log 165), up to 17. -/
def callDepths (fns : List VFn) : Nat → List Nat
  | 0 => fns.map (fun _ => 1)
  | k + 1 =>
    let old := callDepths fns k
    fns.map fun g =>
      (fns.zip old).foldl (fun m p => if p.1.callees.contains g.index then max m (min 17 (p.2 + 1)) else m) 1

/-- CALLs that recur, and CALLs that would make a seventeenth frame (DEDUCED, log 35). -/
def callFails (fns : List VFn) (base : Nat) : List VFail :=
  let depths := callDepths fns 16
  fns.flatMap fun f =>
    f.ins.filterMap fun x =>
      if x.op = 0x84 && (decide (16 ≤ depths.getD f.index 1) || (reachOf fns [x.imm]).contains f.index) then
        some { detail := 0x0D, index := f.index, offset := base + f.offset + x.pc + 1 }
      else none

/-! ## Worst-case work (R104, R182) -/

/-- A node of the forward graph of a function. -/
structure WNode where
  pc : Nat
  w : Nat
  succ : List Nat
  ret : Bool
  deriving DecidableEq, Repr

/-- The greatest sum of weights on a path from the first node to each node, ascending; nodes out of reach are absent. -/
def longest (nodes : List WNode) (start : Nat) : List (Nat × Nat) :=
  let first := match nodes.find? (fun n => n.pc == start) with
    | some n => [(start, n.w)]
    | none => []
  nodes.foldl (fun dist n =>
    match mapFind dist n.pc with
    | none => dist
    | some x =>
      n.succ.foldl (fun dist s =>
        match nodes.find? (fun m => m.pc == s) with
        | none => dist
        | some m => mapPut dist s (max (x + m.w) ((mapFind dist s).getD 0))) dist) first

/-- A loop body replaced by one node of weight MAX × b. -/
def collapse (nodes : List WNode) (l : Nat × Nat × Nat) : List WNode :=
  let inside := fun (pc : Nat) => decide (l.1 ≤ pc) && decide (pc ≤ l.2.1)
  let body := nodes.filter (fun n => inside n.pc)
  let dist := longest body l.1
  let leaves := fun (n : WNode) => n.ret || n.succ.any (fun s => !inside s)
  let live := body.filter (fun n => (mapFind dist n.pc).isSome)
  let b := live.foldl (fun m n => if leaves n then max m ((mapFind dist n.pc).getD 0) else m) 0
  let node : WNode :=
    { pc := l.1, w := l.2.2 * b, succ := (live.flatMap (·.succ)).filter (fun s => !inside s), ret := live.any (·.ret) }
  let before := nodes.filter (fun n => decide (n.pc < l.1))
  let after := nodes.filter (fun n => decide (l.2.1 < n.pc))
  if live.isEmpty then before ++ after else before ++ [node] ++ after

/-- A loop put in its place by rising body length, so that inner loops come first. -/
def insertLoop (l : Nat × Nat × Nat) : List (Nat × Nat × Nat) → List (Nat × Nat × Nat)
  | [] => [l]
  | m :: r => if l.2.1 - l.1 ≤ m.2.1 - m.1 then l :: m :: r else m :: insertLoop l r

/-- The worst case of one function for a weight of each instruction, over the instructions that a path reaches. -/
def VFn.worst (f : VFn) (reached : List Nat) (weight : RhIns → Nat) : Nat :=
  let nodes := (f.ins.filter (fun x => reached.contains x.pc)).map fun x =>
    ({ pc := x.pc, w := weight x, succ := x.succ, ret := x.op == 0x85 } : WNode)
  let loops := f.loops.foldl (fun r l => insertLoop l r) []
  let flat := loops.foldl collapse nodes
  let dist := longest flat 0
  flat.foldl (fun m n => if n.ret then max m ((mapFind dist n.pc).getD 0) else m) 0

/-- Worst cases of all functions, callees first: a call graph of depth 16 is settled after 16 rounds. -/
def worstAll (fns : List VFn) (reached : List (List Nat)) (weight : RhIns → Nat) : Nat → List Nat
  | 0 => fns.map (fun _ => 0)
  | k + 1 =>
    let old := worstAll fns reached weight k
    (fns.zip reached).map fun p =>
      p.1.worst p.2 (fun x => weight x + (if x.op = 0x84 then old.getD x.imm 0 else 0))

/-! ## What a task names (R99, R128, R136, R201) -/

/-- What an instruction that names an element names. -/
def RhIns.element (x : RhIns) : Option (Nat × Nat) :=
  if x.info.imm = .chel || x.info.imm = .chelU then some (x.imm % 1024, x.imm / 1024 % 64) else none

/-- Whether an instruction writes the element that it names: OUT and OUTGET. -/
def RhIns.isOut (x : RhIns) : Bool := x.op == 0xA2 || x.op == 0xA3

/-- An item added to a list that has it at most once. -/
def addOnce {α : Type} [DecidableEq α] (l : List α) (a : α) : List α := if l.contains a then l else l ++ [a]

/-- What one instruction adds to the names of its task. -/
def TaskNames.add (n : TaskNames) (x : RhIns) : TaskNames :=
  match x.element with
  | some e => if x.isOut then { n with outputs := addOnce n.outputs e } else { n with inputs := addOnce n.inputs e }
  | none =>
    if x.info.imm = .ch then { n with streams := addOnce n.streams x.imm }
    else if x.op = 0xB8 || x.op = 0xBA then { n with hatches := addOnce n.hatches (x.imm % 64) }
    else if x.op = 0xE0 then { n with regs := addOnce n.regs x.imm }
    else if x.op = 0xCB then { n with slots := addOnce n.slots x.imm }
    else n

/-- The functions that a task's entries reach. -/
def taskFns (fns : List VFn) (r : Route) : List Nat := reachOf fns [r.cold, r.warm, r.cyclic]

/-- The names of a task. -/
def taskNamesOf (fns : List VFn) (r : Route) : TaskNames :=
  (taskFns fns r).foldl (fun n g =>
    match fns[g]? with
    | some f => f.ins.foldl TaskNames.add n
    | none => n) { inputs := [], outputs := [], streams := [], hatches := [], regs := [], slots := [] }

/-- Whether an image's pot may name what an instruction names (R99, R112, R496, R544). -/
def Image.refOk (m : Image) (addr p : Nat) (x : RhIns) : Bool :=
  match x.element with
  | some (ch, el) =>
    m.owner ch == p && m.elem addr ch el == some x.isOut &&
      !(x.isOut && 0x051 ≤ ch && ch ≤ 0x057 && ch % 2 == 1 && m.paired (ch - 0x051))
  | none =>
    match x.info.imm with
    | .ch => m.owner x.imm == p
    | .hw | .hg =>
      match m.hatch (x.imm % 64) with
      | none => false
      | some h =>
        let writer := match m.route h.writer with
          | some r => r.pot
          | none => 0xFF
        (x.info.imm != .hw || decide (4 * (x.imm / 64 % 16) < h.length)) &&
          (x.op == 0xB9 || p == 0 || writer == p || h.readers.testBit p)
    | .lg =>
      match m.region (x.imm % 64) with
      | some r => r.owner == p && decide (x.imm / 512 % 32768 < r.groups)
      | none => false
    | .lr =>
      match m.region x.imm with
      | some r => r.owner == p
      | none => false
    | .slot | .spar => m.slotOwn.getD (x.imm % 16) 0xFF == p
    | .rg =>
      match m.faceRegion x.imm with
      | some r => r.owner == p
      | none => false
    | .key =>
      match payloadOf m.stencils x.imm with
      | some s => s.pot == p
      | none => false
    | .reg => decide (x.imm < 0x100000)
    | _ => true

/-- References that a function's pot may not make, and H.WR reached from a task that is not the hatch's WRITER (R215). -/
def refFails (m : Image) (addr base : Nat) (fns : List VFn) : List VFail :=
  let used := (upTo 64).filterMap (fun t => (m.route t).map (fun r => (t, taskFns fns r)))
  fns.flatMap fun f =>
    f.ins.filterMap fun x =>
      let writer := match m.hatch (x.imm % 64) with
        | some h => h.writer
        | none => 64
      let stray := x.op == 0xB9 && used.any (fun u => u.1 != writer && u.2.contains f.index)
      if !m.refOk addr f.pot x || stray then
        some { detail := 0x0F, index := f.index, offset := base + f.offset + x.pc + 1 }
      else none

/-- Elements that a second task names for writing: at the first such instruction of the higher-numbered task (log 35). -/
def writerFails (m : Image) (base : Nat) (fns : List VFn) (names : List TaskNames) : List VFail :=
  (upTo 64).flatMap fun t =>
    match m.route t with
    | none => []
    | some r =>
      let taken := (names.take t).flatMap (·.outputs)
      (taskFns fns r).flatMap fun g =>
        match fns[g]? with
        | none => []
        | some f =>
          f.ins.filterMap fun x =>
            match x.element with
            | some e =>
              if x.isOut && taken.contains e then
                some { detail := 0x10, index := t, offset := base + f.offset + x.pc }
              else none
            | none => none

/-- The limits of R128: per task at its ROUTE entry, and the totals of the image. -/
def elementFails (route : Nat) (names : List TaskNames) : List VFail × Bool :=
  let per := names.zipIdx.filterMap fun p =>
    if 256 < p.1.inputs.length || 256 < p.1.outputs.length then
      some ({ detail := 0x11, index := p.2, offset := route + 32 * p.2 } : VFail)
    else none
  let total := fun (f : TaskNames → Nat) => names.foldl (fun n x => n + f x) 0
  (per, decide (4096 < total (·.inputs.length)) || decide (4096 < total (·.outputs.length)))

end Sys2Proof.Machine
end

