-- ==== Sys2Proof/Machine/Layout.lean ====
section
/-! DEFINITION. The layout of an image and its parse (R185 to R195), and steps 2 to 8 of acceptance (Table 6.10): header and
layout, section CRCs, signature, straps, POTS, ROUTE and OWN, and ownership clashes. -/

namespace Sys2Proof.Machine

/-- `n` bytes of a memory that reads 0 where nothing is listed, from an address upward; the cells lie at or above it. -/
def denseGo : Nat → Nat → Mem → List Byte
  | 0, _, _ => []
  | n + 1, a, [] => 0 :: denseGo n (a + 1) []
  | n + 1, a, (b, v) :: m => if b = a then v :: denseGo n (a + 1) m else 0 :: denseGo n (a + 1) ((b, v) :: m)

/-- The first `n` bytes of a bank. -/
def Bank.dense (x : Bank) (n : Nat) : List Byte := denseGo n 0 x.bytes

/-- One section of an image (Table 6.6): its type, its place, its CRC field and its bytes. -/
structure Sect where
  type : Nat
  off : Nat
  len : Nat
  crc : Nat
  data : List Byte
  deriving DecidableEq, Repr

/-- The sections that the directory gives, in its order. -/
def sectionsOf (img : List Byte) : List Sect :=
  (upTo 12).map fun i =>
    let e := 0x30 + 16 * i
    let o := leAt img (e + 4) 4
    let n := leAt img (e + 8) 4
    { type := leAt img e 2, off := o, len := n, crc := leAt img (e + 12) 4, data := (img.drop o).take n }

/-- The section of a type from 1 to 12. -/
def sectOf (ss : List Sect) (type : Nat) : Sect :=
  ss.getD (type - 1) { type := type, off := 0, len := 0, crc := 0, data := [] }

/-- One failed check as a list. -/
def failIf (b : Bool) (detail index offset : Nat) : List VFail :=
  if b then [{ detail := detail, index := index, offset := offset }] else []

/-- The failure that R577 reports: lowest offset, then lower index. -/
def lowestFail (l : List VFail) : Option VFail :=
  l.foldl (fun m f =>
    match m with
    | none => some f
    | some g => if f.offset < g.offset || (f.offset == g.offset && f.index < g.index) then some f else m) none

/-- Reserved bytes of a section that are not 0, each at its own offset (Table 6.11; log 36). -/
def reservedAt (type base : Nat) (l : List Byte) (o n : Nat) : List VFail :=
  ((l.drop o).take n).zipIdx.filterMap fun b =>
    if b.1 != 0 then some { detail := 0x03, index := type, offset := base + o + b.2 } else none

/-! ## Step 3 -/

/-- Lengths that R185 fixes for a section, and the least length of the others. -/
def lengthOk (type n : Nat) : Bool :=
  if type = 1 then n == 256
  else if type = 2 then n == 2048
  else if type = 3 then n == 2304
  else if type = 4 || type = 5 then 16 ≤ n
  else if type = 6 then n == 0 || 128 ≤ n
  else if type = 7 then n == 0 || n == 128
  else if type = 11 then n == 16
  else if type = 12 then n == 96
  else n == 0 || 16 ≤ n

/-- The first multiple of 16 at or above an offset. -/
def up16 (n : Nat) : Nat := (n + 15) / 16 * 16

/-- Checks of the directory, section by section; `prev` is the end of the section before. -/
def directoryFails : List (Sect × Nat) → Nat → List VFail
  | [], _ => []
  | (s, i) :: r, prev =>
    let e := 0x30 + 16 * i
    let placed := if s.len = 0 then s.off == up16 prev else s.off % 16 == 0 && prev ≤ s.off
    failIf (s.type != i + 1) 0x02 (i + 1) e ++ failIf (!placed) 0x02 (i + 1) (e + 4) ++
      failIf (!lengthOk (i + 1) s.len) 0x02 (i + 1) (e + 8) ++ directoryFails r (s.off + s.len)

/-- Reserved and formatted fields of the HEADER (Table 6.5). -/
def headerFails (img : List Byte) : List VFail :=
  failIf (leAt img 4 2 != 1) 0x01 0xFFFF 4 ++ failIf (leAt img 6 2 != 12) 0x01 0xFFFF 6 ++
    failIf (1048576 < leAt img 8 4) 0x02 0 8 ++ failIf (leAt img 0xC 4 == 0) 0x01 0xFFFF 0xC ++
    failIf (byteAt img 0x10 == 0 || 3 < byteAt img 0x10) 0x01 0xFFFF 0x10 ++
    failIf (16 ≤ byteAt img 0x11) 0x03 0 0x11 ++ failIf (64 ≤ byteAt img 0x14) 0x03 0 0x14 ++
    reservedAt 0 0 img 0x15 3 ++ reservedAt 0 0 img 0x1C 20 ++
    (upTo 12).flatMap (fun i => reservedAt 0 0 img (0x32 + 16 * i) 2) ++ reservedAt 0 0 img 0xF0 12

/-- Bytes between sections that are not 0; INDEX names the section before the gap (log 36). -/
def gapFails (img : List Byte) (ss : List Sect) : List VFail :=
  let ends := (0, 256) :: ss.map (fun s => (s.type, s.off + s.len))
  (ends.zip ss).flatMap fun p =>
    let gap := (img.drop p.1.2).take (p.2.off - p.1.2)
    gap.zipIdx.filterMap fun b =>
      if b.1 != 0 then some { detail := 0x03, index := p.1.1, offset := p.1.2 + b.2 } else none

/-- Entries of a section with a count at +0x0: as many as the count says and the section holds. -/
def entriesOf (s : Sect) (size : Nat) : List Nat := upTo (min (leAt s.data 0 4) ((s.len - 16) / size))

/-- Reserved fields of the sections (R187 to R195, Tables 6.7 and 6.8). Those inside a container's payload are judged with
the payload at step 11. -/
def reservedFails (s : Sect) : List VFail :=
  let r := reservedAt s.type s.off s.data
  if s.len = 0 then []
  else if s.type = 1 then (upTo 16).flatMap (fun p => r (16 * p + 1) 3 ++ r (16 * p + 12) 4)
  else if s.type = 2 then (upTo 64).flatMap (fun t => r (32 * t + 6) 2 ++ r (32 * t + 0x12) 14)
  else if s.type = 3 then
    (upTo 16).flatMap (fun p => r (4 * p + 1) 1) ++ r 0x6C 4 ++ (upTo 16).flatMap (fun f => r (0x485 + 8 * f) 3) ++
      (upTo 64).flatMap (fun l => r (0x502 + 8 * l) 2) ++
      (upTo 64).flatMap (fun h => r (0x703 + 8 * h) 1 ++ r (0x706 + 8 * h) 2)
  else if s.type = 4 then r 4 12 ++ (entriesOf s 8).flatMap (fun i => r (16 + 8 * i + 3) 1)
  else if s.type = 5 then r 4 12
  else if s.type = 8 || s.type = 9 || s.type = 10 then
    r 4 12 ++ (entriesOf s 16).flatMap (fun i => r (16 + 16 * i + 12) 4)
  else if s.type = 11 then r 4 12
  else []

/-- Step 3: header values and layout. The sections' bodies are judged only where the directory holds together. -/
def layoutFails (img : List Byte) : List VFail :=
  let ss := sectionsOf img
  let sig := sectOf ss 12
  let dir := directoryFails ss.zipIdx 256 ++ failIf (sig.off + sig.len != leAt img 8 4) 0x02 0xC 0xE4
  let head := headerFails img ++ dir
  if dir.isEmpty && leAt img 8 4 ≤ 1048576 then head ++ gapFails img ss ++ ss.flatMap reservedFails else head

/-! ## Steps 4 to 6 -/

/-- Step 4: the CRC of every section, in type order. -/
def crcFails (ss : List Sect) : List VFail :=
  ss.zipIdx.flatMap fun p =>
    failIf (p.1.crc != (if p.1.len = 0 then 0 else crc32 p.1.data)) 0x04 (p.2 + 1) (0x3C + 16 * p.2)

/-- A list with `n` bytes from `o` replaced by 0. -/
def zeroed (l : List Byte) (o n : Nat) : List Byte := l.take o ++ List.replicate n 0 ++ l.drop (o + n)

/-- Whether an encoded point is of small order: 8 times it is the neutral point (R196, 3). -/
def smallOrder (p : EdPoint) : Bool :=
  edSame (edMul edD 8 p) { x := 0, y := 1, z := 1, t := 0 }

/-- Whether a 32-byte string decodes to a point that is not of small order. -/
def goodPoint (bs : List Byte) : Bool :=
  match edDecode edD bs with
  | some p => !smallOrder p
  | none => false

/-- Step 6: the header's STRAPS against the straps latched at reset. -/
def strapsOk (straps hostSel tstrap : Nat) : Bool :=
  (straps % 4 == 0 || straps % 4 == hostSel) && (!straps.testBit 5 || straps / 4 % 8 == tstrap)

/-! ## The parse -/

/-- The entries of a container section (R194). -/
def payloadsOf (s : Sect) : List Payload :=
  (entriesOf s 16).map fun i =>
    let e := 16 + 16 * i
    let o := leAt s.data (e + 4) 4
    { key := leAt s.data e 2, pot := byteAt s.data (e + 2), offset := s.off + o,
      data := (s.data.drop o).take (leAt s.data (e + 8) 4) }

/-- Argument and result types of a function table entry (Table 6.9). -/
def typesOf (v lo n : Nat) : List RhType := (upTo n).map fun i => rhTypeOf (bitsOf v (lo + 2 * i + 1) (lo + 2 * i))

/-- The functions of CODE. -/
def functionsOf (s : Sect) : List FnDecl :=
  (entriesOf s 16).map fun i =>
    let e := 16 + 16 * i
    let o := leAt s.data e 4
    let ty := leAt s.data (e + 12) 4
    { pot := byteAt s.data (e + 8), args := typesOf ty 0 (byteAt s.data (e + 9)), results := typesOf ty 16 (byteAt s.data (e + 10)),
      nlocals := byteAt s.data (e + 11), offset := s.off + o, code := (s.data.drop o).take (leAt s.data (e + 4) 4) }

/-- A class of the power plan (R68). -/
def powerClass (n : Nat) : PowerClass := if n = 0 then .off else if n = 1 then .on else if n = 2 then .demandOff else .demandOn

/-- One ROUTE entry. -/
def parseRoute (l : List Byte) (t : Nat) : Route :=
  let e := l.drop (32 * t)
  { used := byteAt e 0 == 1, pot := byteAt e 1, lane := byteAt e 2, period := byteAt e 3, phase := byteAt e 4,
    release := byteAt e 5, length := leAt e 8 4, cold := leAt e 12 2, warm := leAt e 14 2, cyclic := leAt e 16 2 }

/-- The image that the bytes of a bank declare; names and work stand empty until acceptance derives them. -/
def parseImage (bankB : Bool) (img : List Byte) : Image :=
  let ss := sectionsOf img
  let pots := (sectOf ss 1).data
  let route := (sectOf ss 2).data
  let own := (sectOf ss 3).data
  let safe := sectOf ss 4
  let const := (sectOf ss 6).data
  let retain := (sectOf ss 7).data
  let flags := byteAt img 0x11
  let bytes := fun (o n : Nat) => (upTo n).map (fun i => byteAt own (o + i))
  let face := (upTo 16).map fun i =>
    let e := own.drop (0x480 + 8 * i)
    ({ owner := byteAt e 0, x0 := byteAt e 1, x1 := byteAt e 2, y0 := byteAt e 3, y1 := byteAt e 4 } : FaceRegion)
  let larder := (upTo 64).map fun i =>
    let e := own.drop (0x500 + 8 * i)
    ({ owner := byteAt e 0, journaled := byteAt e 1 == 1, base := leAt e 4 2, groups := leAt e 6 2 } : LarderRegion)
  let hatches := (upTo 64).map fun i =>
    let e := own.drop (0x700 + 8 * i)
    ({ used := byteAt e 0 == 1, writer := byteAt e 1, length := byteAt e 2, readers := leAt e 4 2 } : HatchDecl)
  { bankB := bankB, generation := leAt img 0xC 4, role := byteAt img 0x10, autorun := flags.testBit 0,
    forceGlyph := flags.testBit 1, xtalSrc := flags.testBit 2, lineEn := flags.testBit 3, netWait := leAt img 0x12 2,
    straps := byteAt img 0x14, length := leAt img 8 4, codeOffset := (sectOf ss 5).off, constOffset := (sectOf ss 6).off,
    pots := (upTo 16).map (fun p => { declared := byteAt pots (16 * p) == 1, tag := (pots.drop (16 * p + 4)).take 8 }),
    routes := (upTo 64).map (parseRoute route),
    windows := (upTo 16).map (fun p => { base := byteAt own (4 * p), pages := leAt own (4 * p + 2) 2 }),
    laneOwn := bytes 0x40 44, chanOwn := bytes 0x70 1024, slotOwn := bytes 0x470 16, faceRegions := face,
    larderRegions := larder, hatches := hatches,
    safe := (entriesOf safe 8).map (fun i =>
      let e := safe.data.drop (16 + 8 * i)
      { channel := leAt e 0 2, elem := byteAt e 2, value := BitVec.ofNat 32 (leAt e 4 4) }),
    fns := functionsOf (sectOf ss 5),
    constBlocks := if const.isEmpty then [] else (upTo 16).map (fun p =>
      (p, (const.drop (leAt const (8 * p) 4)).take (leAt const (8 * p + 4) 4))),
    retain := if retain.isEmpty then [] else (upTo 16).map (fun p => (leAt retain (8 * p) 4, leAt retain (8 * p + 4) 4)),
    scripts := payloadsOf (sectOf ss 8), stencils := payloadsOf (sectOf ss 9), tables := payloadsOf (sectOf ss 10),
    power := (upTo 16).map (fun n => powerClass (bitsOf (leAt (sectOf ss 11).data 0 4) (2 * n + 1) (2 * n))),
    names := [], work := [] }

/-! ## Step 7 -/

/-- A TAG of ASCII characters padded with 0. -/
def tagOk (t : List Byte) : Bool := t.all (fun b => b.toNat < 128) && (t.dropWhile (· != 0)).all (· == 0)

/-- R187. -/
def potsFails (pots : Sect) : List VFail :=
  (upTo 16).flatMap fun p =>
    let b := byteAt pots.data (16 * p)
    failIf (1 < b || (p == 0 && b != 1)) 0x05 p (pots.off + 16 * p) ++
      failIf (!tagOk ((pots.data.drop (16 * p + 4)).take 8)) 0x05 p (pots.off + 16 * p + 4)

/-- Whether the windows of two entries on one lane are ever open at once (R116): both recur, and their starts differ by every
multiple of the shorter period. -/
def windowsMeet (a b : Route) : Bool :=
  let g := min (256 * 2 ^ a.period) (256 * 2 ^ b.period)
  let d := (256 * b.phase + b.release + g * 256 - (256 * a.phase + a.release)) % g
  decide (d < a.length) || decide (g - d < b.length)

/-- Values of a used entry, and the all-zero form of an unused one (R188, R95, R116). -/
def routeEntryFails (m : Image) (base t : Nat) (l : List Byte) : List VFail :=
  let r := parseRoute l t
  let at' := fun (b : Bool) (o : Nat) => failIf b 0x06 t (base + 32 * t + o)
  let used := byteAt l (32 * t)
  let pot := at' (15 < r.pot || !m.declared r.pot) 1
  let lane := at' (43 < r.lane || m.laneOwn.getD r.lane 0xFF != r.pot || (r.pot == 0 && 10 < r.lane)) 2
  if 1 < used then at' true 0
  else if used = 0 then
    [(1, 1), (2, 1), (3, 1), (4, 1), (5, 1), (8, 4), (12, 2), (14, 2), (16, 2)].flatMap fun f =>
      at' (leAt l (32 * t + f.1) f.2 != 0) f.1
  else if 8 < r.period then pot ++ lane ++ at' true 3
  else
    pot ++ lane ++ at' (2 ^ r.period ≤ r.phase) 4 ++ at' (r.length == 0 || 256 * 2 ^ r.period < r.length) 8

/-- R95, R116 and R188. A missing Hob task names no task, and is reported at ROUTE's first byte (log 36). -/
def routeFails (m : Image) (route : Sect) : List VFail :=
  let l := route.data
  let sound := fun (r : Route) => r.period ≤ 8 && 0 < r.length && r.length ≤ 256 * 2 ^ r.period && decide (r.phase < 2 ^ r.period)
  let overlap := (upTo 64).flatMap fun t =>
    match m.route t with
    | none => []
    | some r =>
      failIf (sound r && (upTo t).any (fun u =>
        match m.route u with
        | some q => q.lane == r.lane && sound q && windowsMeet q r
        | none => false)) 0x06 t (route.off + 32 * t + 2)
  let hob := (upTo 64).any (fun t => match m.route t with | some r => r.pot == 0 | none => false)
  (upTo 64).flatMap (fun t => routeEntryFails m route.off t l) ++ overlap ++ failIf (!hob) 0x06 0xFFFF route.off

/-- The user area of the larder (Table 8.6). -/
def userArea (base groups : Nat) : Bool := decide (0x1800 ≤ base) && decide (base + groups ≤ 0x7800)

/-- R100 and R189. INDEX is the number of the entry within its table. -/
def ownFails (m : Image) (own : Sect) : List VFail :=
  let l := own.data
  let at' := fun (b : Bool) (i o : Nat) => failIf b 0x07 i (own.off + o)
  let owner := fun (x : Nat) => x == 0xFF || (x < 16 && m.declared x)
  let windows := (upTo 16).flatMap fun p =>
    let w := m.window p
    at' ((!m.declared p && w.base != 0) || 256 < w.base + w.pages) p (4 * p) ++
      at' ((!m.declared p && w.pages != 0) || 256 < w.pages) p (4 * p + 2)
  let lanes := (upTo 44).flatMap fun i => at' (!owner (byteAt l (0x40 + i))) i (0x40 + i)
  let channels := (upTo 1024).flatMap fun c =>
    let o := m.owner c
    at' (!owner o || (o != 0xFF && !channelKnown c)) c (0x70 + c)
  let slots := (upTo 16).flatMap fun i => at' (!owner (byteAt l (0x470 + i))) i (0x470 + i)
  let faces := (m.faceRegions.zipIdx).flatMap fun p =>
    let r := p.1
    let o := 0x480 + 8 * p.2
    if r.owner = 0xFF then
      at' (r.x0 != 0) p.2 (o + 1) ++ at' (r.x1 != 0) p.2 (o + 2) ++ at' (r.y0 != 0) p.2 (o + 3) ++ at' (r.y1 != 0) p.2 (o + 4)
    else
      at' (!owner r.owner) p.2 o ++ at' (r.x1 ≤ r.x0) p.2 (o + 1) ++ at' (96 < r.x1) p.2 (o + 2) ++
        at' (r.y1 ≤ r.y0) p.2 (o + 3) ++ at' (16 < r.y1) p.2 (o + 4)
  let larder := (m.larderRegions.zipIdx).flatMap fun p =>
    let r := p.1
    let o := 0x500 + 8 * p.2
    let kind := byteAt l (o + 1)
    if r.owner = 0xFF then at' (kind != 0) p.2 (o + 1) ++ at' (r.base != 0) p.2 (o + 4) ++ at' (r.groups != 0) p.2 (o + 6)
    else
      at' (!owner r.owner) p.2 o ++ at' (1 < kind) p.2 (o + 1) ++ at' (!userArea r.base r.groups) p.2 (o + 4) ++
        at' (r.groups == 0) p.2 (o + 6)
  let hatches := (m.hatches.zipIdx).flatMap fun p =>
    let h := p.1
    let o := 0x700 + 8 * p.2
    let used := byteAt l o
    if 1 < used then at' true p.2 o
    else if used = 0 then at' (h.writer != 0) p.2 (o + 1) ++ at' (h.length != 0) p.2 (o + 2) ++ at' (h.readers != 0) p.2 (o + 4)
    else at' (m.route h.writer).isNone p.2 (o + 1) ++ at' (h.length == 0 || 64 < h.length) p.2 (o + 2)
  windows ++ lanes ++ channels ++ slots ++ faces ++ larder ++ hatches

/-! ## Step 8 -/

/-- Half-open ranges that share a number. -/
def rangesMeet (a an b bn : Nat) : Bool :=
  an != 0 && bn != 0 && decide (a < b + bn) && decide (b < a + an)

/-- Pairs of items of a list that clash, as their numbers, the lower first. -/
def clashesOf {α : Type} (l : List α) (clash : α → α → Bool) : List (Nat × Nat) :=
  l.zipIdx.flatMap fun p => l.zipIdx.filterMap fun q => if p.2 < q.2 && clash p.1 q.1 then some (p.2, q.2) else none

/-- Whether any pot owns one of the channels `lo` to `hi`. -/
def Image.ownsAny (m : Image) (lo hi : Nat) : Bool := (upTo (hi + 1 - lo)).any (fun i => m.owner (lo + i) < 16)

/-- Whether a function of the device takes a script slot: every slot of a bound converter, slot 3 of MD for the sensing
front ends, and slot 2 of MD for face sensing (R98, R317). -/
def Image.slotTaken (m : Image) (n : Nat) : Bool :=
  m.bind (n / 4) != 0 || (n == 15 && m.ownsAny 0x020 0x027) || (n == 14 && m.ownsAny 0x060 0x060)

/-- R97, R98 and R301. A clash of two entries names the lower one, and lies at the first byte of the higher one (log 36). -/
def clashFails (m : Image) (own : Sect) : List VFail :=
  let pages := clashesOf m.windows (fun a b => rangesMeet a.base a.pages b.base b.pages)
  let faces := clashesOf m.faceRegions (fun a b =>
    a.owner < 16 && b.owner < 16 && rangesMeet a.x0 (a.x1 - a.x0) b.x0 (b.x1 - b.x0) &&
      rangesMeet a.y0 (a.y1 - a.y0) b.y0 (b.y1 - b.y0))
  let larder := clashesOf m.larderRegions (fun a b =>
    a.owner < 16 && b.owner < 16 && rangesMeet a.base a.groups b.base b.groups)
  let slots := (upTo 16).flatMap fun n => failIf (m.slotOwn.getD n 0xFF != 0xFF && m.slotTaken n) 0x23 n (own.off + 0x470 + n)
  let crossings := (upTo 16).flatMap fun i =>
    let o := m.owner (0x010 + i)
    failIf (m.bind (i / 4) != 0 && o != 0xFF && m.cxOwner i != some o) 0x23 (16 + i) (own.off + 0x80 + i)
  pages.map (fun p => { detail := 0x20, index := p.1, offset := own.off + 4 * p.2 }) ++ slots ++ crossings ++
    faces.map (fun r => { detail := 0x21, index := r.1, offset := own.off + 0x480 + 8 * r.2 }) ++
    larder.map (fun r => { detail := 0x22, index := r.1, offset := own.off + 0x500 + 8 * r.2 })

end Sys2Proof.Machine
end

