-- ==== Sys2Proof/Machine/Payload.lean ====
section
/-! DEFINITION. Step 11 of acceptance: SAFE, CONST, RETAIN, the containers, and the payload checks of every block's chapter
(R190, R192 to R194, R289, R305, R308, R320, R336, R404, R437, R446, R476, R494, R495, R504, R522). -/

namespace Sys2Proof.Machine

/-- A container entry with its section type and its place in the image. -/
structure EntryAt where
  type : Nat
  at' : Nat
  pay : Payload
  deriving DecidableEq, Repr

/-- The entries of a container section, in order. -/
def entryList (s : Sect) (ps : List Payload) : List EntryAt :=
  ps.zipIdx.map fun p => { type := s.type, at' := s.off + 16 + 16 * p.2, pay := p.1 }

/-- A broken payload rule: detail PAYLOAD with the section type. -/
def badIf (t : Nat) (b : Bool) (o : Nat) : List VFail := failIf b 0x16 t o

/-- A field of the payload that breaks its range. -/
def EntryAt.field (x : EntryAt) (b : Bool) (o : Nat) : List VFail := badIf x.type b (x.pay.offset + o)

/-- A reserved field of the payload that is not 0. -/
def EntryAt.rsv (x : EntryAt) (o n : Nat) : List VFail :=
  x.field ((((x.pay.data.drop o).take n).any (· != 0))) o

/-- The POT of the entry is wrong. -/
def EntryAt.pot (x : EntryAt) (ok : Bool) : List VFail := badIf x.type (!ok) (x.at' + 2)

/-- The payload checks of an entry, made where its length is right; a wrong length is the failure otherwise. -/
def EntryAt.sized (x : EntryAt) (ok : Bool) (rest : List VFail) : List VFail :=
  if ok then rest else badIf x.type true (x.at' + 8)

/-- A field of the payload as a number. -/
def EntryAt.n (x : EntryAt) (o k : Nat) : Nat := leAt x.pay.data o k

/-- A field of the payload as binary32. -/
def EntryAt.f (x : EntryAt) (o : Nat) : Word := BitVec.ofNat 32 (x.n o 4)

/-- Whether a binary32 value is finite. -/
def fFinite (w : Word) : Bool := w.toNat / 2 ^ 23 % 256 != 255

/-- Whether a binary32 value is finite and above 0. -/
def fPositive (w : Word) : Bool := fFinite w && condF .lt 0 w

/-- Whether a region of a pot's window lies wholly inside it. -/
def Image.inWindow (m : Image) (p ofs len : Nat) : Bool := decide (ofs + len ≤ 4096 * (m.window p).pages)

/-! ## SAFE, CONST, RETAIN and the containers -/

/-- R190. The section holds exactly COUNT entries; one that does not breaks R185, at its directory LENGTH. -/
def safeFails (m : Image) (addr : Nat) (s : Sect) : List VFail :=
  let key := fun (e : SafeEntry) => 256 * e.channel + e.elem
  if s.len != 16 + 8 * leAt s.data 0 4 then failIf true 0x02 4 0x68
  else
    (m.safe.zipIdx).flatMap fun p =>
      let o := s.off + 16 + 8 * p.2
      let prev := if p.2 = 0 then none else m.safe[p.2 - 1]?
      let after := match prev with
        | some q => decide (q.channel ≤ p.1.channel)
        | none => true
      let rises := match prev with
        | some q => decide (key q < key p.1) || decide (p.1.channel < q.channel)
        | none => true
      let owned := decide (m.owner p.1.channel < 16) && m.declared (m.owner p.1.channel) && p.1.channel != 0x060
      failIf (!after || !owned) 0x13 p.2 o ++ 
        failIf (!rises || m.elem addr p.1.channel p.1.elem != some true) 0x13 p.2 (o + 2)

/-- Spans `(offset, length, what)` that overlap an earlier one, by what they are. -/
def overlaps (l : List (Nat × Nat × Nat)) : List Nat :=
  l.zipIdx.filterMap fun p =>
    if l.zipIdx.any (fun q =>
      (q.1.1 < p.1.1 || (q.1.1 == p.1.1 && q.2 < p.2)) && rangesMeet q.1.1 q.1.2.1 p.1.1 p.1.2.1) then some p.1.2.2
    else none

/-- The end of the span that ends last, not before the end of the table. -/
def lastEnd (table : Nat) (spans : List (Nat × Nat × Nat)) : Nat :=
  spans.foldl (fun n p => max n (p.1 + p.2.1)) table

/-- R192. The section ends where its last block ends, or it breaks R185 at its directory LENGTH (DEDUCED, log 173). -/
def constFails (s : Sect) : List VFail :=
  if s.len = 0 then []
  else
    let block := fun (p : Nat) => (leAt s.data (8 * p) 4, leAt s.data (8 * p + 4) 4)
    let each := (upTo 16).flatMap fun p =>
      let b := block p
      failIf (b.1 % 4 != 0 || (b.2 != 0 && (b.1 < 128 || s.len < b.1 + b.2))) 0x14 p (s.off + 8 * p) ++
        failIf (b.2 % 4 != 0) 0x14 p (s.off + 8 * p + 4)
    let spans := (upTo 16).map (fun p => (if (block p).2 = 0 then 0 else (block p).1, (block p).2, p))
    failIf (s.len != lastEnd 128 spans) 0x02 6 0x88 ++ each ++ (overlaps spans).map fun p =>
      { detail := 0x14, index := p, offset := s.off + 8 * p }

/-- R193. -/
def retainFails (m : Image) (s : Sect) : List VFail :=
  if s.len = 0 then []
  else
    (upTo 16).flatMap fun p =>
      let o := leAt s.data (8 * p) 4
      let n := leAt s.data (8 * p + 4) 4
      failIf (o % 4 != 0 || (n != 0 && !m.inWindow p o n)) 0x15 p (s.off + 8 * p) ++ failIf (n % 4 != 0) 0x15 p (s.off + 8 * p + 4)

/-- Whether a block chapter defines a KEY for a section. -/
def keyKnown (type k : Nat) : Bool :=
  if type = 9 then true
  else if type = 10 then (0x40 ≤ k && k ≤ 0x45) || (0x48 ≤ k && k ≤ 0x57)
  else k < 16 || (0x100 ≤ k && k ≤ 0x103) || (0x200 ≤ k && k ≤ 0x203) || k == 0x300 || k == 0x301 ||
    (0x400 ≤ k && k ≤ 0x4FF) || k == 0x500 || k == 0x600 || k == 0x601 || k == 0x700

/-- R194, for one container. A section that does not end where its table and its last payload end breaks R185, at its directory
LENGTH (DEDUCED, log 173). -/
def containerFails (s : Sect) (l : List EntryAt) : List VFail :=
  let table := 16 + 16 * l.length
  let ends := l.zipIdx.map (fun p => (p.1.pay.offset - s.off, leAt s.data (16 + 16 * p.2 + 8) 4, p.2))
  let long := s.len != 0 && s.len != lastEnd (16 + 16 * leAt s.data 0 4) ends
  let each := l.zipIdx.flatMap fun p =>
    let x := p.1
    let fmt := byteAt s.data (16 + 16 * p.2 + 3)
    let o := x.pay.offset - s.off
    let n := leAt s.data (16 + 16 * p.2 + 8) 4
    let twice := (l.take p.2).any (fun y => y.pay.key == x.pay.key)
    badIf s.type (!keyKnown s.type x.pay.key || twice) x.at' ++ badIf s.type (fmt != 1) (x.at' + 3) ++
      badIf s.type (o % 4 != 0 || o < table || s.len < o + n) (x.at' + 4)
  let spans := l.map (fun x => (x.pay.offset, x.pay.data.length, x.at' + 4))
  failIf long 0x02 s.type (0x38 + 16 * (s.type - 1)) ++ each ++ (overlaps spans).map fun o =>
    { detail := 0x16, index := s.type, offset := o }

/-! ## Mandolines -/

/-- Whether a step's input keeps R299: an assigned AIN pin only with its channel, 10 and 11 for the Hob only. -/
def Image.inputOk (m : Image) (p c i : Nat) : Bool :=
  if i ≤ 7 then m.pinAllowed p (8 * c + i) else i ≤ 9 || (i ≤ 11 && p == 0)

/-- A sample group as it stands in the image: pot, by crossing or not, source and members (R305). -/
def Image.sampleGroup (m : Image) (g : Nat) : Option (Nat × Bool × Nat × Nat) :=
  (payloadOf m.scripts (0x200 + g)).map fun p => (p.pot, byteAt p.data 0 == 1, byteAt p.data 1, leAt p.data 2 2)

/-- One script step (Table 10.10). Bits of VALUE outside a step's field are reserved (log 37). -/
def stepFails (m : Image) (x : EntryAt) (i : Nat) : List VFail :=
  let o := 16 + 8 * i
  let p := x.pay.pot
  let op := x.n o 1
  let input := x.n (o + 1) 1
  let flags := x.n (o + 2) 1
  let v := x.n (o + 4) 4
  let par := flags % 2 == 1
  let sample := op == 1 || op == 2 || op == 7
  let value : Bool :=
    if op = 0 then v != 0
    else if op = 1 then (if par then 16 ≤ v else outside v 1 65535)
    else if op = 2 then (if par then 16 ≤ v else 10 < v)
    else if op = 3 then (if par then 16 ≤ v else outside v 1 16777215)
    else if op = 4 then
      i ≤ v % 32 || bitsOf v 15 5 != 0 || (if par then 16 ≤ v / 65536 else v / 65536 == 0)
    else if op = 5 then 16 ≤ v
    else
      4 ≤ v || (match m.sampleGroup v with
        | none => true
        | some (gp, cross, source, members) =>
          gp != p || (op == 6 && (cross || source != x.pay.key)) || (op == 7 && !members.testBit x.pay.key))
  x.field (7 < op) o ++ x.field (if sample then !m.inputOk p (x.pay.key / 4) input else op != 0 && input != 0) (o + 1) ++
    x.field (2 ≤ flags || (par && !(1 ≤ op && op ≤ 4))) (o + 2) ++ x.rsv (o + 3) 1 ++ x.field (op ≤ 7 && value) (o + 4)

/-- R308. -/
def scriptFails (m : Image) (x : EntryAt) : List VFail :=
  let k := x.pay.key
  let nstep := x.n 0 1
  let mode := x.n 1 1
  let e := x.n 3 1
  x.pot (m.slotOwn.getD k 0xFF == x.pay.pot && x.pay.pot < 16 && !m.slotTaken k) ++
    x.sized (16 ≤ x.pay.data.length && (outside nstep 1 32 || x.pay.data.length == 16 + 8 * nstep))
      (x.field (outside nstep 1 32) 0 ++ x.field (2 < mode) 1 ++ x.field (mode != 1 && x.n 2 1 != 0) 2 ++
        x.field (if mode = 1 then 8 < e else e != 0) 3 ++
        x.field (if mode = 1 then 2 ^ e ≤ x.n 4 1 else x.n 4 1 != 0) 4 ++
        x.field (if mode = 2 then 15 < x.n 5 1 || m.cxOwner (x.n 5 1) != some x.pay.pot else x.n 5 1 != 0) 5 ++
        x.rsv 6 2 ++
        x.field (x.n 8 4 % 4 != 0 || !m.inWindow x.pay.pot (x.n 8 4) (16 + 4 * x.n 12 4)) 8 ++
        x.field (outside (x.n 12 4) 1 65536) 12 ++ (upTo (min nstep 32)).flatMap (stepFails m x))

/-- R289 with Table 10.2. -/
def converterFails (m : Image) (x : EntryAt) : List VFail :=
  let c := x.pay.key - 0x100
  let map := x.n 4 4
  let slotOf := fun (j : Nat) => map / 4 ^ j % 4
  let keeps := fun (s : Nat) => (upTo 16).all (fun j => (slotOf j == s) == (j % 4 == s))
  badIf x.type (m.bind c != 0) x.at' ++ x.pot (x.pay.pot == 0) ++
    x.sized (x.pay.data.length == 16)
      (x.field (3 < x.n 0 1) 0 ++ x.field (1 < x.n 1 1 || (x.n 1 1 == 1 && x.n 0 1 != 0)) 1 ++ x.rsv 2 2 ++
        x.field (c == 3 && ((m.slotTaken 15 && !keeps 3) || (m.slotTaken 14 && !keeps 2))) 4 ++
        x.field (outside (x.n 8 2) 10 10000) 8 ++ x.rsv 10 6)

/-- R305. -/
def groupFails (m : Image) (x : EntryAt) : List VFail :=
  let p := x.pay.pot
  let members := (upTo 16).filter (fun n => (x.n 2 2).testBit n)
  let source := x.n 1 1
  x.pot (p < 16) ++ x.sized (x.pay.data.length == 8)
    (x.field (1 < x.n 0 1) 0 ++
      x.field (15 < source || (if x.n 0 1 = 1 then m.cxOwner source != some p else m.slotOwn.getD source 0xFF != p)) 1 ++
      x.field (members.any (fun n => m.slotOwn.getD n 0xFF != p || m.bind (n / 4) != 0 ||
        members.any (fun k => k != n && k / 4 == n / 4))) 2 ++ x.rsv 4 4)

/-! ## Sensing and I²C -/

/-- A missing entry for an owned channel is reported at the channel's owner byte (log 36). -/
def needed (own : Sect) (t : Nat) (m : Image) (ch : Nat) (ok : Bool) : List VFail :=
  badIf t (m.owner ch < 16 && !ok) (own.off + 0x70 + ch)

/-- R320, first case. -/
def senseNeeded (m : Image) (own : Sect) : List VFail :=
  (upTo 8).flatMap fun n =>
    needed own 8 m (0x020 + n) (match payloadOf m.scripts 0x300 with
      | some p => senseEnabled p.data n
      | none => false)

/-- Table 11.3; ranges are judged whether a channel is enabled or not, SENS only where it is (DEDUCED, log 37). -/
def senseFails (x : EntryAt) : List VFail :=
  let bias := sxNat 16
  x.pot (x.pay.pot == 0) ++
    x.sized (x.pay.data.length == 144)
      ((upTo 4).flatMap (fun k =>
        let o := 24 * k
        x.field (2 < x.n o 1) o ++ x.rsv (o + 1) 3 ++ x.field (outside (x.n (o + 4) 4) 100 1000000) (o + 4) ++ x.rsv (o + 0x14) 4) ++
      x.field (4 < x.n 0x60 1) 0x60 ++ x.rsv 0x61 3 ++ x.field (!fPositive (x.f 0x64)) 0x64 ++ x.field (1 < x.n 0x68 1) 0x68 ++
      x.rsv 0x69 1 ++ x.field (outside (x.n 0x6A 2) 1 1250) 0x6A ++ x.field (x.n 0x6C 2 == 0) 0x6C ++ x.rsv 0x6E 2 ++
      (upTo 2).flatMap (fun k =>
        let o := 0x70 + 16 * k
        let sens := x.f (o + 8)
        x.field (1 < x.n o 1) o ++ x.field (2 < x.n (o + 1) 1) (o + 1) ++ x.rsv (o + 3) 1 ++
          x.field (bias (x.n (o + 4) 2) < -600 || 600 < bias (x.n (o + 4) 2)) (o + 4) ++ x.rsv (o + 6) 2 ++
          x.field (x.n o 1 == 1 && (!fFinite sens || condF .eq sens 0)) (o + 8) ++ x.rsv (o + 12) 4) ++
      [])

/-- R336. -/
def i2cFails (x : EntryAt) : List VFail :=
  x.pot (x.pay.pot == 0) ++
    x.sized (x.pay.data.length == 128)
      ((upTo 8).flatMap fun k =>
        let o := 16 * k
        let e := x.n (o + 9) 1
        if x.n o 1 = 0 then (upTo 16).flatMap (fun i => x.rsv (o + i) 1)
        else
          x.field (1 < x.n o 1) o ++ x.field (outside (x.n (o + 1) 1) 0x08 0x77) (o + 1) ++ x.field (1 < x.n (o + 2) 1) (o + 2) ++
            x.field (4 < x.n (o + 3) 1) (o + 3) ++ x.field (outside (x.n (o + 8) 1) 1 8) (o + 8) ++ x.field (8 < e) (o + 9) ++
            x.field (e ≤ 8 && 2 ^ e ≤ x.n (o + 10) 1) (o + 10) ++
            x.field (15 < x.n (o + 11) 1 || (e ≤ 8 && 2 ^ e ≤ x.n (o + 11) 1)) (o + 11) ++ x.rsv (o + 12) 4)

/-! ## The Line and the bus -/

/-- R404. -/
def remoteFails (x : EntryAt) : List VFail :=
  let e := x.n 1 1
  let n := x.n 4 1
  x.pot (x.pay.pot == 0) ++
    x.sized (x.pay.data.length == 144)
      (x.field (1 < x.n 0 1) 0 ++ x.field (8 < e) 1 ++ x.field (e ≤ 8 && 2 ^ e ≤ x.n 2 1) 2 ++ x.field (2 < x.n 3 1) 3 ++
        x.field (outside n 1 64) 4 ++ x.field (x.n 5 1 == 0) 5 ++ x.rsv 6 10 ++
        (upTo 64).flatMap fun i => x.field (if i < n then 4096 ≤ x.n (0x10 + 2 * i) 2 else x.n (0x10 + 2 * i) 2 != 0) (0x10 + 2 * i))

/-- R437 with Table 14.8. -/
def busFails (m : Image) (x : EntryAt) : List VFail :=
  let objs := busObjects x.pay.data
  let wordOk := fun (h w : Nat) => match m.hatch h with
    | some d => decide (w < d.length / 4)
    | none => false
  let hob := fun (h : Nat) => match m.hatch h with
    | some d => (match m.route d.writer with | some r => r.pot == 0 | none => false)
    | none => false
  x.pot (x.pay.pot == 0) ++
    x.sized (32 ≤ x.pay.data.length && (128 < x.n 0x15 1 || x.pay.data.length == 32 + 32 * x.n 0x15 1))
      (x.field (!tagOk (x.pay.data.take 16)) 0 ++ x.field (128 < x.n 0x15 1) 0x15 ++ x.rsv 0x16 10 ++
        (objs.take 128).zipIdx.flatMap fun q =>
          let b := q.1
          let o := 32 + 32 * q.2
          let earlier := objs.take q.2
          x.field (b.type != 2 && b.type != 5 && b.type != 19) o ++
            x.field (4194302 < b.inst || earlier.any (fun c => c.type == b.type && c.inst == b.inst)) (o + 1) ++
            x.field (m.hatch b.inHatch).isNone (o + 4) ++ x.field ((m.hatch b.inHatch).isSome && !wordOk b.inHatch b.inWord) (o + 5) ++
            x.field (b.outHatch != 0xFF && !hob b.outHatch) (o + 6) ++
            x.field (b.outHatch != 0xFF && hob b.outHatch && !wordOk b.outHatch b.outWord) (o + 7) ++
            x.field (b.type != 2 && b.units != 0) (o + 8) ++
            x.field (if b.type = 19 then b.nstates < 2 else b.nstates != 0) (o + 10) ++ x.rsv (o + 11) 1 ++
            x.field (if b.type = 2 then !fFinite b.covInc || condF .lt b.covInc 0 else b.covInc != 0) (o + 12) ++
            x.field (!tagOk ((x.pay.data.drop (o + 16)).take 16) || earlier.any (fun c => c.name == b.name)) (o + 16))

/-- R404, the cases that stand at a channel. -/
def remoteNeeded (m : Image) (own : Sect) : List VFail :=
  (upTo 256).flatMap fun g => needed own 8 m (0x100 + g) (m.lineEn && (m.group g).isSome)

/-! ## Whisk units -/

/-- R446 with Table 15.3. -/
def whiskFails (m : Image) (x : EntryAt) : List VFail :=
  let u := x.pay.key - 0x600
  let base := x.n 4 2
  let above := fun (o : Nat) => x.field (!fPositive (x.f o)) o
  let least := fun (o : Nat) => x.field (!fFinite (x.f o) || condF .lt (x.f o) 0) o
  let higher := fun (o b : Nat) => x.field (!fFinite (x.f o) || !condF .lt (x.f b) (x.f o)) o
  x.pot (m.owner (0x058 + u) == x.pay.pot && x.pay.pot < 16) ++
    x.sized (x.pay.data.length == 112)
      (x.field (outside (x.n 0 1) 1 16) 0 ++ x.field (outside (x.n 1 1) 1 10) 1 ++ x.field (outside (x.n 2 2) 4 200) 2 ++
        x.field (outside base 100 30000) 4 ++ x.field (outside (x.n 6 2) 1 (2 * base)) 6 ++
        [0x08, 0x0C, 0x10, 0x14, 0x18, 0x1C, 0x20, 0x24, 0x28, 0x2C, 0x30, 0x34, 0x38, 0x3C].flatMap above ++
        least 0x40 ++ least 0x44 ++
        x.field (!fFinite (x.f 0x48) || condF .lt (x.f 0x48) (fDec 1 2) || condF .lt (fDec 5 1) (x.f 0x48)) 0x48 ++ least 0x4C ++
        x.field (!fFinite (x.f 0x50) || condF .lt 0 (x.f 0x50) || condF .le (x.f 0x50) (fNeg (x.f 0x14))) 0x50 ++ above 0x54 ++
        higher 0x58 0x54 ++ higher 0x5C 0x58 ++ x.field (!fPositive (x.f 0x60) || condF .lt (x.f 0x14) (x.f 0x60)) 0x60 ++
        x.field (outside (x.n 0x64 2) 10 2000) 0x64 ++ x.field (outside (x.n 0x66 2) 10 10000) 0x66 ++
        x.field (outside (x.n 0x68 2) 10 2000) 0x68 ++ x.field (outside (x.n 0x6A 2) 1 1000) 0x6A ++
        x.field (3 < x.n 0x6C 1) 0x6C ++ x.rsv 0x6D 3 ++
        x.field (whiskSb x.pay.data < whiskFloor x.pay.data) 0x18)

/-! ## The face -/

/-- µs of a frame before its idle time (R510). -/
def frameParts (c : List Byte) : Nat :=
  let rest := byteAt c 6
  let line := if rest = 2 || rest = 3 then leAt c 4 2 + 2 + byteAt c 7 else leAt c 4 2
  byteAt c 1 * line + (if rest = 1 then 2 + byteAt c 7 else 0) + (if byteAt c 0x20 = 1 then 60 else 0)

/-- R504 with Table 17.1. A frame that does not fit is reported at FRAME_US. -/
def faceFails (m : Image) (x : EntryAt) : List VFail :=
  let p := x.pay.pot
  let tsrc := x.n 0x0E 1
  let fv := x.n 0x20 1
  let lp := match payloadOf m.scripts 0x103 with
    | some q => byteAt q.data 1 == 1
    | none => false
  x.pot (m.facePot == p && p < 16) ++
    x.sized (x.pay.data.length == 64)
      (x.field (outside (x.n 0 1) 1 96) 0 ++ x.field (outside (x.n 1 1) 1 16) 1 ++
        x.field (outside (x.n 2 2) 500 5000 || x.n 2 2 < frameParts x.pay.data) 2 ++ x.field (outside (x.n 4 2) 24 1000) 4 ++
        x.field (3 < x.n 6 1) 6 ++ x.field (outside (x.n 7 1) 2 20) 7 ++ x.field (outside (x.n 8 1) 1 100) 8 ++
        x.field (outside (x.n 9 1) 1 100) 9 ++ x.field (x.n 10 1 < 2) 10 ++ x.field (1 < x.n 12 1) 12 ++
        x.field (4 < tsrc || (1 ≤ tsrc && m.owner (0x020 + tsrc - 1) != p)) 0x0E ++ x.field (1 < x.n 15 1) 15 ++
        x.field (x.n 0x10 4 % 4 != 0 || !m.inWindow p (x.n 0x10 4) 3072) 0x10 ++
        x.field (if fv = 0 then x.n 0x14 4 != 0 else x.n 0x14 4 % 4 != 0 || !m.inWindow p (x.n 0x14 4) 3088) 0x14 ++
        x.field (outside (x.n 0x18 2) 300 1200) 0x18 ++ x.field (outside (x.n 0x1A 2) 4096 8191) 0x1A ++
        x.field (x.n 0x1C 4 == 0) 0x1C ++ x.field (1 < fv || (fv == 1 && lp)) 0x20 ++ x.field (x.n 0x21 1 == 0) 0x21 ++
        x.field (outside (x.n 0x22 2) 600 2000) 0x22 ++ x.field (4095 < x.n 0x24 2) 0x24 ++
        x.field (outside (x.n 0x26 2) (x.n 0x24 2) 4095) 0x26 ++ x.field (outside (x.n 0x28 2) 1 256) 0x28 ++ x.rsv 0x2A 22)

/-- R504, the cases that stand at OWN. -/
def faceNeeded (m : Image) (own : Sect) : List VFail :=
  needed own 8 m 0x060 (payloadOf m.scripts 0x700).isSome ++
    (m.faceRegions.zipIdx).flatMap fun p => badIf 8 (p.1.owner < 16 && !(m.facePot < 16)) (own.off + 0x480 + 8 * p.2)

/-- One step of a stencil (Table 17.6). Bits of ARG outside a step's field are reserved (log 37). -/
def stencilFailsAt (x : EntryAt) (i : Nat) : List VFail :=
  let o := 8 + 8 * i
  let op := x.n o 1
  let par := x.n (o + 5) 1 == 1
  let w := x.n (o + 3) 1
  let h := x.n (o + 4) 1
  let arg := x.n (o + 6) 2
  let argBad : Bool :=
    if op = 1 then (if par then 4 ≤ arg else 4096 ≤ arg)
    else if op = 2 then arg != 0
    else if op = 3 then x.pay.data.length < arg + (w * h + 7) / 8
    else if op = 4 || op = 5 then 4 ≤ arg
    else false
  x.field (5 < op) o ++ x.field ((op == 1 && w != 0) || (op == 4 && outside w 1 6)) (o + 3) ++
    x.field (op == 1 && h != 0) (o + 4) ++ x.field (2 ≤ x.n (o + 5) 1) (o + 5) ++ x.field argBad (o + 6)

/-- R522. -/
def stencilFails (m : Image) (x : EntryAt) : List VFail :=
  let p := x.pay.pot
  let nstep := x.n 1 1
  let owned := match m.faceRegion (x.n 0 1) with
    | some r => r.owner == p
    | none => false
  x.sized (8 ≤ x.pay.data.length && (outside nstep 1 32 || 8 + 8 * nstep ≤ x.pay.data.length))
    (x.pot (15 < x.n 0 1 || owned) ++ x.field (15 < x.n 0 1) 0 ++ x.field (outside nstep 1 32) 1 ++
      x.field (x.n 2 4 % 4 != 0 || !m.inWindow p (x.n 2 4) 16) 2 ++ x.rsv 6 2 ++ (upTo (min nstep 32)).flatMap (stencilFailsAt x))

/-! ## Fans and actuators -/

/-- R476 with Table 16.2. -/
def fanFails (m : Image) (x : EntryAt) : List VFail :=
  let c := x.pay.data
  let tsrc := x.n 1 1
  let dmin := x.n 6 2
  let kick := x.n 4 2
  let bands := (upTo 4).map (fun b => (x.n (0x20 + 4 * b) 2, x.n (0x22 + 4 * b) 2))
  let up := fun (r : Nat) => fanT c (r - 1) < fanT c r && fanRelease c (r - 1) < fanRelease c r
  x.pot (m.owner x.pay.key == x.pay.pot && x.pay.pot < 16) ++
    x.sized (c.length == 112)
      (x.field (outside (x.n 0 1) 1 4) 0 ++
        x.field (4 < tsrc || (1 ≤ tsrc && m.owner (0x020 + tsrc - 1) != x.pay.pot)) 1 ++ x.field (1024 < x.n 2 2) 2 ++
        x.field ((kick != 0 && outside kick dmin 4095) || bands.any (fun b => b.1 != 0 && b.1 ≤ kick && kick < b.2)) 4 ++
        x.field (outside dmin 1 4095) 6 ++ x.field (outside (x.n 8 2) dmin 4095) 8 ++ x.field (4095 < x.n 10 2) 10 ++
        x.field (outside (x.n 12 2) 1 16383) 12 ++ x.field (outside (x.n 14 2) 1 16383) 14 ++
        x.field (outside (x.n 16 2) (max (x.n 12 2) (x.n 14 2)) 16383) 16 ++ x.field (outside (x.n 18 2) 1 4096) 18 ++
        x.field (4095 < x.n 20 2) 20 ++ x.field (x.n 22 2 < 16) 22 ++ x.field (!fFinite (x.f 0x18)) 0x18 ++
        x.field (!fFinite (x.f 0x1C)) 0x1C ++
        (bands.zipIdx).flatMap (fun q =>
          let b := q.1
          let used := b.1 != 0 || b.2 != 0
          let meets := (bands.take q.2).any (fun a => a.1 != 0 && b.1 != 0 && a.1 < b.2 && b.1 < a.2)
          x.field ((used && (b.1 == 0 || b.2 ≤ b.1)) || meets) (0x20 + 4 * q.2) ++ x.field (4095 < b.2) (0x22 + 4 * q.2)) ++
        (upTo 8).flatMap (fun r =>
          let o := 0x30 + 8 * r
          x.field (fanT c r < -550 || 1500 < fanT c r || (r == 0 && fanT c 0 != 0) || (2 ≤ r && !up r)) o ++
            x.field (200 < x.n (o + 2) 2 || (r == 0 && x.n (o + 2) 2 != 0)) (o + 2) ++ x.field (4095 < x.n (o + 4) 2) (o + 4) ++
            x.rsv (o + 6) 2))

/-- R494. -/
def aoFails (m : Image) (x : EntryAt) : List VFail :=
  x.pot (m.owner x.pay.key == x.pay.pot && x.pay.pot < 16) ++
    x.sized (x.pay.data.length == 8) (x.field (16383 < x.n 0 2) 0 ++ x.rsv 2 6)

/-- R495 with Table 16.5. -/
def doFails (m : Image) (x : EntryAt) : List VFail :=
  let k := x.pay.key
  let next := m.owner (k + 1)
  let floats := x.n 0 1 == 1
  x.pot (m.owner k == x.pay.pot && x.pay.pot < 16) ++
    x.sized (x.pay.data.length == 16)
      (x.field (1 < x.n 0 1 || (floats && (k % 2 == 1 || (payloadOf m.tables (k + 1)).isSome ||
          (next != 0xFF && next != x.pay.pot)))) 0 ++
        x.field (1 < x.n 1 1) 1 ++ x.field (outside (x.n 2 1) 5 50) 2 ++ x.rsv 3 1 ++
        x.field (outside (x.n 4 4) 1000 600000) 4 ++ x.field (outside (x.n 8 2) 10 1000) 8 ++
        x.field (outside (x.n 10 2) 1 256) 10 ++ x.rsv 12 4)

/-! ## The step -/

/-- The payload checks of one entry, by section and KEY. -/
def entryFails (m : Image) (x : EntryAt) : List VFail :=
  let k := x.pay.key
  if x.type = 9 then stencilFails m x
  else if x.type = 10 then
    if k ≤ 0x45 then fanFails m x else if k ≤ 0x4F then aoFails m x else doFails m x
  else if k < 16 then scriptFails m x
  else if k ≤ 0x103 then converterFails m x
  else if k ≤ 0x203 then groupFails m x
  else if k = 0x300 then senseFails x
  else if k = 0x301 then i2cFails x
  else if k ≤ 0x4FF then remoteFails x
  else if k = 0x500 then busFails m x
  else if k ≤ 0x601 then whiskFails m x
  else faceFails m x

/-- Entries that an owned channel needs. -/
def neededFails (m : Image) (own : Sect) : List VFail :=
  senseNeeded m own ++ remoteNeeded m own ++ faceNeeded m own ++
    (upTo 8).flatMap (fun k => needed own 8 m (0x028 + k) (m.i2c k).isSome) ++
    (upTo 2).flatMap (fun u => needed own 8 m (0x058 + u) (payloadOf m.scripts (0x600 + u)).isSome) ++
    (upTo 6).flatMap (fun f => needed own 10 m (0x040 + f) (payloadOf m.tables (0x040 + f)).isSome)

/-- Step 11. `addr` is the node's network address. -/
def payloadFails (m : Image) (addr : Nat) (ss : List Sect) : List VFail :=
  let lists := [(8, m.scripts), (9, m.stencils), (10, m.tables)].map (fun p =>
    (sectOf ss p.1, entryList (sectOf ss p.1) p.2))
  safeFails m addr (sectOf ss 4) ++ constFails (sectOf ss 6) ++ retainFails m (sectOf ss 7) ++
    lists.flatMap (fun p => containerFails p.1 p.2) ++
    lists.flatMap (fun p => p.2.flatMap (fun x => if keyKnown x.type x.pay.key then entryFails m x else [])) ++
    neededFails m (sectOf ss 3)

end Sys2Proof.Machine
end

