-- ==== Sys2Proof/Machine/Accept.lean ====
section
/-! DEFINITION. Acceptance of an image (Table 6.10): steps 9 and 10 over its code, 12 to 14, and the whole order with its
outcome (R69, R84, R104, R172, R183, R185, R191, R197, R198, R270, R345, R397, R434, R577). -/

namespace Sys2Proof.Machine

/-! ## Step 9 -/

/-- The functions of an image as the verifier sees them, offsets counted from the start of CODE. -/
def Image.vfns (m : Image) : List VFn :=
  m.fns.zipIdx.map fun p =>
    let body := decodeBody (p.1.code.length + 1) 0 p.1.code
    { index := p.2, pot := p.1.pot, args := p.1.args, results := p.1.results, nlocals := p.1.nlocals,
      offset := p.1.offset - m.codeOffset, size := p.1.code.length, ins := body.1, bad := body.2 }

/-- Table 6.9: one entry of the function table. -/
def tableFails (m : Image) (s : Sect) (nf i : Nat) : List VFail :=
  let e := 16 + 16 * i
  let o := leAt s.data e 4
  let n := leAt s.data (e + 4) 4
  let nargs := byteAt s.data (e + 9)
  let nres := byteAt s.data (e + 10)
  let ty := leAt s.data (e + 12) 4
  let bad := fun (b : Bool) (k : Nat) => failIf b 0x0D i (s.off + e + k)
  let keep := ty % 4 ^ (min nargs 8) + 65536 * (ty / 65536 % 4 ^ (min nres 4))
  bad (o < 16 + 16 * nf || s.len < o + n) 0 ++ bad (n == 0) 4 ++
    bad (15 < byteAt s.data (e + 8) || !m.declared (byteAt s.data (e + 8))) 8 ++ bad (8 < nargs) 9 ++ bad (4 < nres) 10 ++
    bad (outside (byteAt s.data (e + 11)) nargs 64) 11 ++ bad (ty != keep) 12

/-- Bytes of CODE after its table that lie in no body and are not 0. -/
def paddingFails (s : Sect) (nf : Nat) (spans : List (Nat × Nat × Nat)) : List VFail :=
  let from' := 16 + 16 * nf
  ((s.data.drop from').zipIdx).filterMap fun b =>
    let o := from' + b.2
    if b.1 != 0 && !spans.any (fun p => p.1 ≤ o && o < p.1 + p.2.1) then
      some { detail := 0x03, index := 5, offset := s.off + o }
    else none

/-- R172: each entry is a function of the task's pot without arguments or results. -/
def entryFnFails (m : Image) (route t : Nat) : List VFail :=
  match m.route t with
  | none => []
  | some r =>
    let ok := fun (g : Nat) => match m.fns[g]? with
      | some f => f.pot == r.pot && f.args.isEmpty && f.results.isEmpty
      | none => false
    failIf (!ok r.cold) 0x0E t (route + 32 * t + 0x0C) ++ failIf (!ok r.warm) 0x0E t (route + 32 * t + 0x0E) ++
      failIf (!ok r.cyclic) 0x0E t (route + 32 * t + 0x10)

/-- Step 9. CODE is as long as its table and its bodies (R185); a function count out of range breaks the layout at NFUNC
(R191; DEDUCED, log 173). -/
def codeFails (m : Image) (fns : List VFn) (ss : List Sect) : List VFail :=
  let s := sectOf ss 5
  let nf := leAt s.data 0 4
  let own := entriesOf s 16
  let spans := own.map (fun i => (leAt s.data (16 + 16 * i) 4, leAt s.data (20 + 16 * i) 4, i))
  failIf (s.len != lastEnd (16 + 16 * nf) spans) 0x02 5 0x78 ++ failIf (nf == 0 || 1024 < nf) 0x02 5 s.off ++
    (upTo 64).flatMap (entryFnFails m (sectOf ss 2).off) ++ own.flatMap (tableFails m s nf) ++
    (overlaps spans).map (fun i => { detail := 0x0D, index := i, offset := s.off + 16 + 16 * i }) ++
    paddingFails s nf spans ++ fns.flatMap (fun f => f.fails fns s.off) ++ callFails fns s.off

/-! ## Worst cases -/

/-- The largest of a worst case over the three entries of each task (R104, R183). -/
def Image.worstTasks (m : Image) (w : List Nat) : List Nat :=
  (upTo 64).map fun t =>
    match m.route t with
    | some r => max (w.getD r.cold 0) (max (w.getD r.warm 0) (w.getD r.cyclic 0))
    | none => 0

/-- A worst case of every task for a weight of each instruction. -/
def Image.worst (m : Image) (fns : List VFn) (weight : RhIns → Nat) : List Nat :=
  m.worstTasks (worstAll fns (fns.map (fun f => (f.walk fns).reached)) weight 16)

/-- Step 10. The totals of R128 lie at no offset. -/
def namesFails (m : Image) (addr : Nat) (fns : List VFn) (ss : List Sect) : List VFail :=
  let base := (sectOf ss 5).off
  let route := (sectOf ss 2).off
  let e := elementFails route m.names
  let stores := (m.worst fns (fun x => x.info.stores)).zipIdx.flatMap fun p =>
    failIf (512 < p.1) 0x12 p.2 (route + 32 * p.2)
  refFails m addr base fns ++ writerFails m base fns m.names ++ e.1 ++ stores ++ failIf e.2 0x11 0xFFFF 0xFFFFFFFF

/-! ## Steps 12 to 14 -/

/-- R69. -/
def Image.planOk (m : Image) : Bool :=
  let on := fun (n : Nat) => m.cls n == .on
  let some' := fun (n : Nat) => m.cls n != .off
  let pots := fun (b : Bool) (dep prov : Nat) => !b || !some' dep || some' prov
  let lanes := (upTo 64).all (fun t => match m.route t with | some r => on (2 + r.lane / 11) | none => true)
  let chans := (upTo 512).all (fun ch => !(m.owner ch < 16) || (channelDomains ch).all some')
  let slots := (upTo 16).all (fun n => !(m.slotOwn.getD n 0xFF < 16) || some' (8 + n / 4))
  let faces := m.faceRegions.all (fun r => !(r.owner < 16) || some' 15)
  let cross := [0x058, 0x059].all (fun w => (upTo 16).all (fun i =>
    pots (m.owner w < 16 && m.owner (0x010 + i) == m.owner w) 13 (8 + i / 4)))
  let fans := (upTo 6).any (fun f => (payloadOf m.tables (0x40 + f)).isSome && byteAt (m.tableOf (0x40 + f)) 1 != 0)
  [0, 1, 2, 6, 7].all on && lanes && chans && slots && faces && (!on 12 || on 10) && (!some' 12 || some' 10) &&
    pots (m.owner 0x058 < 16) 13 8 && pots (m.owner 0x059 < 16) 13 9 && cross && pots fans 14 11 &&
    pots (byteAt m.faceCfg 0x20 == 1) 15 11

/-- The budget B of a window (R183). -/
def budgetOf (length : Nat) : Nat := (90 * ((length * 5979 - 300) / 100) - 1) * 10 / 11

/-- Step 13: R84 and R183, by the lane map `l`. -/
def budgetFails (l : LaneState) (m : Image) (route : Nat) : List VFail :=
  (upTo 64).flatMap fun t =>
    match m.route t with
    | none => []
    | some r =>
      failIf (l.served r.lane).isNone 0x30 t (route + 32 * t) ++
        failIf (budgetOf r.length < m.work.getD t 0) 0x31 t (route + 32 * t)

/-- Step 14 (R270). -/
def StoreState.larderOk (s : StoreState) (m : Image) : Bool :=
  let remap := (upTo 0x200).any (fun k => s.lost.contains (0x200 + k) && s.lost.contains (0x400 + k))
  !remap && (upTo 6).all (fun i => !s.lost.contains (0x80 + i)) &&
    [0x80, 0x81, 0x83, 0x84, 0x85, 0x86, 0x87, 0x8B].all (fun g => s.paramOk g m.role m.lineEn)

/-! ## The whole order -/

/-- A refused image: failing step, tollgate cause (Table 9.11) and what Table 6.11 reports. -/
structure Verdict where
  step : Nat
  cause : Nat
  fail : VFail
  deriving DecidableEq, Repr

/-- A failure of a step whose cause suffices, at the field that breaks its rule. -/
def plainFail (ok : Bool) (offset : Nat) : List VFail := failIf (!ok) 0 0xFFFF offset

/-- Step 2: MAGIC and HCRC. -/
def magicFails (img : List Byte) : List VFail :=
  plainFail (img.take 4 == [0x48, 0x46, 0x4E, 0x49]) 0 ++ plainFail (crc32 (img.take 0xFC) == leAt img 0xFC 4) 0xFC

/-- Step 5: fingerprint and signature (R196), at the field of SIG that breaks it: the public key, the point R, the scalar S,
or the signature for the equation (DEDUCED, log 173). `finger` is the fingerprint of the larder's provisioning area. -/
def signatureFails (img : List Byte) (ss : List Sect) (finger : List Byte) : List VFail :=
  let sig := sectOf ss 12
  let pk := sig.data.take 32
  let s := sig.data.drop 32
  let msg := zeroed (zeroed (img.take sig.off) 0xEC 4) 0xFC 4
  let low := decide (leNat (s.drop 32) < edL)
  plainFail (finger.any (· != 0) && sha256 pk == finger && goodPoint pk) sig.off ++
    plainFail (goodPoint (s.take 32) && (!low || ed25519Verify pk msg s)) (sig.off + 0x20) ++ plainFail low (sig.off + 0x40)

/-- The first step of the order that finds a failure, with the failure that R577 reports. -/
def firstFail : List (Nat × Nat × (Unit → List VFail)) → Option Verdict
  | [] => none
  | (step, cause, f) :: r =>
    match lowestFail (f ()) with
    | some v => some { step := step, cause := cause, fail := v }
    | none => firstFail r

/-- The image of a bank as acceptance derives it: its declarations, and what its code names and needs. -/
def imageOf (bankB : Bool) (img : List Byte) : Image :=
  let m := parseImage bankB img
  let fns := m.vfns
  { m with
    names := (upTo 64).map (fun t => match m.route t with
      | some r => taskNamesOf fns r
      | none => { inputs := [], outputs := [], streams := [], hatches := [], regs := [], slots := [] }),
    work := m.worst fns (fun x => x.info.cost) }

/-- Steps 2 to 14 of Table 6.10 on the image of a bank, by the lane map `l`. -/
def Dev.judgeImage (d : Dev) (b : Bool) (l : LaneState) : Image × Option Verdict :=
  let bank := d.store.bank b
  let img := bank.dense (max 256 (min 1048576 (Mem.readLE zeroByte bank.bytes 8 4)))
  let ss := sectionsOf img
  let m := imageOf b img
  let fns := m.vfns
  let addr := d.netAddr
  let finger := (upTo 4).flatMap (fun i => d.store.group (4 + i))
  (m, firstFail
    [(2, 3, fun _ => magicFails img), (3, 5, fun _ => layoutFails img), (4, 3, fun _ => crcFails ss),
     (5, 4, fun _ => signatureFails img ss finger),
     (6, 0xA, fun _ => plainFail (strapsOk m.straps d.sys.hostSel.toNat d.sys.tstrap.toNat) 0x14),
     (7, 5, fun _ => potsFails (sectOf ss 1) ++ routeFails m (sectOf ss 2) ++ ownFails m (sectOf ss 3)),
     (8, 6, fun _ => clashFails m (sectOf ss 3)), (9, 5, fun _ => codeFails m fns ss),
     (10, 5, fun _ => namesFails m addr fns ss), (11, 5, fun _ => payloadFails m addr ss),
     (12, 0xB, fun _ => plainFail m.planOk (sectOf ss 11).off), (13, 7, fun _ => budgetFails l m (sectOf ss 2).off),
     (14, 8, fun _ => plainFail (d.store.larderOk m) 0xFFFFFFFF)])

/-- SYS.VFY_A and SYS.VFY_B take a failure, or what an acceptance leaves (R198). -/
def SysState.verified (s : SysState) (v : Option Verdict) : SysState :=
  match v with
  | none => { s with vfyStep := 0, vfyDetail := 0, vfyIndex := 0xFFFF, vfyOffset := 0xFFFFFFFF }
  | some v => { s with vfyStep := BitVec.ofNat 4 v.step, vfyDetail := BitVec.ofNat 8 v.fail.detail,
                       vfyIndex := BitVec.ofNat 16 v.fail.index, vfyOffset := BitVec.ofNat 32 v.fail.offset }

/-- One acceptance attempt on a bank: SYS.VFY_A and SYS.VFY_B take its outcome (R198). Its answer is the accepted image,
or the cause of its refusal. A start-up judges by a fresh lane map (R83), a bank switch by the present one (R233). -/
def Dev.attempt (b fresh : Bool) (d : Dev) : Dev × Option Image × Nat :=
  let r := d.judgeImage b (if fresh then d.lane.remap else d.lane)
  ({ d with sys := d.sys.verified r.2 },
    match r.2 with
    | none => (some r.1, 0)
    | some v => (none, v.cause))

end Sys2Proof.Machine
end

