-- ==== Sys2Proof/Machine/Boot.lean ====
section
/-! DEFINITION. Reset, the steps of start-up, image selection, and entry to READY or TOLLGATE (09). -/

namespace Sys2Proof.Machine

/-! ## What a reset keeps (R256, R257, Table 9.2) -/

/-- Every STORE command, switch and host transaction aborted (R232, R256); a command in progress is the last to report. -/
def Dev.storeReset (words : Nat) (d : Dev) : Dev :=
  let d1 := if d.store.txn.isSome then d.onStore (fun s => { s.setResult 6 0xB with txn := none }) else d
  let d2 := if d1.store.sw != .idle then d1.onStore (fun s => { s.setResult 4 0xB with sw := .idle }) else d1
  match d2.store.busy with
  | some o => d2.abortBusy o words
  | none => d2

/-- A loss of PD0 or PD7 (R256): `landed` of the queued group writes are made; of the rest only journaled transactions
remain, for recovery (R249). The counts of the wear blocks are held no longer (R579). -/
def Dev.losePower (worn : List Nat) (landed : Nat) (d : Dev) : Dev :=
  (Dev.landMany worn (min landed (queueLength d.store.queue)) d).onStore fun s =>
    { s with wear := [], queue := s.queue.filter (fun w =>
        match w with
        | .txn _ => true
        | .imm _ _ _ => false) }

/-- The time base at a reset: SI time and the parameters of the larder go on, the lock and the count start afresh. A
reset that acts at its instant leaves the running milestone to its boundary (R255, R257). -/
def TimeState.atReset (t : TimeState) (warm boundary : Bool) : TimeState :=
  { TimeState.reset with
    now := t.now, msStart := if boundary then t.now else t.msStart, msLen := if boundary then 20000000 else t.msLen,
    wm := if boundary then 0 else t.wm, count := if boundary then 0 else t.count,
    starts := if boundary then [t.now] else t.starts, zcOffset := t.zcOffset, zcPhase := t.zcPhase, zcMode := t.zcMode,
    compK := t.compK, compT0 := t.compT0, compD := t.compD, dieTemp := t.dieTemp, dieShown := t.dieShown,
    cntLoss := if warm then t.cntLoss else 0, cntRange := if warm then t.cntRange else 0,
    cntXtal := if warm then t.cntXtal else 0, cntMismatch := if warm then t.cntMismatch else 0 }

/-- The domains at a reset (R255, R256, R265): those of Table 9.6 on, usable where they already are. -/
def PowerState.atReset (p : PowerState) (warm boundary : Bool) : PowerState :=
  let p1 := { p with switches := if warm then p.switches else 0 }
  let p2 := p1.switchTo (p.on &&& tollgateOn)
  let p3 := if boundary then p2.switchTo tollgateOn else p2
  { PowerState.reset with
    on := p3.on, ready := p3.ready, switches := if warm then p3.switches else 0
    refused := if warm then p.refused else 0
    faults := if warm then p.faults else 0
    vnow := vmapi (fun i (v : BitVec 11) =>
      if !p3.on.getLsbD i then 0 else if p.on.getLsbD i then v else BitVec.ofNat 11 (vFloor i)) p.vnow
    vlow := if warm then p.vlow else PowerState.reset.vlow }

/-- The device registers at a reset; the progress of start-up is set by the caller. A warm or cold reset at its instant leaves
the resets already recognised to the boundary that they wait for (R255). -/
def SysState.atReset (s : SysState) (r : PendReset) (boundary : Bool) : SysState :=
  { SysState.reset with
    voidHob := s.voidHob && r.kind != .powerOn
    tollAuto := if r.kind = .warm then (if r.source = 7 then s.tollAuto + 1 else s.tollAuto) else 0
    tstrap := if r.kind = .powerOn then 0 else s.tstrap
    provEn := s.provEn && r.kind != .powerOn
    hostSel := if r.kind = .powerOn then 1 else s.hostSel
    rstSource := BitVec.ofNat 4 r.source, rstKind := r.kind, rstPd := BitVec.ofNat 4 r.faultPd
    rstCount := if r.kind = .powerOn then 0 else satInc s.rstCount
    pendResets := if boundary || r.kind == .powerOn then [] else s.pendResets
    lastKind := r.kind, recorded := s.recorded, acked := s.acked, resetHeld := s.resetHeld }

/-- A pot at a reset (R108, R163, R166, R184). -/
def PotState.atReset (p : PotState) (warm : Bool) : PotState :=
  if warm then
    { PotState.reset with overruns := p.overruns, restarts := p.restarts, denied := p.denied, memFault := p.memFault,
                          arith := p.arith, constF := p.constF, heldCrc := p.heldCrc,
                          armed := p.armed }
  else PotState.reset

/-- The control cycle at a reset; a cold reset clears the worktop at start-up step 7 (R265). PEAK, a largest value since the pot
started, is no counter that a warm reset keeps (DESIGN CHOICE, log 164). -/
def CycleState.atReset (c : CycleState) (k : ResetKind) : CycleState :=
  let warm := k == ResetKind.warm
  { CycleState.reset with
    worktop := if k = .powerOn then [] else c.worktop
    pots := vmap (fun p => PotState.atReset p warm) c.pots
    ovrTask := if warm then c.ovrTask else 0, ovrCause := if warm then c.ovrCause else 0,
    ovrPot := if warm then c.ovrPot else 0, ovrCount := if warm then c.ovrCount else 0,
    ovrMs := if warm then c.ovrMs else 0 }

/-- The STORE block, pantry and larder at a reset (Table 8.2). -/
def StoreState.atReset (s : StoreState) (warm : Bool) : StoreState :=
  let fresh := fun (b : Bank) => { b with reported := [] }
  { s with
    bankA := fresh s.bankA, bankB := fresh s.bankB, arg0 := 0, arg1 := 0, buf := Vector.replicate 64 0,
    result := if warm then s.result else 0, op := if warm then s.op else 0, progress := if warm then s.progress else 0,
    busy := none, sw := .idle, vfyCause := 0, swAt := 0, txn := none, committedAt := none,
    corrected := if warm then s.corrected else 0, lostCount := if warm then s.lostCount else 0,
    redone := 0, rolled := 0, crcLost := 0,
    pCorrected := if warm then s.pCorrected else 0, pUncorr := if warm then s.pUncorr else 0,
    regions := StoreState.reset.regions, patrolWord := 0, patrolGroup := 0, logCount := 0, logLost := 0, logPend := [] }

/-- A slice at a reset: its retirement and its failures last (R580). -/
def Slice.atReset (s : Slice) : Slice :=
  { s with duty := if s.duty = .retired then .retired else .idle, pos := 0, attempts := 0, coef := Coef.none }

/-- The Mandolines at a reset (Tables 10.3, 10.7, R307, R316). -/
def MandoState.atReset (m : MandoState) (warm : Bool) : MandoState :=
  { MandoState.reset with
    conv := vmap (fun (c : Converter) =>
      { Converter.reset with slices := vmap Slice.atReset c.slices, exchanges := if warm then c.exchanges else 0 }) m.conv
    cx := vmap (fun (x : Crossing) => { Crossing.reset with asserts := if warm then x.asserts else 0 }) m.cx
    groups := vmap (fun (g : SampleGroup) =>
      { SampleGroup.reset with fires := if warm then g.fires else 0, missed := if warm then g.missed else 0 }) m.groups
    slots := vmap (fun (s : Slot) =>
      { Slot.reset with runs := if warm then s.runs else 0, ignored := if warm then s.ignored else 0 }) m.slots }

/-- The sensing front ends at a reset (Tables 11.5, 11.6). -/
def SenseState.atReset (s : SenseState) (warm : Bool) : SenseState :=
  { SenseState.reset with
    stuck := if warm then s.stuck else 0, timeout := if warm then s.timeout else 0
    i2c := vmap (fun (x : I2cDev) =>
      { I2cDev.reset with good := if warm then x.good else 0, err := if warm then x.err else 0 }) s.i2c }

/-- A Whisk unit at a reset (R472, Table 15.10). -/
def Whisk.atReset (w : Whisk) (warm : Bool) : Whisk :=
  { Whisk.reset with flt := w.flt, trips := if warm then w.trips else 0, shorts := if warm then w.shorts else 0,
                     losses := if warm then w.losses else 0 }

/-- The Line at a reset (Tables 12.9, 13.6): what the larder gives is loaded again. PD12 goes off, so a frame being sent is cut
(R256, R371). -/
def LineState.atReset (l0 : LineState) (warm : Bool) : LineState :=
  let l := l0.offPd12
  let k := fun (c : BitVec 16) => if warm then c else 0
  { LineState.reset with
    cfg := l.cfg, params := l.params, key := l.key, lseq := l.lseq, busyUntil := l.busyUntil, carrierAt := l.carrierAt,
    bandUse := l.bandUse, rxCarrier := k l.rxCarrier, rxTone := k l.rxTone, bannerFail := k l.bannerFail,
    checkFail := k l.checkFail, burstLost := k l.burstLost, burstSaved := k l.burstSaved, captured := k l.captured,
    rxPreempt := k l.rxPreempt, bubbles := k l.bubbles, txFrames := k l.txFrames, txCut := k l.txCut,
    txDefer := k l.txDefer, ackFail := k l.ackFail, replay := k l.replay, micFail := k l.micFail, fmtFail := k l.fmtFail,
    hopDrop := k l.hopDrop, cvLate := k l.cvLate, cvDefer := k l.cvDefer, tooLong := k l.tooLong,
    noRoute := k l.noRoute }

/-- The seat at a reset: free, no session, not ESTRANGED (R256); a run of failed RESPONDs lasts but for a power-on, counted
afresh from 0:0 (R427; DEDUCED, log 38). -/
def SeatState.atReset (s : SeatState) (k : ResetKind) : SeatState :=
  let c := fun (x : BitVec 8) => if k = .warm then x else 0
  { SeatState.reset with
    failRun := if k = .powerOn then 0 else s.failRun
    badCrc := c s.badCrc, badSeq := c s.badSeq, authFail := c s.authFail, idleFree := c s.idleFree }

/-- The bus at a reset: both queues emptied (R542), BUS_DE deasserted (R274). -/
def BusState.atReset (b : BusState) (warm : Bool) : BusState :=
  let k := fun (c : BitVec 16) => if warm then c else 0
  { BusState.reset with
    mac := b.mac, baud := b.baud, maxMaster := b.maxMaster, maxInfo := b.maxInfo, devInst := b.devInst, busEn := b.busEn,
    framesRx := k b.framesRx, crcErr := k b.crcErr, tokenLost := k b.tokenLost, drop := k b.drop }

/-- Every state of Table 9.2 and of the block chapters as a reset leaves it, its larder writes apart. -/
def Dev.afterReset (r : PendReset) (boundary : Bool) (d : Dev) : Dev :=
  let warm := r.kind == .warm
  let on := r.kind == .powerOn
  { d with
    time := if on then TimeState.reset else d.time.atReset warm boundary
    power := if on then PowerState.reset else d.power.atReset warm boundary
    sys := d.sys.atReset r boundary
    lane := { d.lane with hostDenied := 0 }
    cycle := d.cycle.atReset r.kind
    image := noImage
    store := d.store.atReset warm
    mando := d.mando.atReset warm
    sense := d.sense.atReset warm
    whisk := vmap (fun w => Whisk.atReset w warm) d.whisk
    fan := { d.fan.atReset warm with shdnCount := if on then 0 else d.fan.shdnCount, lastNs := if on then 0 else d.fan.lastNs }
    face := { d.face.atReset warm with frameEnd := if on then 0 else d.face.frameEnd }
    line := if on then LineState.reset else d.line.atReset warm
    seat := d.seat.atReset r.kind
    bus := if on then BusState.reset else d.bus.atReset warm }

/-- Whether a reset finds the larder without power (R256). -/
def PendReset.cutsLarder (r : PendReset) : Bool := r.kind == .powerOn || (r.source == 6 && r.faultPd == 7)

/-- One reset carried out (R254 to R257); `boundary` tells that it takes the place of a milestone boundary, which becomes
0:0. While RESET_N stays low start-up is held; otherwise step 6 waits for the domains of Table 9.6. -/
def Dev.doReset (r : PendReset) (boundary : Bool) (e : ResetEnv) (d : Dev) : Dev :=
  let d1 := (d.storeReset e.words).lanesAtReset.logFlush
  let d2 := if r.cutsLarder then d1.losePower e.worn e.landed else (d1.landAll e.worn).logFlush
  let d3 := d2.afterReset r boundary
  let ready := boundary && r.kind != .powerOn && d3.power.ready == tollgateOn
  (if boundary then d3.readDie e.die else d3).onSys fun s =>
    if s.resetHeld then { s with boot := .held, progress := 1 }
    else { s with boot := if ready then .larder else .wait, zeroNext := !boundary && r.kind != .powerOn }

/-- Among causes that take effect together, the one whose kind keeps least, and of those the lower code (R284). -/
def pickReset (a b : PendReset) : PendReset :=
  let ka := a.kind.code
  let kb := b.kind.code
  if kb < ka || (ka = kb && b.source < a.source) then b else a

/-- Power-on, cold and warm are coded 1, 2 and 3, so the lower code keeps less. -/
def pickResets : List PendReset → Option PendReset
  | [] => none
  | r :: rs =>
    match pickResets rs with
    | some x => some (pickReset r x)
    | none => some r

/-- RESET_APPLY: the pending resets take effect at the coming waymark boundary, which is a milestone boundary and which they
replace (R47, R255). Inside a milestone the row finds no boundary to replace. -/
def Dev.resetApply (e : ResetEnv) (d : Dev) : Dev :=
  if d.time.wm ≠ 255 then d
  else
    match pickResets d.sys.pendResets with
    | none => d
    | some r =>
      let t := d.time.msStart + d.time.msLen
      (d.onTime fun x => { x with now := t }).doReset r true e

/-- POWER_ON (R254, R265). -/
def Dev.powerOn (e : ResetEnv) (d : Dev) : Dev := d.doReset { source := 1, kind := .powerOn, faultPd := 0 } true e

/-- BROWN_OUT (R254). -/
def Dev.brownOut (e : ResetEnv) (d : Dev) : Dev := d.doReset { source := 2, kind := .powerOn, faultPd := 0 } true e

/-- RESET_N held low for its minimum pulse (R255). -/
def Dev.resetN (d : Dev) : Dev :=
  if d.sys.resetHeld then d else (d.orderReset 3 .cold).onSys fun s => { s with resetHeld := true }

/-- RESET_N_RELEASE: held start-up begins at the next milestone boundary (R255). -/
def Dev.resetRelease (d : Dev) : Dev :=
  d.onSys fun s => { s with resetHeld := false, zeroNext := s.zeroNext || (s.resetHeld && s.boot == .held) }

/-- DOMAIN_FAULT of any domain (R80, Table 3.7, Table 9.1). -/
def Dev.domainFaultAny (n : Fin 16) (e : ResetEnv) (d : Dev) : Dev :=
  if !d.pdOn n.val then d
  else if (tollgateOn).getLsbD n.val then
    let m : BitVec 16 := 1#16 <<< n.val
    let d1 := (d.onPower fun p =>
      { p with on := p.on &&& ~~~m, ready := p.ready &&& ~~~m, faults := satInc p.faults }).dropVcore n.val |>.event 0x04 n.val 0 0 0
    d1.doReset { source := 6, kind := if n.val = 0 then .powerOn else if n.val = 6 then .cold else .warm,
                 faultPd := n.val } (n.val = 0) e
  else d.domainFault e.at' n.val

/-- A device parameter of group 0x0085, or its factory value (Table 9.9). -/
def Dev.bootParam (d : Dev) (lo n : Nat) : Nat := leAt (d.store.param 0x85) lo n

/-- Whether the automatic reset of R282 is due at the coming milestone boundary. -/
def Dev.tollAutoDue (d : Dev) : Bool :=
  match d.sys.hobMs with
  | some h =>
    d.sys.mode == .tollgate && d.sys.tollCause == 9 && d.bootParam 2 2 != 0 && d.sys.tollAuto.toNat < 3 &&
      decide (h + d.bootParam 2 2 ≤ d.ms + 1)
  | none => false

/-- The automatic reset ordered where it is due. -/
def Dev.tollAutoOrder (d : Dev) : Dev := if d.tollAutoDue then d.orderReset 7 .warm else d

/-- TOLL_AUTO_RESET (R282). -/
def Dev.tollAutoReset (e : ResetEnv) (d : Dev) : Dev :=
  if d.tollAutoDue && d.time.wm == 255 then d.tollAutoOrder.resetApply e else d

/-- TOLL_AUTO_CLEAR (R282): 65,536 consecutive milestones in RUN return AUTO to 0. -/
def Dev.tollAutoClear (d : Dev) : Dev :=
  if d.sys.mode = .run && decide (d.sys.runMs + 65536 ≤ d.ms) then d.onSys fun s => { s with tollAuto := 0 } else d

/-- BOOT_READ (R272). -/
def Dev.bootRead (d : Dev) : Dev := { d with seat := { d.seat with attnBoot := false } }

/-- STRAP_LATCH (R262, R263): once after each reset. The level of HOSTSEL is read with its pull-up and with its pull-down:
low both times LOCAL, high both times REMOTE, following the pull EITHER, against the pull LOCAL (R555). -/
def Dev.strapLatch (tstrap : BitVec 3) (prov up down : Bool) (d : Dev) : Dev :=
  if d.sys.strapped || d.sys.boot = .held || d.sys.zeroNext then d
  else d.onSys fun s =>
    { s with strapped := true, tstrap, provEn := prov,
             hostSel := if up && down then 2 else if up then 3 else 1 }

/-! ## Step 6: parameters (R270, R580, R572) -/

/-- TIME.ZC, TIME.XCOMP_A and TIME.XCOMP_D loaded (Tables 2.1 and 2.4). -/
def TimeState.load (t : TimeState) (s : StoreState) : TimeState :=
  let z := leAt (s.param 0x80) 0 4
  let x := s.param 0x81
  { t with zcOffset := BitVec.ofNat 15 z, zcPhase := BitVec.ofNat 2 (bitsOf z 17 16), zcMode := BitVec.ofNat 2 (bitsOf z 19 18),
           compK := BitVec.ofNat 16 (leAt x 0 2), compT0 := BitVec.ofNat 16 (leAt x 2 2),
           compD := BitVec.ofNat 32 (leAt x 4 4) }

/-- LINE.PHY_CFG, the network parameters, key and LSEQ loaded (R345, R384, R397). LSEQ does not pass the point from which the
node is silent (DEDUCED, log 171). -/
def LineState.load (l : LineState) (s : StoreState) : LineState :=
  let p := s.param 0x87
  let n := leAt p 0 8
  { l with
    cfg := BitVec.ofNat 32 (leAt (s.param 0x86) 0 4)
    params := { netId := BitVec.ofNat 16 n, addr := BitVec.ofNat 12 (bitsOf n 27 16), cvStart := BitVec.ofNat 3 (bitsOf n 34 32),
                cvSlot := BitVec.ofNat 3 (bitsOf n 38 36), cvLead := BitVec.ofNat 2 (bitsOf n 41 40), relay := bitOf n 42,
                tmRefresh := BitVec.ofNat 8 (bitsOf n 55 48) }
    key := s.group 0x88 ++ s.group 0x89
    lseq := BitVec.ofNat 32 (min 0xFFFF0000 (s.groupLE 0x8A 0 4 + 65536)) }

/-- The building bus link loaded (R434). -/
def BusState.load (b : BusState) (s : StoreState) : BusState :=
  let n := leAt (s.param 0x8B) 0 8
  { b with mac := BitVec.ofNat 7 n, baud := BitVec.ofNat 3 (bitsOf n 10 8), maxMaster := BitVec.ofNat 7 (bitsOf n 22 16),
           maxInfo := BitVec.ofNat 4 (bitsOf n 27 24), devInst := BitVec.ofNat 22 (bitsOf n 53 32), busEn := bitOf n 63 }

/-- SEQ of the entry in slot `i` of the fault log, where it is valid (R570). -/
def StoreState.logEntry (s : StoreState) (i : Nat) : Option Nat :=
  let g := 0x600 + 4 * i
  let seq := s.groupLE g 0 4
  let code := byteAt (s.group (g + 1)) 2
  if s.groupLE (g + 3) 4 4 = seq && 1 ≤ code && code ≤ 0x13 then some seq else none

/-- SEQ of the next entry (R572): after the entry latest in serial order, or after the largest SEQ where no entry is. -/
def nextSeq (l : List Nat) : Nat :=
  let after := fun (e o : Nat) => let k := (e + 2 ^ 32 - o) % 2 ^ 32; decide (1 ≤ k) && decide (k < 2 ^ 31)
  match l.zipIdx.find? (fun e => l.zipIdx.all (fun o => o.2 == e.2 || after e.1 o.1)) with
  | some e => (e.1 + 1) % 2 ^ 32
  | none => if l.isEmpty then 0 else (l.foldl max 0 + 1) % 2 ^ 32

/-- Whether the last reset found PD7 without power, so that the wear counts are not held (R579). -/
def Dev.wearDue (d : Dev) : Bool := d.sys.rstKind == .powerOn || (d.sys.rstSource == 6 && d.sys.rstPd == 7)

/-- The wear counts loaded from their groups (R253, R579): a count whose group was found lost becomes the largest count read
without loss, and is written back. -/
def Dev.loadWear (finds : List (Nat × EccFind)) (d : Dev) : Dev :=
  let bad := fun (b : Nat) => mapFind finds (0xC00 + b) == some EccFind.double || !d.store.sound (0xC00 + b)
  let good := (upTo 480).filter (fun b => !bad b)
  let top := good.foldl (fun n b => max n (d.store.groupLE (0xC00 + b) 0 8)) 0
  let counts := (upTo 480).map (fun b => (b, if bad b then top else d.store.groupLE (0xC00 + b) 0 8))
  d.onStore fun s =>
    ((upTo 480).filter bad).foldl (fun s b => s.writeImm (0xC00 + b) (leBytes 8 top)) { s with wear := counts.filter (fun p => p.2 != 0) }

/-- PARAMETER_LOAD: start-up step 6, with the RESET entry at its end (R265, R572, Table 20.2). `c` is what the check bytes of the
groups it reads show: the parameters, the records, the remap table, the fault log and the wear counters (R241). -/
def Dev.parameterLoad (c : CellEnv) (d0 : Dev) : Dev :=
  if d0.sys.boot ≠ .larder then d0
  else
    let read := c.finds.filter (fun f => 0x80 ≤ f.1 && f.1 < 0xE00)
    let d := (if d0.wearDue then d0.loadWear read else d0).larderReads read
    let s := d.store
    let d1 := { d with
      time := d.time.load s, line := d.line.load s, bus := d.bus.load s
      sys := { d.sys with boot := .journal, recorded := BitVec.ofNat 32 (s.groupLE 0x100 0 4),
                          acked := BitVec.ofNat 32 (s.groupLE 0x100 4 4) } }
    let d2 := d1.checkpoint.loadLaneRecords.loadSliceRecords
    let d3 := d2.onStore fun s => { s with logSeq := nextSeq ((upTo 192).filterMap s.logEntry) }
    d3.event 0x01 d3.sys.rstSource.toNat d3.sys.rstKind.code 0 d3.sys.rstPd.toNat

/-! ## Step 7: the journal (R249) -/

/-- The home groups of a transaction returned to what they held. -/
def StoreState.undo (s : StoreState) (old : List (Nat × List Byte)) : StoreState :=
  { s with home := old.foldl (fun m p => Mem.writeBytes larderByte m (8 * p.1) p.2) s.home }

/-- Whether the record of a transaction holds, as the journal reads now: its mark names its sequence number and the CRC-32 of the
record's groups. -/
def StoreState.recordHolds (s : StoreState) (t : JournalTxn) : Bool :=
  let n := recordLength t.groups.length
  let mark := s.group (t.cell n)
  leAt mark 0 4 == t.seq && leAt mark 4 4 == crc32 ((upTo n).flatMap (fun i => s.group (t.cell i)))

/-- One transaction recovered (R249): one without a mark is discarded; one whose record holds is completed, the copies to the groups
of `worn` failing their read-back; any other is discarded, its home groups as they were, and reported for the region's pot. The
UNCORR entry names the first journal group (DESIGN CHOICE, log 40). -/
def Dev.recoverTxn (worn : List Nat) (d : Dev) (t : JournalTxn) : Dev :=
  if !t.marked then d.onStore fun s => { s with rolled := satInc s.rolled }
  else if d.store.recordHolds t then
    Dev.landMany worn (t.writes - t.done) (d.onStore fun s => { s with queue := [.txn t], redone := satInc s.redone })
  else
    let d1 := d.onStore fun s => { s.undo t.old with rolled := satInc s.rolled, crcLost := satInc s.crcLost }
    if t.owner < 16 then d1.uncorrPot 2 t.owner 0x1000 else d1.uncorrShared 2 0x1000

/-- The transactions of a queue. -/
def txnsOf (q : List LarderWrite) : List JournalTxn :=
  q.filterMap fun w =>
    match w with
    | .txn t => some t
    | .imm _ _ _ => none

/-- A journal group read by the recovery: a group of a marked record that is lost is reported with its transaction, any other as
R243 gives (R241, R249). -/
def Dev.journalRead (ts : List JournalTxn) (d : Dev) (f : Nat × EccFind) : Dev :=
  let ours := ts.any (fun t => t.marked && (upTo (recordLength t.groups.length + 1)).any (fun i => t.cell i == f.1))
  if f.1 < 0x1000 || 0x1800 ≤ f.1 then d
  else if f.2 = .double && ours && d.store.sound f.1 then d.loseGroup f.1
  else d.larderFind f.1 f.2

/-- JOURNAL_RECOVERY: start-up step 7, which writes STORE.JRN and clears the worktop after a cold reset (R249, R265). -/
def Dev.journalRecovery (c : CellEnv) (d : Dev) : Dev :=
  if d.sys.boot ≠ .journal then d
  else
    let ts := txnsOf d.store.queue
    let imms := d.store.queue.filter (fun w => match w with | .imm _ _ _ => true | .txn _ => false)
    let d0 := c.finds.foldl (Dev.journalRead ts) d
    let d1 := d0.onStore fun s => { s with queue := [], redone := 0, rolled := 0, crcLost := 0 }
    let d2 := ts.foldl (Dev.recoverTxn c.worn) d1
    let d3 := d2.onStore fun s => { s with queue := s.queue ++ imms }
    let d4 := if d.sys.lastKind = .cold then d3.onCycle fun c => { c with worktop := [] } else d3
    d4.onSys fun s => { s with boot := .select, progress := 3 }

/-! ## Selection and acceptance (R267 to R269) -/

/-- Whether a bank may be tried: it is COMPLETE, or was ACTIVE before the reset. -/
def StoreState.usable (s : StoreState) (b : Bool) : Bool := (s.bank b).mode == .complete || (s.bank b).mode == .active

/-- The bank that the bank record names, or its larder copy where the record cannot be read; none where the copy is lost. -/
def StoreState.named (s : StoreState) : Option Bool :=
  if s.recordBad then
    if !s.sound 0x83 then none
    else match byteAt (s.group 0x83) 0 with
    | 0 => some false
    | 1 => some true
    | _ => none
  else s.record

/-- The bank tried first (R268). -/
def StoreState.firstBank (s : StoreState) : Option Bool :=
  let byGen :=
    if s.usable false && s.usable true then some (decide (s.bankA.generation < s.bankB.generation))
    else if s.usable false then some false
    else if s.usable true then some true
    else none
  match s.named with
  | some b => if s.usable b then some b else byGen
  | none => byGen

/-- PROGRESS while the first bank is checked (Table 9.8): from the boundary after the records were read; a second bank shows as
soon as the first has failed (DESIGN CHOICE, log 47). -/
def Dev.acceptProgress (d : Dev) : Dev :=
  if d.sys.boot = .select then
    match d.store.firstBank with
    | some b => d.onSys fun s => { s with progress := if b then 5 else 4 }
    | none => d
  else d

/-- The outcome of an attempt entered in SYS.BOOT. -/
def SysState.setCause (s : SysState) (b : Bool) (c : Nat) : SysState :=
  if b then { s with bCause := BitVec.ofNat 8 c } else { s with aCause := BitVec.ofNat 8 c }

/-- The bank record names an accepted bank, and so does its larder copy (R269). -/
def StoreState.recordBank (s : StoreState) (b : Bool) : StoreState :=
  { s.writeImm 0x83 ([if b then 1 else 0, 0, 0, 0] ++ leBytes 4 (s.bank b).generation) with record := some b, recordBad := false }

/-- A bank that becomes ACTIVE, the other COMPLETE where it was ACTIVE; with none, neither is ACTIVE. -/
def StoreState.activate (s : StoreState) (a : Option Bool) : StoreState :=
  let f := fun (b : Bool) (x : Bank) =>
    if a = some b then { x with mode := .active } else if x.mode = .active then { x with mode := .complete } else x
  { s with bankA := f false s.bankA, bankB := f true s.bankB }

/-- An accepted image taken for step 10. -/
def Dev.acceptBank (d : Dev) (b : Bool) (m : Image) (second : Bool) : Dev :=
  (d.onStore fun s => (s.activate (some b)).recordBank b).onSys fun s =>
    { s.setCause b 0 with boot := .boundary, progress := 6, fallback := second, outcome := some { image := some m, cause := 0 } }

/-- No bank accepted. -/
def Dev.refuseBanks (d : Dev) (cause : Nat) : Dev :=
  (d.onStore fun s => s.activate none).onSys fun s =>
    { s with boot := .boundary, progress := 6, fallback := false, outcome := some { image := none, cause } }

/-- The first attempt, with the selection before it. With no bank complete step 1 fails, which is recorded as any other step is
(R197, R225; DEDUCED, log 104). Where the other bank is to be tried, PROGRESS shows it until its attempt (Table 9.8). -/
def Dev.firstAttempt (d : Dev) : Dev :=
  match d.store.firstBank with
  | none =>
    let c := if d.store.bankA.mode = .writing || d.store.bankB.mode = .writing then 2 else 1
    (d.onSys fun s => s.verified (some { step := 1, cause := c, fail := { detail := 0, index := 0xFFFF, offset := 0xFFFFFFFF } })).refuseBanks c
  | some b =>
    match d.attempt b true with
    | (d1, some m, _) => d1.acceptBank b m false
    | (d1, none, c) =>
      let d2 := d1.onSys fun s => s.setCause b c
      if d2.store.usable (!b) && d2.bootParam 0 1 == 1 then
        d2.onSys fun s => { s with boot := .second (!b), progress := if b then 4 else 5 }
      else d2.refuseBanks c

/-- The second attempt (R268, R269). -/
def Dev.secondAttempt (b : Bool) (d : Dev) : Dev :=
  match d.attempt b true with
  | (d1, some m, _) => d1.acceptBank b m true
  | (d1, none, c) => (d1.onSys fun s => s.setCause b c).refuseBanks c

/-- IMAGE_ACCEPTANCE: one attempt of start-up steps 8 and 9, or of a RETRY (R197, R225, R268, R269, R279). -/
def Dev.imageAcceptance (e : AcceptEnv) (d : Dev) : Dev :=
  let read := fun (x : Dev) => x.larderReads (e.finds.filter (fun f => (4 ≤ f.1 && f.1 < 8) || (0x80 ≤ f.1 && f.1 < 0x90)))
  match d.sys.boot with
  | .select => (read (d.onStore fun s => { s with recordBad := s.recordBad || e.recordBad })).firstAttempt
  | .second b => (read d).secondAttempt b
  | _ => d

/-! ## Step 10 (R140, R265, R272) -/

/-- A node takes the junction role: its network number comes from the checkpoint, SI_VALID waits for a host's write (R55), and its
TRIM is 0 with no discipline active (R51). SI_OFS keeps its value (DESIGN CHOICE, log 167). -/
def Dev.junctionStart (d : Dev) : Dev :=
  if d.junction then
    d.onTime fun t => { t with
      netOfs := BitVec.ofNat 48 (d.store.groupLE 0x82 0 6 + 65536), netValid := true, siValid := false, trim := 0,
      trimLimit := false, phMismatch := false, beacon := false }
  else d

/-- Every remote I/O input starts at 0 with STALE set (R405). -/
def Dev.remoteReset (d : Dev) : Dev :=
  d.remoteInputs.foldl (fun d k =>
    d.onCycle fun c => { c with inputs := mapPut c.inputs k 0, stale := k :: c.stale.filter (· != k) }) d

/-- Entry to READY with an accepted image: its tables, ownership and plan take over, the plan's domains are switched on
(R78), a faulted one too (DESIGN CHOICE, log 157), and the safe plate is written (R140). -/
def Dev.enterReady (m : Image) (d : Dev) : Dev :=
  let d1 := { d with image := m, lane := d.lane.remap }
  let want := m.startOn
  let d2 := (d1.domainsOff (d1.power.on &&& ~~~want)).onPower fun p => ({ p with req := want } : PowerState).switchTo want
  let d3 := d2.onSys fun s =>
    { s with mode := .ready, role := BitVec.ofNat 2 m.role, clash := false, readyMs := d.ms, tollCause := 0, modePend := none,
             hostRunAt := false, hobMs := none }
  let d4 := (((d3.onTime fun t => t.selectSource m.xtalSrc).junctionStart.loadConverters.loadGroups.loadWhisk).senseInit).senseImage
    d.image.senseCfg
  d4.remoteReset.lineStart.safeAll

/-- Step 10: READY or TOLLGATE, with ATTN_N. A RETRY that ends in the tollgate again logs nothing (DEDUCED, log 41). -/
def Dev.bootEnd (d : Dev) : Dev :=
  match d.sys.boot, d.sys.outcome with
  | .boundary, some o =>
    let again := d.sys.tollCause ≠ 0
    let d1 := d.onSys fun s => { s with boot := .done, progress := 0, outcome := none }
    let d2 := { d1 with seat := { d1.seat with attnBoot := true } }
    match o.image with
    | some m => d2.enterReady m
    | none =>
      if again then d2.onSys fun s => { s with tollCause := BitVec.ofNat 8 o.cause }
      else d2.enterTollgate o.cause d2.vfyA
  | _, _ => d

/-- What a milestone boundary does to a start-up that waits: a boundary that becomes 0:0, and step 5 (R255, R265). -/
def Dev.bootBoundary (d : Dev) : Dev :=
  let d1 :=
    if d.sys.zeroNext then
      ((d.onTime fun t => { t with count := 0, starts := [t.msStart] }).onSys fun s =>
        { s with zeroNext := false, boot := .wait, progress := 2 }).onPower fun p =>
          { p.switchTo tollgateOn with
            switches := if d.sys.lastKind = .warm then (p.switchTo tollgateOn).switches else p.switches }
    else d
  if d1.sys.boot = .wait && (tollgateOn &&& ~~~d1.power.ready) == 0 then
    d1.onSys fun s => { s with boot := .larder, progress := 2 }
  else d1

end Sys2Proof.Machine
end

