-- ==== Sys2Proof/Machine/Seat.lean ====
section
/-! DEFINITION. The host seat and the tunnel port: requests and their answers, sequence numbers, sessions, host accesses
and tunnels (14 R412 to R432, 18 R537 to R545). -/

namespace Sys2Proof.Machine

/-- The codes of Table 14.10. -/
inductive SeatStatus where
  | ok | busy | denied | badCrc | badSeq | estranged | tollgate
  deriving DecidableEq, Repr

/-- The code of a status (Table 14.10). -/
def SeatStatus.code : SeatStatus → Nat
  | .ok => 0 | .busy => 1 | .denied => 2 | .badCrc => 3 | .badSeq => 4 | .estranged => 5 | .tollgate => 6

/-- An operation of the seat on the whole device. -/
def Dev.onSeat (d : Dev) (f : SeatState → SeatState) : Dev := { d with seat := f d.seat }

/-- A response frame with its status and payload (R416). -/
def SeatReq.answer (r : SeatReq) (s : SeatStatus) (p : List Byte) : Response := { status := s.code, seq := r.seq, payload := p }

/-- The bytes of a response frame (Table 14.2). -/
def Response.bytes (r : Response) : List Byte :=
  let b := [0x5A, BitVec.ofNat 8 r.status, r.seq] ++ leBytes 2 r.payload.length ++ r.payload
  b ++ leBytes 2 (crc16 b)

/-- The CRC of a request that holds (Tables 14.1 and 0.6). -/
def SeatReq.crc (r : SeatReq) (cmd : Nat) : BitVec 16 :=
  BitVec.ofNat 16 (crc16 (leBytes 1 cmd ++ leBytes 3 r.addr.toNat ++ leBytes 2 r.len.toNat ++ [r.seq] ++ r.payload))

/-- Whether a remote host sent a request. -/
def Holder.isRemote : Holder → Bool
  | .remote _ => true
  | _ => false

/-- The 16 bytes of IDENTIFY (Table 14.4). -/
def Dev.identifyBytes (d : Dev) (who : Holder) : List Byte :=
  leBytes 4 0x48160001 ++ leBytes 8 Config.uid.toNat ++ leBytes 1 d.sys.progress.toNat ++
    leBytes 1 (d.sys.mode.code + 4 * d.sys.role.toNat + 16 * d.sys.hostSel.toNat) ++
    leBytes 1 (d.seat.holder.code + 4 * b2n d.seat.priv + 8 * b2n d.seat.estr + 16 * b2n (d.seat.holder == who)) ++ [0]

/-- IDENTIFY (R423): answered in every state. -/
def Dev.doIdentify (who : Holder) (r : SeatReq) (d : Dev) : Response × Dev := (r.answer .ok (d.identifyBytes who), d)

/-- Whether PD10 and PD12 are usable. -/
def Dev.linePath (d : Dev) : Bool := d.pd 10 && d.pd 12

/-- Whether R412 grants a TAKE. -/
def Dev.takeGranted (d : Dev) (who : Holder) : Bool :=
  d.seat.holder == .free &&
    (if who.isRemote then bitOf d.sys.hostSel.toNat 1 && d.sys.mode != .tollgate && d.linePath
     else bitOf d.sys.hostSel.toNat 0)

/-- TAKE by a host that does not hold the seat (R412, R418, R419). Its response is stored, so that it can be sent again
(DEDUCED, log 43). -/
def Dev.doTake (who : Holder) (r : SeatReq) (d : Dev) : Response × Dev :=
  if !d.takeGranted who then (r.answer .denied [], d)
  else
    let a := r.answer (if d.seat.estr then .estranged else .ok) []
    (a, d.onSeat fun s =>
      { s with holder := who, heard := d.ms,
               e := if d.seat.estr then s.e else r.seq + 1,
               stored := if d.seat.estr then s.stored else some { crc := r.crc 0x02, resp := a } })

/-- RESET by the holder (R260, Table 14.3). -/
def Dev.doSeatReset (r : SeatReq) (d : Dev) : Response × Dev :=
  if r.payload.length != 1 then (r.answer .denied [], d)
  else if byteAt r.payload 0 = 1 then (r.answer .ok [], d.orderReset 4 .warm)
  else if byteAt r.payload 0 = 2 then (r.answer .ok [], d.orderReset 5 .cold)
  else (r.answer .denied [], d)

/-- RELEASE (R413). -/
def Dev.doRelease (d : Dev) : SeatStatus × List Byte × Dev := (.ok, [], d.onSeat SeatState.freed)

/-! ## Reading and writing (R421 to R425) -/

/-- The region of Table 18.1 that an address lies in: register space 0, worktop 1, pantry 2, larder 3, none 4. -/
def hostRegion (a : Nat) : Nat :=
  if a < 0x100000 then 0 else if a < 0x200000 then 1 else if a < 0x400000 then 2 else if a < 0x440000 then 3 else 4

/-- Whether an access lies in one region and within the length limit of its path (R421, R537). -/
def rangeOk (who : Holder) (a n : Nat) : Bool :=
  decide (1 ≤ n) && decide (n ≤ if who.isRemote then 128 else 1024) && hostRegion a != 4 &&
    hostRegion a == hostRegion (a + n - 1)

/-- Whether a larder group reads 0 through the window (R382, Table 8.6). -/
def larderHidden (g : Nat) : Bool :=
  decide (g < 4) || (8 ≤ g && g < 0x80) || g == 0x88 || g == 0x89 || (0xDE6 ≤ g && g < 0x1000) || decide (0x7800 ≤ g)

/-- A host's read of larder groups, each with what its check byte shows (R241, R251). -/
def Dev.readLarder (g : Nat) : Nat → List EccFind → Dev → List Byte × Dev
  | 0, _, d => ([], d)
  | n + 1, fs, d =>
    let here : List Byte × Dev :=
      if larderHidden g then (List.replicate 8 0, d)
      else
        let d1 := (d.larderFind g (fs.headD .clean)).markLostRead g
        (d1.store.group g, d1)
    let rest := Dev.readLarder (g + 1) n (fs.drop 1) here.2
    (here.1 ++ rest.1, rest.2)

/-- The aligned addresses of `n` bytes from `a`. -/
def wordAddrs (a n : Nat) : List Nat := (upTo (n / 4)).map (fun i => a + 4 * i)

/-- READ (R421, R422, Table 18.17). -/
def Dev.doRead (who : Holder) (r : SeatReq) (e : SeatEnv) (d : Dev) : SeatStatus × List Byte × Dev :=
  let a := r.addr.toNat
  let n := r.len.toNat
  let priv := d.seat.priv
  if !rangeOk who a n then (.denied, [], d)
  else if hostRegion a = 0 then
    if a % 4 ≠ 0 || n % 4 ≠ 0 then (.denied, [], d)
    else
      let as := wordAddrs a n
      let step := fun (x : List Byte × Dev) (w : Nat) =>
        let d1 := x.2.latchReads 16 e.frac [w]
        (x.1 ++ leBytes 4 (d1.hostRead priv e.frac w).toNat, if w = 0x48 then d1.bootRead else d1)
      let out := as.foldl step ([], d)
      (.ok, out.1, out.2)
  else if !priv then (.denied, [], d)
  else if hostRegion a = 1 then (.ok, Mem.readBytes zeroByte d.cycle.worktop (a - 0x100000) n, d)
  else if hostRegion a = 2 then
    if a % 4 ≠ 0 || n % 4 ≠ 0 then (.denied, [], d)
    else
      let byte := fun (x : Nat) =>
        let y := x - 0x200000
        Mem.read zeroByte (d.store.bank (decide (0x100000 ≤ y))).bytes (y % 0x100000)
      (.ok, (upTo n).map (fun i => byte (a + i)), d)
  else
    if a % 8 ≠ 0 || n % 8 ≠ 0 then (.denied, [], d)
    else
      let out := Dev.readLarder ((a - 0x400000) / 8) (n / 8) e.finds d
      (.ok, out.1, out.2)

/-- Whether a host may write a larder group through the window (R251, Table 8.6). -/
def Dev.larderWritable (d : Dev) (g : Nat) : Bool :=
  (0x80 ≤ g && g < 0x100) || (0xDE0 ≤ g && g < 0xDE6) ||
    (0x1800 ≤ g && g < 0x7800 &&
      (match d.regionOf g with
       | some (_, x) => !x.journaled
       | none => false))

/-- Writes that a host has had accepted, in order, waiting for step 1 (R106, R251, R546). -/
def Dev.accepted (d : Dev) (ws : List HostWrite) : Dev := d.onCycle fun c => { c with hostQ := c.hostQ ++ ws }

/-- Whether the unprivileged host may write a register while PROV_EN is 1 (R424). -/
def provReg (a v : Nat) : Bool := (0x40100 ≤ a && a < 0x40120) || a == 0x40004 || (a == 0x40000 && v % 16 == 9)

/-- WRITE of registers (R422, R424, R545, R277, R153). In TOLLGATE nothing of a write to the CYCLE block is performed, and a
pot command in it is refused as R161 states. -/
def Dev.writeRegs (a : Nat) (ws : List Nat) (words : Nat) (d : Dev) : SeatStatus × Dev :=
  let as := wordAddrs a (4 * ws.length)
  let pairs := as.zip ws
  let queue := fun (priv : Bool) =>
    d.accepted (pairs.map (fun x => .reg x.1 (BitVec.ofNat 32 x.2) priv d.sys.recorded words))
  if !d.seat.priv then
    if d.sys.provEn && pairs.all (fun x => provReg x.1 x.2) then (.ok, queue false)
    else (.denied, { d with lane := { d.lane with hostDenied := satAdd d.lane.hostDenied ws.length } })
  else if d.sys.mode = .tollgate && as.any (fun x => 0x30400 ≤ x && x < 0x30C00) then (.denied, d)
  else if d.sys.mode = .tollgate && as.any (fun x => 0x30000 ≤ x && x < 0x40000) then
    (.tollgate, (pairs.filter (fun x => x.1 == 0x30010)).foldl (fun d x => d.potCmdWrite (BitVec.ofNat 32 x.2) true) d)
  else (.ok, queue true)

/-- The 32-bit words of a payload. -/
def payloadWords (p : List Byte) : List Nat := (upTo (p.length / 4)).map (fun i => leAt p (4 * i) 4)

/-- WRITE (R421, R422, R424, R538, R251, R277). -/
def Dev.doWrite (who : Holder) (r : SeatReq) (e : SeatEnv) (d : Dev) : SeatStatus × List Byte × Dev :=
  let a := r.addr.toNat
  let n := r.payload.length
  if !rangeOk who a n then (.denied, [], d)
  else if hostRegion a = 0 then
    if a % 4 ≠ 0 || n % 4 ≠ 0 then (.denied, [], d)
    else
      let out := d.writeRegs a (payloadWords r.payload) e.words
      (out.1, [], out.2)
  else if !d.seat.priv then (.denied, [], d)
  else if hostRegion a = 1 then
    if d.sys.mode = .tollgate then (.tollgate, [], d)
    else (.ok, [], d.accepted [.worktop (a - 0x100000) r.payload])
  else if hostRegion a = 2 then (.denied, [], d)
  else
    let g := (a - 0x400000) / 8
    if a % 8 ≠ 0 || n % 8 ≠ 0 then (.denied, [], d)
    else if !((upTo (n / 8)).all (fun i => d.larderWritable (g + i))) then (.denied, [], d)
    else (.ok, [], d.accepted ((upTo (n / 8)).map (fun i => .larder (g + i) ((r.payload.drop (8 * i)).take 8))))

/-! ## Sessions (R426 to R428) -/

/-- The host key of larder groups 0x0000 to 0x0003. -/
def Dev.hostKey (d : Dev) : List Byte := (upTo 4).flatMap d.store.group

/-- Whether CHALLENGE is locked out after four failures (R427). -/
def Dev.lockedOut (d : Dev) : Bool := decide (4 ≤ d.seat.failRun) && decide (d.ms < d.seat.failAt + 4096)

/-- The host key read from its four groups, as their check bytes show them (R241). -/
def Dev.readKey (e : SeatEnv) (d : Dev) : Dev := d.larderReads ((upTo 4).map (fun i => (i, e.finds.getD i .clean)))

/-- CHALLENGE (R426, R427). -/
def Dev.doChallenge (e : SeatEnv) (d0 : Dev) : SeatStatus × List Byte × Dev :=
  let d := d0.readKey e
  if d.hostKey.all (· == 0) || d.lockedOut then (.denied, [], d)
  else
    let n := leBytes 32 e.nonce.toNat
    (.ok, n, d.onSeat fun s => { s with nonce := some (n, d.ms) })

/-- The MAC that RESPOND must carry (R426). -/
def Dev.sessionMac (d : Dev) (who : Holder) (nonce : List Byte) : List Byte :=
  hmacSha256 d.hostKey ([0x48, 0x46, 0x4E, 0x53] ++ leBytes 8 Config.uid.toNat ++ nonce ++ leBytes 1 (b2n who.isRemote))

/-- RESPOND (R426, R427). `nonce` is what was valid before this request. A run of four failures whose lockout has passed
starts afresh (DEDUCED, log 44). -/
def Dev.doRespond (who : Holder) (r : SeatReq) (e : SeatEnv) (nonce : Option (List Byte × Nat)) (d0 : Dev) :
    SeatStatus × List Byte × Dev :=
  let d := d0.readKey e
  let good : Bool := match nonce with
    | some (n, at') => decide (d.ms < at' + 256) && r.payload == d.sessionMac who n
    | none => false
  if good then (.ok, [], d.onSeat fun s => { s with priv := true, failRun := 0 })
  else
    let run := if 4 ≤ d.seat.failRun && !d.lockedOut then 0 else d.seat.failRun
    (.denied, [], d.onSeat fun s =>
      { s with authFail := satInc s.authFail, failRun := min 4 (run + 1), failAt := if run = 3 then d.ms else s.failAt })

/-- CLOSE (R428). -/
def Dev.doClose (d : Dev) : SeatStatus × List Byte × Dev := (.ok, [], d.onSeat fun s => { s with priv := false })

/-! ## Judgement (R271, R416 to R420) -/

/-- What comes before a command is looked at: a CRC that fails, and start-up (R271, R418). `ident` marks IDENTIFY. -/
def Dev.gate (r : SeatReq) (ident : Bool) (d : Dev) : Option (Response × Dev) :=
  if !r.crcOk then some (r.answer .badCrc [], d.onSeat fun s => { s with badCrc := satInc s.badCrc })
  else if d.sys.boot != .done && !ident then some (r.answer .busy [d.sys.progress], d)
  else none

/-- A frame from the remote holder restarts its 3,000 milestones (R413). -/
def Dev.hear (who : Holder) (d : Dev) : Dev := if d.seat.holder = who then d.onSeat fun s => { s with heard := d.ms } else d

/-- A request of the holder judged by its SEQ (R418): `run` performs it. A request so judged ends the validity of a nonce,
which `run` is handed (R427). -/
def Dev.bySeq (cmd : Nat) (r : SeatReq) (run : Option (List Byte × Nat) → Dev → SeatStatus × List Byte × Dev) (d : Dev) :
    Response × Dev :=
  if r.seq = d.seat.e then
    let out := run d.seat.nonce (d.onSeat fun s => { s with nonce := none })
    let a := r.answer out.1 out.2.1
    (a, out.2.2.onSeat fun s => { s with e := s.e + 1, stored := some { crc := r.crc cmd, resp := a } })
  else
    let again : Option Response := match d.seat.stored with
      | some x => if r.seq + 1 = d.seat.e && x.crc == r.crc cmd then some x.resp else none
      | none => none
    match again with
    | some a => (a, d)
    | none => (r.answer .badSeq [], d.onSeat fun s => { s with badSeq := satInc s.badSeq, estr := true })

/-- A sequence-checked command (R416 to R420): the seat's answer to any host. ESTRANGED is judged before the holder
(DEDUCED, log 46). -/
def Dev.sequenced (who : Holder) (cmd : Nat) (r : SeatReq)
    (run : Option (List Byte × Nat) → Dev → SeatStatus × List Byte × Dev) (d0 : Dev) : Response × Dev :=
  let d := d0.hear who
  match d.gate r false with
  | some x => x
  | none =>
    if d.seat.estr then (r.answer .estranged [], d)
    else if d.seat.holder != who then (r.answer .denied [], d)
    else d.bySeq cmd r run

/-- IDENTIFY as a request. -/
def Dev.seatIdentify (who : Holder) (r : SeatReq) (d0 : Dev) : Response × Dev :=
  let d := d0.hear who
  match d.gate r true with
  | some x => x
  | none => d.doIdentify who r

/-- TAKE as a request; from the holder it is judged by its SEQ and DENIED (R412, R418). -/
def Dev.seatTake (who : Holder) (r : SeatReq) (d0 : Dev) : Response × Dev :=
  let d := d0.hear who
  match d.gate r false with
  | some x => x
  | none =>
    if d.seat.estr && d.seat.holder != .free then (r.answer .estranged [], d)
    else if d.seat.holder != who then d.doTake who r
    else d.bySeq 0x02 r (fun _ x => (.denied, [], x))

/-- RESET as a request: without SEQ, and also while ESTRANGED (R419, R420). -/
def Dev.seatReset (who : Holder) (r : SeatReq) (d0 : Dev) : Response × Dev :=
  let d := d0.hear who
  match d.gate r false with
  | some x => x
  | none =>
    if d.seat.holder = who then d.doSeatReset r
    else (r.answer (if d.seat.estr then .estranged else .denied) [], d)

/-- RELEASE as a request. -/
def Dev.seatRelease (who : Holder) (r : SeatReq) (d : Dev) : Response × Dev := d.sequenced who 0x03 r (fun _ x => x.doRelease)

/-- READ as a request. -/
def Dev.seatRead (who : Holder) (r : SeatReq) (e : SeatEnv) (d : Dev) : Response × Dev :=
  d.sequenced who 0x10 r (fun _ x => x.doRead who r e)

/-- WRITE as a request. -/
def Dev.seatWrite (who : Holder) (r : SeatReq) (e : SeatEnv) (d : Dev) : Response × Dev :=
  d.sequenced who 0x11 r (fun _ x => x.doWrite who r e)

/-- CHALLENGE as a request. -/
def Dev.seatChallenge (who : Holder) (r : SeatReq) (e : SeatEnv) (d : Dev) : Response × Dev :=
  d.sequenced who 0x20 r (fun _ x => x.doChallenge e)

/-- RESPOND as a request. -/
def Dev.seatRespond (who : Holder) (r : SeatReq) (e : SeatEnv) (d : Dev) : Response × Dev :=
  d.sequenced who 0x21 r (fun n x => x.doRespond who r e n)

/-- CLOSE as a request. -/
def Dev.seatClose (who : Holder) (r : SeatReq) (d : Dev) : Response × Dev := d.sequenced who 0x22 r (fun _ x => x.doClose)

/-- Any request of a remote host: its CMD picks the command; the tunnel commands are served on the SPI port only, and
reserved values are DENIED (R421, R431). -/
def Dev.seatAny (who : Holder) (cmd : Nat) (r : SeatReq) (e : SeatEnv) (d : Dev) : Response × Dev :=
  match cmd with
  | 0x01 => d.seatIdentify who r
  | 0x02 => d.seatTake who r
  | 0x03 => d.seatRelease who r
  | 0x10 => d.seatRead who r e
  | 0x11 => d.seatWrite who r e
  | 0x20 => d.seatChallenge who r e
  | 0x21 => d.seatRespond who r e
  | 0x22 => d.seatClose who r
  | 0x30 => d.seatReset who r
  | _ =>
    if 0x40 ≤ cmd && cmd ≤ 0x43 then
      match (d.hear who).gate r false with
      | some x => x
      | none => (r.answer .denied [], d.hear who)
    else d.sequenced who cmd r (fun _ x => (.denied, [], x))

/-- A request of the local host, its response frame kept as the one sent last. -/
def Dev.spi (x : Response × Dev) : Dev := x.2.onSeat fun s => { s with last := some x.1 }

/-- The SPI port, which PD1 carries: until PD1 is usable it drives no MISO, and no request is served (R271). -/
def Dev.port (f : Dev → Dev) (d : Dev) : Dev := if d.pd 1 then f d else d

/-! ## Tunnels (R431, R432) -/

/-- Whether a CMD's frame carries LEN payload bytes (R414). -/
def hasPayload (cmd : Nat) : Bool := cmd == 0x11 || cmd == 0x21 || cmd == 0x30 || (0x40 ≤ cmd && cmd ≤ 0x43)

/-- A request frame taken apart; none where its length is not that of its CMD and LEN. -/
def parseRequest (bs : List Byte) : Option (Nat × SeatReq) :=
  let cmd := byteAt bs 0
  let n := if hasPayload cmd then leAt bs 4 2 else 0
  if bs.length != 9 + n then none
  else
    some (cmd, { addr := BitVec.ofNat 24 (leAt bs 1 3), len := BitVec.ofNat 16 (leAt bs 4 2), seq := BitVec.ofNat 8 (byteAt bs 6),
                 payload := (bs.drop 7).take n, crcOk := decide (crc16 (bs.take (7 + n)) = leAt bs (7 + n) 2) })

/-- The state of a tunnel channel. -/
def Dev.tun (d : Dev) (ch : Nat) : Option Tunnel := vgetD d.seat.tuns ch none

/-- A tunnel channel changed. -/
def Dev.setTun (d : Dev) (ch : Nat) (t : Option Tunnel) : Dev :=
  d.onSeat fun s => { s with tuns := vupdN s.tuns ch (fun _ => t) }

/-- A response for an open channel arrives (R431): RXPEND and BUS.ATTN.TUN_RX. -/
def Dev.tunArrive (d : Dev) (ch : Nat) (bs : List Byte) : Dev :=
  match d.tun ch with
  | some t => if t.awaiting then (d.setTun ch (some { t with awaiting := false, rx := some bs })).attnTun else d
  | none => d

/-- A TUNNEL frame sent to a node (R432). -/
def Dev.sendTunnel (d : Dev) (dst ch kind : Nat) (inner : List Byte) : Dev :=
  d.sendTo 10 1 dst (leBytes 1 ch ++ leBytes 1 kind ++ inner) false

/-- TUN_CLOSE from a tunnel frees the seat that its channel holds (R413). -/
def Dev.tunClosed (d : Dev) (ch : Nat) : Dev := if d.seat.holder = .remote ch then d.onSeat SeatState.freed else d

/-- A channel closed: KIND 0x03 sent, or looped back at the junction's own seat (R431, R432). -/
def Dev.closeTun (d : Dev) (ch : Nat) : Dev :=
  match d.tun ch with
  | none => d
  | some t =>
    let d1 := d.setTun ch none
    if t.target = 0 then d1.tunClosed ch else d1.sendTunnel t.target ch 3 []

/-- Whether the tunnel port serves its commands (R431). -/
def Dev.tunReady (d : Dev) : Bool := d.junction && d.sys.mode == .run && d.linePath

/-- A tunnel command: its CRC checked, its SEQ ignored and echoed; `run` performs it (R431). Channels above 7 are DENIED. -/
def Dev.tunCommand (r : SeatReq) (run : Nat → Dev → SeatStatus × List Byte × Dev) (d : Dev) : Dev :=
  Dev.spi (match d.gate r false with
    | some x => x
    | none =>
      let ch := bitsOf r.addr.toNat 19 16
      if !d.tunReady || 8 ≤ ch then (r.answer .denied [], d)
      else
        let out := run ch d
        let p := if out.1 = .busy then [d.sys.progress] else out.2.1
        (r.answer out.1 p, out.2.2))

/-- TUN_OPEN (Table 14.6). -/
def Dev.tunOpen (target ch : Nat) (d : Dev) : SeatStatus × List Byte × Dev :=
  let taken := d.seat.tuns.toList.any (fun t =>
    match t with
    | some x => x.target == target
    | none => false)
  if (d.tun ch).isSome || taken then (.denied, [], d)
  else (.ok, [], d.setTun ch (some { target, awaiting := false, rx := none }))

/-- TUN_SEND (Table 14.6, R432). A channel that is not open, or a frame that is no request frame for a tunnel to 0x000, is
DENIED (DESIGN CHOICE, log 45). -/
def Dev.tunSend (frame : List Byte) (e : SeatEnv) (ch : Nat) (d : Dev) : SeatStatus × List Byte × Dev :=
  match d.tun ch with
  | none => (.denied, [], d)
  | some t =>
    if t.awaiting then (.busy, [], d)
    else if 137 < frame.length then (.denied, [], d)
    else if t.target = 0 then
      match parseRequest frame with
      | none => (.denied, [], d)
      | some (cmd, q) =>
        let out := (d.setTun ch (some { t with awaiting := true })).seatAny (.remote ch) cmd q e
        (.ok, [], out.2.tunArrive ch out.1.bytes)
    else (.ok, [], (d.setTun ch (some { t with awaiting := true })).sendTunnel t.target ch 1 frame)

/-- TUN_RECV (Table 14.6). -/
def Dev.tunRecv (ch : Nat) (d : Dev) : SeatStatus × List Byte × Dev :=
  match d.tun ch with
  | none => (.denied, [], d)
  | some t =>
    match t.rx with
    | some b => (.ok, b, d.setTun ch (some { t with rx := none }))
    | none => (.ok, [], d)

/-- TUN_CLOSE (Table 14.6). -/
def Dev.tunClose (ch : Nat) (d : Dev) : SeatStatus × List Byte × Dev :=
  if (d.tun ch).isSome then (.ok, [], d.closeTun ch) else (.denied, [], d)

/-- TUNNEL: a received frame (R432). A request is judged as a remote host's and answered; a response goes to the open
channel that awaits it from its target; a close frees the seat. -/
def Dev.rxTunnel (f : RxEnd) (e : SeatEnv) (d : Dev) : Dev :=
  match d.receive 10 f with
  | (d1, none) => d1
  | (d1, some (_, m)) =>
    let ch := byteAt m.body 0
    let inner := m.body.drop 2
    if m.body.length < 2 then d1.fmtFail
    else
      match byteAt m.body 1 with
      | 1 =>
        if m.osrc ≠ 0 then d1.fmtFail
        else
          match parseRequest inner with
          | none => d1.fmtFail
          | some (cmd, q) =>
            let out := d1.seatAny (.remote ch) cmd q e
            out.2.sendTunnel 0 ch 2 out.1.bytes
      | 2 =>
        match d1.tun ch with
        | some t =>
          if !d1.junction || t.target ≠ m.osrc then d1
          else if inner.length != 7 + leAt inner 3 2 || byteAt inner 0 ≠ 0x5A then d1.fmtFail
          else d1.tunArrive ch inner
        | none => d1
      | 3 => if inner.length != 0 then d1.fmtFail else if m.osrc = 0 then d1.tunClosed ch else d1
      | _ => d1.fmtFail

/-! ## Time-driven events (R25, R413, R431) -/

/-- SEAT_IDLE_FREE: 3,000 milestones without a frame from the remote holder. -/
def Dev.idleFree (d : Dev) : Dev :=
  if d.seat.holder.isRemote && decide (d.seat.heard + 3000 ≤ d.ms) then
    d.onSeat fun s => { s.freed with idleFree := satInc s.idleFree }
  else d

/-- BEACON_TIMEOUT (R25, R394): BEACON clears 50 milestones after the last beacon with LOCKED 1; a tunnelled session ends
50 milestones after the junction was last heard. -/
def Dev.beaconTimeout (d : Dev) : Dev :=
  let d1 := if 50 ≤ d.time.beaconAge then d.onTime fun t => { t with beacon := false } else d
  if 50 ≤ d.time.junctionAge && !d.junction then d1.onSeat SeatState.freeRemote else d1

/-- At a boundary the open channels whose path is not usable close (R431); a Line that is silent in the tollgate is none
(R276). -/
def Dev.tunCheck (d : Dev) : Dev :=
  if d.junction && d.linePath && d.sys.mode != .tollgate then d else (upTo 8).foldl Dev.closeTun d

end Sys2Proof.Machine
end

