-- ==== Sys2Proof/Machine/Rhamet.lean ====
section
/-! DEFINITION. What each Rhamet instruction does to its task's open window (07, Tables 7.3 to 7.13). The operand `t` is
the task whose lane runs the instruction; the others are the fields of its immediate (Table 7.2). -/

namespace Sys2Proof.Machine

/-! ## Constants, stack and locals (Table 7.3) -/

/-- NOP. -/
def Dev.rhNop (t : Fin 64) (d : Dev) : Dev := d.rh t 0 1 0 fun w fr => (w, fr)

/-- PUSH.I8: the immediate, sign-extended. -/
def Dev.rhPushI8 (t : Fin 64) (v : BitVec 8) (d : Dev) : Dev := d.rhPush t 1 1 fun _ _ => v.signExtend 32

/-- PUSH.I16: the immediate, sign-extended. -/
def Dev.rhPushI16 (t : Fin 64) (v : BitVec 16) (d : Dev) : Dev := d.rhPush t 2 1 fun _ _ => v.signExtend 32

/-- PUSH.I32, PUSH.U32, PUSH.Q and PUSH.F: the 32 bits of the immediate. -/
def Dev.rhPush32 (t : Fin 64) (v : Word) (d : Dev) : Dev := d.rhPush t 4 1 fun _ _ => v

/-- DROP. -/
def Dev.rhDrop (t : Fin 64) (d : Dev) : Dev := d.rh t 0 1 1 fun w fr => (w, { fr with stack := fr.stack.drop 1 })

/-- An instruction that only rearranges the stack of at least `need` cells. -/
def Dev.rhStack (d : Dev) (t : Fin 64) (imm cost need : Nat) (f : List Word → List Word) : Dev :=
  d.rh t imm cost need fun w fr => (w, { fr with stack := f fr.stack })

/-- DUP. -/
def Dev.rhDup (t : Fin 64) (d : Dev) : Dev :=
  d.rhStack t 0 1 1 fun s => match s with | a :: r => a :: a :: r | r => r

/-- SWAP. -/
def Dev.rhSwap (t : Fin 64) (d : Dev) : Dev :=
  d.rhStack t 0 1 2 fun s => match s with | b :: a :: r => a :: b :: r | r => r

/-- OVER. -/
def Dev.rhOver (t : Fin 64) (d : Dev) : Dev :=
  d.rhStack t 0 1 2 fun s => match s with | b :: a :: r => a :: b :: a :: r | r => r

/-- ROT: a b c → b c a. -/
def Dev.rhRot (t : Fin 64) (d : Dev) : Dev :=
  d.rhStack t 0 2 3 fun s => match s with | c :: b :: a :: r => a :: c :: b :: r | r => r

/-- PICK: the cell `k` places below the top. -/
def Dev.rhPick (t : Fin 64) (k : BitVec 8) (d : Dev) : Dev :=
  d.rhStack t 1 2 (k.toNat + 1) fun s => s.getD k.toNat 0 :: s

/-- LD.L. -/
def Dev.rhLdL (t : Fin 64) (i : BitVec 8) (d : Dev) : Dev := d.rhPush t 1 1 fun _ fr => fr.locals.getD i.toNat 0

/-- ST.L. -/
def Dev.rhStL (t : Fin 64) (i : BitVec 8) (d : Dev) : Dev :=
  d.rh t 1 1 1 fun w fr =>
    match fr.stack with
    | a :: st => (w, { fr with stack := st, locals := fr.locals.set i.toNat a })
    | [] => (w, fr)

/-- TEE.L. -/
def Dev.rhTeeL (t : Fin 64) (i : BitVec 8) (d : Dev) : Dev :=
  d.rh t 1 1 1 fun w fr =>
    match fr.stack with
    | a :: st => (w, { fr with stack := a :: st, locals := fr.locals.set i.toNat a })
    | [] => (w, fr)

/-! ## Integer arithmetic (Table 7.4) -/

/-- ADD.I. -/
def Dev.rhAddI (t : Fin 64) (d : Dev) : Dev := d.rhBin t 0 1 fun a b => res (a + b)
/-- SUB.I. -/
def Dev.rhSubI (t : Fin 64) (d : Dev) : Dev := d.rhBin t 0 1 fun a b => res (a - b)
/-- MUL.I: low 32 bits. -/
def Dev.rhMulI (t : Fin 64) (d : Dev) : Dev := d.rhBin t 0 3 fun a b => res (a * b)
/-- DIV.I. -/
def Dev.rhDivI (t : Fin 64) (d : Dev) : Dev := d.rhBin t 0 8 divI
/-- REM.I. -/
def Dev.rhRemI (t : Fin 64) (d : Dev) : Dev := d.rhBin t 0 8 remI
/-- NEG.I: wraps. -/
def Dev.rhNegI (t : Fin 64) (d : Dev) : Dev := d.rhUn t 1 fun a => res (-a)
/-- ABS.I: wraps. -/
def Dev.rhAbsI (t : Fin 64) (d : Dev) : Dev := d.rhUn t 1 fun a => res (absW a)
/-- ADDS.I: saturates. -/
def Dev.rhAddsI (t : Fin 64) (d : Dev) : Dev := d.rhBin t 0 2 fun a b => res (satI (a.toInt + b.toInt))
/-- SUBS.I: saturates. -/
def Dev.rhSubsI (t : Fin 64) (d : Dev) : Dev := d.rhBin t 0 2 fun a b => res (satI (a.toInt - b.toInt))
/-- MULS.I: saturates. -/
def Dev.rhMulsI (t : Fin 64) (d : Dev) : Dev := d.rhBin t 0 4 fun a b => res (satI (a.toInt * b.toInt))
/-- NEGS.I: saturates. -/
def Dev.rhNegsI (t : Fin 64) (d : Dev) : Dev := d.rhUn t 1 fun a => res (satI (-a.toInt))
/-- ABSS.I: saturates. -/
def Dev.rhAbssI (t : Fin 64) (d : Dev) : Dev := d.rhUn t 1 fun a => res (satI a.toInt.natAbs)
/-- MIN.I: signed. -/
def Dev.rhMinI (t : Fin 64) (d : Dev) : Dev := d.rhBin t 0 1 fun a b => res (minI a b)
/-- MAX.I: signed. -/
def Dev.rhMaxI (t : Fin 64) (d : Dev) : Dev := d.rhBin t 0 1 fun a b => res (maxI a b)
/-- ADD.U. -/
def Dev.rhAddU (t : Fin 64) (d : Dev) : Dev := d.rhBin t 0 1 fun a b => res (a + b)
/-- SUB.U. -/
def Dev.rhSubU (t : Fin 64) (d : Dev) : Dev := d.rhBin t 0 1 fun a b => res (a - b)
/-- MUL.U: low 32 bits. -/
def Dev.rhMulU (t : Fin 64) (d : Dev) : Dev := d.rhBin t 0 3 fun a b => res (a * b)
/-- DIV.U. -/
def Dev.rhDivU (t : Fin 64) (d : Dev) : Dev := d.rhBin t 0 8 divU
/-- REM.U. -/
def Dev.rhRemU (t : Fin 64) (d : Dev) : Dev := d.rhBin t 0 8 remU
/-- ADDS.U: saturates. -/
def Dev.rhAddsU (t : Fin 64) (d : Dev) : Dev := d.rhBin t 0 2 fun a b => res (satU ((a.toNat : Int) + b.toNat))
/-- SUBS.U: saturates at 0. -/
def Dev.rhSubsU (t : Fin 64) (d : Dev) : Dev := d.rhBin t 0 2 fun a b => res (satU ((a.toNat : Int) - b.toNat))
/-- MULS.U: saturates. -/
def Dev.rhMulsU (t : Fin 64) (d : Dev) : Dev := d.rhBin t 0 4 fun a b => res (satU ((a.toNat : Int) * b.toNat))
/-- MIN.U: unsigned. -/
def Dev.rhMinU (t : Fin 64) (d : Dev) : Dev := d.rhBin t 0 1 fun a b => res (minU a b)
/-- MAX.U: unsigned. -/
def Dev.rhMaxU (t : Fin 64) (d : Dev) : Dev := d.rhBin t 0 1 fun a b => res (maxU a b)

/-! ## q16.16 and f32 arithmetic (Table 7.5) -/

/-- ADD.Q: saturates. -/
def Dev.rhAddQ (t : Fin 64) (d : Dev) : Dev := d.rhBin t 0 1 fun a b => res (satI (a.toInt + b.toInt))
/-- SUB.Q: saturates. -/
def Dev.rhSubQ (t : Fin 64) (d : Dev) : Dev := d.rhBin t 0 1 fun a b => res (satI (a.toInt - b.toInt))
/-- MUL.Q. -/
def Dev.rhMulQ (t : Fin 64) (d : Dev) : Dev := d.rhBin t 0 4 fun a b => res (mulQ a b)
/-- DIV.Q. -/
def Dev.rhDivQ (t : Fin 64) (d : Dev) : Dev := d.rhBin t 0 10 divQ
/-- NEG.Q: saturates. -/
def Dev.rhNegQ (t : Fin 64) (d : Dev) : Dev := d.rhUn t 1 fun a => res (satI (-a.toInt))
/-- ABS.Q: saturates. -/
def Dev.rhAbsQ (t : Fin 64) (d : Dev) : Dev := d.rhUn t 1 fun a => res (satI a.toInt.natAbs)
/-- MIN.Q. -/
def Dev.rhMinQ (t : Fin 64) (d : Dev) : Dev := d.rhBin t 0 1 fun a b => res (minI a b)
/-- MAX.Q. -/
def Dev.rhMaxQ (t : Fin 64) (d : Dev) : Dev := d.rhBin t 0 1 fun a b => res (maxI a b)
/-- ADD.F. -/
def Dev.rhAddF (t : Fin 64) (d : Dev) : Dev := d.rhBin t 0 3 fun a b => res (fAdd a b)
/-- SUB.F. -/
def Dev.rhSubF (t : Fin 64) (d : Dev) : Dev := d.rhBin t 0 3 fun a b => res (fSub a b)
/-- MUL.F. -/
def Dev.rhMulF (t : Fin 64) (d : Dev) : Dev := d.rhBin t 0 3 fun a b => res (fMul a b)
/-- DIV.F. -/
def Dev.rhDivF (t : Fin 64) (d : Dev) : Dev := d.rhBin t 0 10 fun a b => res (fDiv a b)
/-- NEG.F. -/
def Dev.rhNegF (t : Fin 64) (d : Dev) : Dev := d.rhUn t 1 fun a => res (fNeg a)
/-- ABS.F. -/
def Dev.rhAbsF (t : Fin 64) (d : Dev) : Dev := d.rhUn t 1 fun a => res (fAbs a)
/-- MIN.F. -/
def Dev.rhMinF (t : Fin 64) (d : Dev) : Dev := d.rhBin t 0 2 fun a b => res (fMin a b)
/-- MAX.F. -/
def Dev.rhMaxF (t : Fin 64) (d : Dev) : Dev := d.rhBin t 0 2 fun a b => res (fMax a b)
/-- SQRT.F. -/
def Dev.rhSqrtF (t : Fin 64) (d : Dev) : Dev := d.rhUn t 12 fun a => res (fSqrt a)
/-- FLOOR.F. -/
def Dev.rhFloorF (t : Fin 64) (d : Dev) : Dev := d.rhUn t 2 fun a => res (fToWhole .floor a)
/-- CEIL.F. -/
def Dev.rhCeilF (t : Fin 64) (d : Dev) : Dev := d.rhUn t 2 fun a => res (fToWhole .ceil a)
/-- ROUND.F: ties to even. -/
def Dev.rhRoundF (t : Fin 64) (d : Dev) : Dev := d.rhUn t 2 fun a => res (fToWhole .even a)
/-- TRUNC.F. -/
def Dev.rhTruncF (t : Fin 64) (d : Dev) : Dev := d.rhUn t 2 fun a => res (fToWhole .trunc a)

/-! ## Comparison and logic (Table 7.6) -/

/-- CMP.I: signed. -/
def Dev.rhCmpI (t : Fin 64) (c : Cond) (d : Dev) : Dev :=
  d.rhBin t 1 1 fun a b => res (cellOf (condInt c a.toInt b.toInt))
/-- CMP.U: unsigned. -/
def Dev.rhCmpU (t : Fin 64) (c : Cond) (d : Dev) : Dev :=
  d.rhBin t 1 1 fun a b => res (cellOf (condInt c a.toNat b.toNat))
/-- CMP.Q: signed. -/
def Dev.rhCmpQ (t : Fin 64) (c : Cond) (d : Dev) : Dev :=
  d.rhBin t 1 1 fun a b => res (cellOf (condInt c a.toInt b.toInt))
/-- CMP.F. -/
def Dev.rhCmpF (t : Fin 64) (c : Cond) (d : Dev) : Dev := d.rhBin t 1 2 fun a b => res (cellOf (condF c a b))
/-- AND. -/
def Dev.rhAnd (t : Fin 64) (d : Dev) : Dev := d.rhBin t 0 1 fun a b => res (a &&& b)
/-- OR. -/
def Dev.rhOr (t : Fin 64) (d : Dev) : Dev := d.rhBin t 0 1 fun a b => res (a ||| b)
/-- XOR. -/
def Dev.rhXor (t : Fin 64) (d : Dev) : Dev := d.rhBin t 0 1 fun a b => res (a ^^^ b)
/-- NOT. -/
def Dev.rhNot (t : Fin 64) (d : Dev) : Dev := d.rhUn t 1 fun a => res (~~~a)
/-- SHL.I. -/
def Dev.rhShlI (t : Fin 64) (d : Dev) : Dev := d.rhBin t 0 1 fun a n => res (a <<< shiftCount n)
/-- SHL.U. -/
def Dev.rhShlU (t : Fin 64) (d : Dev) : Dev := d.rhBin t 0 1 fun a n => res (a <<< shiftCount n)
/-- SHR.I: arithmetic. -/
def Dev.rhShrI (t : Fin 64) (d : Dev) : Dev := d.rhBin t 0 1 fun a n => res (a.sshiftRight (shiftCount n))
/-- SHR.U: logical. -/
def Dev.rhShrU (t : Fin 64) (d : Dev) : Dev := d.rhBin t 0 1 fun a n => res (a >>> shiftCount n)
/-- ROTL. -/
def Dev.rhRotl (t : Fin 64) (d : Dev) : Dev := d.rhBin t 0 1 fun a n => res (a.rotateLeft (shiftCount n))
/-- ROTR. -/
def Dev.rhRotr (t : Fin 64) (d : Dev) : Dev := d.rhBin t 0 1 fun a n => res (a.rotateRight (shiftCount n))
/-- CLZ. -/
def Dev.rhClz (t : Fin 64) (d : Dev) : Dev := d.rhUn t 3 fun a => res (clz a)
/-- POPC. -/
def Dev.rhPopc (t : Fin 64) (d : Dev) : Dev := d.rhUn t 3 fun a => res (popc a)
/-- EQZ. -/
def Dev.rhEqz (t : Fin 64) (d : Dev) : Dev := d.rhUn t 1 fun a => res (cellOf (a == 0))

/-! ## Conversion (Table 7.7) -/

/-- I2U, U2I, F.BITS, F.FROM, Q.BITS and Q.FROM: the same bits under another type. -/
def Dev.rhSame (t : Fin 64) (d : Dev) : Dev := d.rhUn t 1 res
/-- I2F. -/
def Dev.rhI2F (t : Fin 64) (d : Dev) : Dev := d.rhUn t 2 fun a => res (fOfScaled false a.toInt 0)
/-- U2F. -/
def Dev.rhU2F (t : Fin 64) (d : Dev) : Dev := d.rhUn t 2 fun a => res (fOfScaled false a.toNat 0)
/-- Q2F. -/
def Dev.rhQ2F (t : Fin 64) (d : Dev) : Dev := d.rhUn t 2 fun a => res (fOfScaled false a.toInt (-16))
/-- F2I. -/
def Dev.rhF2I (t : Fin 64) (d : Dev) : Dev := d.rhUn t 3 f2i
/-- F2U. -/
def Dev.rhF2U (t : Fin 64) (d : Dev) : Dev := d.rhUn t 3 f2u
/-- F2Q. -/
def Dev.rhF2Q (t : Fin 64) (d : Dev) : Dev := d.rhUn t 3 f2q
/-- I2Q: value × 65,536, saturated. -/
def Dev.rhI2Q (t : Fin 64) (d : Dev) : Dev := d.rhUn t 1 fun a => res (satI (a.toInt * 65536))
/-- U2Q: value × 65,536, saturated. -/
def Dev.rhU2Q (t : Fin 64) (d : Dev) : Dev := d.rhUn t 1 fun a => res (satI ((a.toNat : Int) * 65536))
/-- Q2I: integer part, towards zero. -/
def Dev.rhQ2I (t : Fin 64) (d : Dev) : Dev := d.rhUn t 1 fun a => res (BitVec.ofInt 32 (a.toInt.tdiv 65536))

/-! ## Control (Table 7.8) -/

/-- A forward transfer: every loop that the jump leaves starts its count anew when control next reaches its head from
outside (R175). -/
def Frame.jump (fr : Frame) (target : Nat) : Frame :=
  { fr with loops := fr.loops.filter (fun l => !(fr.pc ≤ l.1 && l.1 < target)), pc := target }

/-- BR. -/
def Dev.rhBr (t : Fin 64) (ofs : BitVec 16) (d : Dev) : Dev :=
  d.rh t 2 1 0 fun w fr => (w, fr.jump (fr.pc + ofs.toNat))

/-- A branch taken where the popped cell satisfies `taken`. -/
def Dev.rhBranch (d : Dev) (t : Fin 64) (ofs : BitVec 16) (taken : Word → Bool) : Dev :=
  d.rh t 2 1 1 fun w fr =>
    match fr.stack with
    | a :: st =>
      let fr1 := { fr with stack := st }
      (w, if taken a then fr1.jump (fr1.pc + ofs.toNat) else fr1)
    | [] => (w, fr)

/-- BRZ. -/
def Dev.rhBrz (t : Fin 64) (ofs : BitVec 16) (d : Dev) : Dev := d.rhBranch t ofs (· == 0)

/-- BRNZ. -/
def Dev.rhBrnz (t : Fin 64) (ofs : BitVec 16) (d : Dev) : Dev := d.rhBranch t ofs (· != 0)

/-- LOOP (R175): the count of this loop is incremented; back to the head while the cell is not 0 and the count is
below MAX. -/
def Dev.rhLoop (t : Fin 64) (mx back : BitVec 16) (d : Dev) : Dev :=
  d.rh t 4 2 1 fun w fr =>
    match fr.stack with
    | a :: st =>
      let at' := fr.pc - 5
      let n := (mapFind fr.loops at').getD 0 + 1
      let rest := fr.loops.filter (fun l => l.1 != at')
      if a != 0 && n < mx.toNat then (w, { fr with stack := st, loops := (at', n) :: rest, pc := at' - back.toNat })
      else (w, { fr with stack := st, loops := rest })
    | [] => (w, fr)

/-- CALL (R170, R208): the arguments become the first locals, the deepest one local 0; every other local holds 0. -/
def Dev.rhCall (t : Fin 64) (fn : BitVec 16) (d : Dev) : Dev :=
  match d.image.fns[fn.toNat]? with
  | none => d
  | some g =>
    d.rhRaw t 2 4 g.args.length fun w fr rest =>
      let n := g.args.length
      let args := (fr.stack.take n).reverse
      let callee : Frame :=
        { fn := fn.toNat, pc := 0, stack := [], locals := args ++ List.replicate (g.nlocals - n) 0, loops := [] }
      { w with frames := callee :: { fr with stack := fr.stack.drop n } :: rest }

/-- RET (R171, R172): the results go onto the caller's stack in their order; at depth 1 the release is finished. -/
def Dev.rhRet (t : Fin 64) (d : Dev) : Dev :=
  d.rhRaw t 0 2 0 fun w fr rest =>
    match rest with
    | [] => { w with frames := [], status := .finished }
    | caller :: more => { w with frames := { caller with stack := fr.stack ++ caller.stack } :: more }

/-- SELECT: a b c → a if c ≠ 0, else b. -/
def Dev.rhSelect (t : Fin 64) (d : Dev) : Dev :=
  d.rhStack t 0 1 3 fun s => match s with | c :: b :: a :: r => (if c != 0 then a else b) :: r | r => r

/-! ## Worktop and constant memory (Table 7.9) -/

/-- LD8U. -/
def Dev.rhLd8U (t : Fin 64) (d : Dev) : Dev := d.rhLoad t 0 1 (BitVec.ofNat 32)
/-- LD8S. -/
def Dev.rhLd8S (t : Fin 64) (d : Dev) : Dev := d.rhLoad t 0 1 fun v => (BitVec.ofNat 8 v).signExtend 32
/-- LD16U. -/
def Dev.rhLd16U (t : Fin 64) (d : Dev) : Dev := d.rhLoad t 0 2 (BitVec.ofNat 32)
/-- LD16S. -/
def Dev.rhLd16S (t : Fin 64) (d : Dev) : Dev := d.rhLoad t 0 2 fun v => (BitVec.ofNat 16 v).signExtend 32
/-- LD32: TYPE gives the cell's type and changes no bit. -/
def Dev.rhLd32 (t : Fin 64) (_ty : RhType) (d : Dev) : Dev := d.rhLoad t 1 4 (BitVec.ofNat 32)
/-- ST8. -/
def Dev.rhSt8 (t : Fin 64) (d : Dev) : Dev := d.rhStore t 1
/-- ST16. -/
def Dev.rhSt16 (t : Fin 64) (d : Dev) : Dev := d.rhStore t 2
/-- ST32. -/
def Dev.rhSt32 (t : Fin 64) (d : Dev) : Dev := d.rhStore t 4
/-- LDC8U. -/
def Dev.rhLdc8U (t : Fin 64) (d : Dev) : Dev := d.rhConst t 0 1
/-- LDC16U. -/
def Dev.rhLdc16U (t : Fin 64) (d : Dev) : Dev := d.rhConst t 0 2
/-- LDC32. -/
def Dev.rhLdc32 (t : Fin 64) (_ty : RhType) (d : Dev) : Dev := d.rhConst t 1 4

/-! ## Image I/O, edges and capture (R210 to R212) -/

/-- IN. -/
def Dev.rhIn (t : Fin 64) (ch : BitVec 10) (el : BitVec 6) (_ty : RhType) (d : Dev) : Dev :=
  d.rhPush t 4 2 fun w _ => (w.latch.input (elemKey ch.toNat el.toNat)).value

/-- INST: the status byte, zero-extended. -/
def Dev.rhInst (t : Fin 64) (ch : BitVec 10) (el : BitVec 6) (d : Dev) : Dev :=
  d.rhPush t 4 2 fun w _ => BitVec.ofNat 32 (w.latch.input (elemKey ch.toNat el.toNat)).status

/-- OUT: the last one executed stands. -/
def Dev.rhOut (t : Fin 64) (ch : BitVec 10) (el : BitVec 6) (_ty : RhType) (d : Dev) : Dev :=
  d.rhPop t 4 2 fun v w =>
    { w with staged := { w.staged with outs := mapPut w.staged.outs (elemKey ch.toNat el.toNat) v } }

/-- OUTGET: the value staged last, else the output image as it stood at the release. -/
def Dev.rhOutget (t : Fin 64) (ch : BitVec 10) (el : BitVec 6) (_ty : RhType) (d : Dev) : Dev :=
  d.rhPush t 4 2 fun w _ =>
    let k := elemKey ch.toNat el.toNat
    (mapFind w.staged.outs k).getD (mapGet w.latch.outs k)

/-- PREV. -/
def Dev.rhPrev (t : Fin 64) (ch : BitVec 10) (el : BitVec 6) (_ty : RhType) (d : Dev) : Dev :=
  d.rhPush t 4 2 fun w _ => (w.latch.input (elemKey ch.toNat el.toNat)).prev

/-- EDGE.R: (NOT PREV) AND IN. -/
def Dev.rhEdgeR (t : Fin 64) (ch : BitVec 10) (el : BitVec 6) (d : Dev) : Dev :=
  d.rhPush t 4 3 fun w _ =>
    let e := w.latch.input (elemKey ch.toNat el.toNat)
    ~~~e.prev &&& e.value

/-- EDGE.F: PREV AND (NOT IN). -/
def Dev.rhEdgeF (t : Fin 64) (ch : BitVec 10) (el : BitVec 6) (d : Dev) : Dev :=
  d.rhPush t 4 3 fun w _ =>
    let e := w.latch.input (elemKey ch.toNat el.toNat)
    e.prev &&& ~~~e.value

/-- CAP.N. -/
def Dev.rhCapN (t : Fin 64) (ch : BitVec 10) (d : Dev) : Dev :=
  d.rhPush t 2 2 fun w _ => BitVec.ofNat 32 (w.latch.cap ch.toNat).entries.length

/-- CAP.X. -/
def Dev.rhCapX (t : Fin 64) (ch : BitVec 10) (d : Dev) : Dev :=
  d.rhPush t 2 2 fun w _ => BitVec.ofNat 32 (w.latch.cap ch.toNat).further

/-- Words stored one after the other from an address, each checked on its own. -/
def Dev.winStoreWords (d : Dev) (p : Nat) (a : Word) (vs : List Word) (w : Window) : Window :=
  vs.zipIdx.foldl (fun w v => d.winStore p 4 (a + BitVec.ofNat 32 (4 * v.2)) v.1 w) w

/-- CAP.CP: 16 entry slots of two words, slots beyond the count 0. -/
def Dev.rhCapCp (t : Fin 64) (ch : BitVec 10) (d : Dev) : Dev :=
  d.rhPop t 2 12 fun a w =>
    let ws := (w.latch.cap ch.toNat).entries.flatMap capWords
    d.winStoreWords (d.potOf t) a ((ws ++ List.replicate 32 0).take 32) w

/-! ## Time, timers, registers and SELF (R213, R214, R220, Table 7.11) -/

/-- The latched value of a selector. -/
def Latch.time (l : Latch) : TimeSel → Word
  | .msLo => BitVec.ofNat 32 l.count.toNat
  | .msHi => BitVec.ofNat 32 (l.count.toNat / 2 ^ 32)
  | .wm => BitVec.ofNat 32 l.wm
  | .siLo => BitVec.ofNat 32 l.si.toNat
  | .siHi => BitVec.ofNat 32 (l.si.toNat / 2 ^ 32)
  | .netMsLo => BitVec.ofNat 32 l.netMs.toNat
  | .netMsHi => BitVec.ofNat 32 (l.netMs.toNat / 2 ^ 32)
  | .netSiLo => BitVec.ofNat 32 l.netSi.toNat
  | .netSiHi => BitVec.ofNat 32 (l.netSi.toNat / 2 ^ 32)
  | .cycle => BitVec.ofNat 32 l.cyc
  | .die => BitVec.ofInt 32 l.die
  | .netValid => cellOf l.netValid

/-- TIME. -/
def Dev.rhTime (t : Fin 64) (s : TimeSel) (d : Dev) : Dev := d.rhPush t 1 1 fun w _ => w.latch.time s

/-- The latched time of a base: SI time, or milestones where bit 0 of BASE is 1. -/
def Latch.base (l : Latch) (ms : Bool) : Nat := if ms then l.count.toNat else l.si.toNat

/-- T.START: the four words of the record, each checked on its own. -/
def Dev.rhTStart (t : Fin 64) (ms : Bool) (d : Dev) : Dev :=
  d.rh t 1 6 2 fun w fr =>
    match fr.stack with
    | dur :: a :: st =>
      let now := w.latch.base ms
      let ws : List Word := [BitVec.ofNat 32 now, BitVec.ofNat 32 (now / 2 ^ 32), dur, cellOf ms]
      (d.winStoreWords (d.potOf t) a ws w, { fr with stack := st })
    | _ => (w, fr)

/-- The four words of a timer record, each load checked on its own: elapsed time and DURATION. -/
def Dev.timerRecord (d : Dev) (p : Nat) (a : Word) (w : Window) : Window × Nat × Nat :=
  let lo := d.winLoad p 4 a w
  let hi := d.winLoad p 4 (a + 4) lo.1
  let du := d.winLoad p 4 (a + 8) hi.1
  let ba := d.winLoad p 4 (a + 12) du.1
  let now := w.latch.base (ba.2 % 2 == 1)
  (ba.1, (now + 2 ^ 64 - (lo.2 + hi.2 * 2 ^ 32)) % 2 ^ 64, du.2)

/-- An instruction that pops a timer record's address and pushes a value of it. -/
def Dev.rhTimer (d : Dev) (t : Fin 64) (cost : Nat) (f : Nat → Nat → Word) : Dev :=
  d.rh t 0 cost 1 fun w fr =>
    match fr.stack with
    | a :: st =>
      let r := d.timerRecord (d.potOf t) a w
      (r.1, { fr with stack := f r.2.1 r.2.2 :: st })
    | [] => (w, fr)

/-- T.EXP. -/
def Dev.rhTExp (t : Fin 64) (d : Dev) : Dev := d.rhTimer t 5 fun el du => cellOf (du ≤ el)

/-- T.LEFT. -/
def Dev.rhTLeft (t : Fin 64) (d : Dev) : Dev := d.rhTimer t 6 fun el du => BitVec.ofNat 32 (du - el)

/-- REG.RD: the register as latched at the release. -/
def Dev.rhRegRd (t : Fin 64) (addr : BitVec 24) (d : Dev) : Dev :=
  d.rhPush t 4 2 fun w _ => mapGet w.latch.regs addr.toNat

/-- REG.WR: staged for the commit; the last one executed stands, in its place of execution. -/
def Dev.rhRegWr (t : Fin 64) (addr : BitVec 24) (d : Dev) : Dev :=
  d.rhPop t 4 2 fun v w =>
    { w with staged := { w.staged with regs := mapPut w.staged.regs addr.toNat v } }

/-- The code of an entry as SELF pushes it. -/
def EntryKind.code : EntryKind → Nat
  | .cold => 0
  | .warm => 1
  | .cyclic => 2

/-- SELF. -/
def Dev.rhSelf (t : Fin 64) (s : SelfSel) (d : Dev) : Dev :=
  d.rhPush t 1 1 fun w _ =>
    BitVec.ofNat 32 (match s with | .task => t.val | .pot => d.potOf t | .entry => w.entry.code)

/-! ## Hatches, larder, scripts and the face (R215 to R221, Table 7.13) -/

/-- Bytes of a hatch word at offsets at or above its LENGTH are 0. -/
def maskWord (length word : Nat) (v : Word) : Word :=
  let n := length - 4 * word
  if 4 ≤ n then v else BitVec.ofNat 32 (v.toNat % 2 ^ (8 * n))

/-- H.RD: the latched copy, or the writer's own latest staged word. -/
def Dev.rhHRd (t : Fin 64) (h : BitVec 6) (wd : BitVec 4) (_ty : RhType) (d : Dev) : Dev :=
  d.rhPush t 2 2 fun w _ =>
    match d.image.hatch h.toNat with
    | none => 0
    | some x =>
      let own := if x.writer = t.val then mapFind w.staged.hatch (h.toNat, wd.toNat) else none
      let cur := BitVec.ofNat 32 (leNat (((w.latch.hatch h.toNat).bytes.drop (4 * wd.toNat)).take 4))
      maskWord x.length wd.toNat (own.getD cur)

/-- H.WR: staged for publication; the last one executed stands. -/
def Dev.rhHWr (t : Fin 64) (h : BitVec 6) (wd : BitVec 4) (_ty : RhType) (d : Dev) : Dev :=
  d.rhPop t 2 2 fun v w =>
    { w with staged := { w.staged with hatch := mapPut w.staged.hatch (h.toNat, wd.toNat) v } }

/-- H.GEN. -/
def Dev.rhHGen (t : Fin 64) (h : BitVec 6) (d : Dev) : Dev := d.rhPush t 1 1 fun w _ => (w.latch.hatch h.toNat).gen

/-- The logical group that a region and a group number name. -/
def Dev.regionGroup (d : Dev) (r g : Nat) : Nat :=
  match d.image.region r with
  | some x => x.base + g
  | none => g

/-- L.RD: the task's own staged half, else the half as it stood at the release; `e` is what the check byte of the group
shows where the larder is read (R241, R243). -/
def Dev.rhLRd (t : Fin 64) (r : BitVec 6) (half : Bool) (g : BitVec 15) (_ty : RhType) (e : EccFind) (d : Dev) : Dev :=
  let key := (r.toNat, g.toNat, b2n half)
  match d.cycle.tasks[t].window with
  | none => d
  | some win =>
  if win.status ≠ .running then d else
  match mapFind win.staged.larder key with
  | some v => d.rhPush t 4 6 fun _ _ => v
  | none =>
    let n := d.regionGroup r.toNat g.toNat
    let d1 := (d.larderFind n e).markLostRead n
    d1.rhPush t 4 6 fun w _ =>
      if d1.store.lost.contains n || d1.store.failed.contains n then 0
      else BitVec.ofNat 32 (leNat (Mem.readBytes larderByte w.latch.larder (8 * n + 4 * b2n half) 4))

/-- The distinct groups that a release has staged. -/
def Staged.groupsOf (s : Staged) : List (Nat × Nat) := (s.larder.map (fun p => (p.1.1, p.1.2.1))).eraseDups

/-- L.WR: staged for the commit; a 513th group is discarded and its region overflows (R217). -/
def Dev.rhLWr (t : Fin 64) (r : BitVec 6) (half : Bool) (g : BitVec 15) (_ty : RhType) (d : Dev) : Dev :=
  d.rhPop t 4 6 fun v w =>
    let gs := w.staged.groupsOf
    if gs.contains (r.toNat, g.toNat) || gs.length < 512 then
      { w with staged := { w.staged with larder := mapPut w.staged.larder (r.toNat, g.toNat, b2n half) v } }
    else { w with staged := { w.staged with overflow := r.toNat :: w.staged.overflow } }

/-- L.STAT. -/
def Dev.rhLStat (t : Fin 64) (r : BitVec 6) (d : Dev) : Dev := d.rhPush t 1 2 fun w _ => mapGet w.latch.larStat r.toNat

/-- S.RUN: of S.RUN and S.STOP for a slot the last one executed acts. -/
def Dev.rhSRun (t : Fin 64) (s : BitVec 4) (d : Dev) : Dev :=
  d.rhStage t 1 2 fun g => { g with runs := mapPut g.runs s.toNat true }

/-- S.STOP. -/
def Dev.rhSStop (t : Fin 64) (s : BitVec 4) (d : Dev) : Dev :=
  d.rhStage t 1 2 fun g => { g with runs := mapPut g.runs s.toNat false }

/-- S.PAR. -/
def Dev.rhSPar (t : Fin 64) (s k : BitVec 4) (d : Dev) : Dev :=
  d.rhPop t 2 2 fun v w =>
    { w with staged := { w.staged with params := mapPut w.staged.params (s.toNat, k.toNat) v } }

/-- S.STAT. -/
def Dev.rhSStat (t : Fin 64) (s : BitVec 4) (d : Dev) : Dev := d.rhPush t 1 2 fun w _ => mapGet w.latch.slots s.toNat

/-- F.RECT: the descriptor's address, staged in the order executed. -/
def Dev.rhFRect (t : Fin 64) (r : BitVec 4) (d : Dev) : Dev :=
  d.rhPop t 1 4 fun a w =>
    { w with staged := { w.staged with fRects := w.staged.fRects ++ [(r.toNat, a.toNat)] } }

/-- F.ABORT. -/
def Dev.rhFAbort (t : Fin 64) (r : BitVec 4) (d : Dev) : Dev :=
  d.rhStage t 1 2 fun g => { g with fAborts := g.fAborts ++ [r.toNat] }

/-- F.STEN. -/
def Dev.rhFSten (t : Fin 64) (k : BitVec 16) (d : Dev) : Dev :=
  d.rhStage t 2 4 fun g => { g with fStens := g.fStens ++ [k.toNat] }

/-- F.STAT. -/
def Dev.rhFStat (t : Fin 64) (r : BitVec 4) (d : Dev) : Dev := d.rhPush t 1 2 fun w _ => mapGet w.latch.faceStat r.toNat

end Sys2Proof.Machine
end

