-- ==== Sys2Proof/Machine/Switch.lean ====
section
/-! DEFINITION. The STORE commands that judge an image: SEAL and the bank switch (R224, R233 to R239, Table 8.5). -/

namespace Sys2Proof.Machine

/-! ## SEAL -/

/-- Every check of R224 over a bank as it stands. -/
def Bank.sealOk (x : Bank) : Bool :=
  let len := Mem.readLE zeroByte x.bytes 8 4
  let img := x.dense (max 256 (min 1048576 len))
  img.take 4 == [0x48, 0x46, 0x4E, 0x49] && leAt img 4 2 == 1 && decide (len ≤ 1048576) &&
    crc32 (img.take 0xFC) == leAt img 0xFC 4 && (crcFails (sectionsOf img)).isEmpty

/-- SEAL_COMPLETE: the checks end, and the mark is written where they hold. -/
def Dev.sealComplete (d : Dev) : Dev :=
  match d.store.busy with
  | some (.seal b) =>
    if (d.store.bank b).sealOk then
      (d.onStore fun s => { s.setBank b { s.bank b with mode := .complete } with progress := 100 }).storeEnd 3 1 true
    else d.storeEnd 3 7 false
  | _ => d

/-! ## Verification and arming (R233, R234, R79) -/

/-- The domains that a plan makes ON or DEMAND_ON and that are off. -/
def Dev.planNeeds (d : Dev) (m : Image) : BitVec 16 := m.startOn &&& ~~~d.power.on

/-- A SWITCH command that ends with a code. -/
def Dev.switchEnd (d : Dev) (code : Nat) : Dev := (d.onStore fun s => { s.setResult 4 code with sw := .idle }).attnStore

/-- The switch boundary that a verified SWITCH asks for, by the low 32 bits of its local count; none without the network
number that AT_NET needs. -/
def Dev.switchAt (d : Dev) (m : Image) (at' : Nat) (atNet asap : Bool) : Option Nat :=
  let need := d.planNeeds m != 0
  let next := (d.ms + 1) % 2 ^ 32
  if asap then some (if need then (d.ms + 2) % 2 ^ 32 else next)
  else if atNet && !d.time.netValid then none
  else
    let b := if atNet then (at' + 2 ^ 32 - d.time.netOfs.toNat % 2 ^ 32) % 2 ^ 32 else at'
    some (if need && b = next then (d.ms + 2) % 2 ^ 32 else b)

/-- SWITCH_VERIFIED: every check of Table 6.10 has been made on the candidate (R234). -/
def Dev.switchVerified (d : Dev) : Dev :=
  match d.store.sw with
  | .verifying b at' warm net asap =>
    match d.attempt b false with
    | (d1, none, cause) => (d1.onStore fun s => { s with vfyCause := BitVec.ofNat 8 cause }).switchEnd 0xA
    | (d1, some m, _) =>
      match d1.switchAt m at' net asap with
      | none => d1.switchEnd 5
      | some t =>
        let ahead := (t + 2 ^ 32 - d1.ms % 2 ^ 32) % 2 ^ 32
        if ahead = 0 || 2 ^ 31 ≤ ahead then d1.switchEnd 9
        else
          (d1.onStore fun s =>
            { s.setResult 4 1 with sw := .armed b t warm m, swAt := BitVec.ofNat 32 t, progress := 100 }).attnStore
  | _ => d

/-- Whether the switch boundary lies `k` milestones ahead. -/
def Dev.switchDue (d : Dev) (k : Nat) : Bool :=
  match d.store.sw with
  | .armed _ t _ _ => t == (d.ms + k) % 2 ^ 32
  | _ => false

/-- Step 2 of the boundary before the switch: the new plan's domains are switched on (R79), a faulted one too (DESIGN CHOICE,
log 157). -/
def Dev.planOn (d : Dev) : Dev :=
  match d.store.sw with
  | .armed _ _ _ m =>
    if d.switchDue 1 then
      let need := d.planNeeds m
      if need = 0 then d
      else d.onPower fun p => ({ p with req := p.req ||| need } : PowerState).switchTo (p.on ||| need)
    else d
  | _ => d

/-! ## Step 5 of the switch boundary (R236 to R239) -/

/-- The Line as an image without LINE_EN leaves it. -/
def LineState.stop (l : LineState) : LineState :=
  { l.cutTx with quiet := none, joined := false, parent := none, queue := [], awaits := [], rep := none }

/-- Hatches that the new image declares alike, with the same writer pot, keep contents and generation (R239). -/
def carryHatch (old new : Dev) (h : Nat) (x : HatchState) : HatchState :=
  match old.image.hatch h, new.image.hatch h with
  | some a, some b =>
    if a.length = b.length && old.potOf a.writer = new.potOf b.writer then x else HatchState.reset
  | _, _ => HatchState.reset

/-- Whether pot `p` starts at a switch (Table 8.5). -/
def Dev.switchStarts (d : Dev) (m : Image) (p : Nat) : Bool :=
  d.sys.mode == .run && m.declared p && !((d.pot p).run == PotRun.stopped)

/-- The output image after a switch (R238): carried elements keep their value, the other owned ones take the safe plate, and
nothing else is held. -/
def switchOutputs (old new : Dev) : List (Nat × Word) :=
  new.image.ownedChannels.flatMap fun ch =>
    let was := old.image.owner ch
    let carried := was < 16 && (old.pot was).run == PotRun.run && old.switchStarts new.image (new.image.owner ch)
    (new.outputsOf ch).map fun el =>
      let k := elemKey ch el
      let had := old.image.elem old.netAddr ch el == some true
      (k, if carried && had then mapGet old.cycle.outImage k else new.safeOf ch el)

/-- The pots of the new image (Table 8.5). The held CRC of a region that the new image lays elsewhere is none of the new region's. -/
def switchPots (old : Dev) (warm : Nat) (d : Dev) : Dev :=
  (upTo 16).foldl (fun d p =>
    let same := d.image.window p == old.image.window p && d.image.retain.getD p (0, 0) == old.image.retain.getD p (0, 0)
    if old.switchStarts d.image p then
      d.potStart p (warm.testBit p) same true
    else if d.image.declared p then d.onPot p fun x => { x with heldCrc := if same then x.heldCrc else none }
    else d.onPot p fun x => { x with run := .idle, pend := none, pendNext := none }) d

/-- What the new image's role, source and Line use change. A node that becomes a junction with its Line running begins a quiet
start at the switch milestone (R19, R395; DEDUCED, log 166). -/
def Dev.switchRole (d : Dev) (old : Image) : Dev :=
  let m := d.image
  let d1 := d.onTime fun t => if m.xtalSrc = t.imgXtal then t else t.selectSource m.xtalSrc
  let d2 :=
    if old.role = m.role then d1
    else
      let e := ({ d1 with sys := { d1.sys with role := BitVec.ofNat 2 m.role, clash := false } } : Dev).junctionStart
      if e.junction then e.onLine fun l => { l.cutTx with quiet := l.quiet.map (fun _ => d.ms) } else e
  let d3 := d2.onLine fun l => { l with courierIn := [], convoyIn := [], lastSent := [] }
  (if m.lineEn then d3 else if old.lineEn then d3.onLine LineState.stop else d3).lineStart

/-- The domains that the new plan makes OFF go off at step 5 (R79). -/
def Dev.planOff (d : Dev) : Dev :=
  let off := d.power.on &&& domMask ((upTo 16).filter (fun n => d.image.cls n == .off))
  if off = 0 then d
  else (d.domainsOff off).onPower fun p => ({ p with req := p.req &&& ~~~off } : PowerState).switchTo (p.on &&& ~~~off)

/-- BANK_SWITCH at step 5 of the switch boundary. Every task starts anew, those of a pot that stays STOPPED too (DESIGN CHOICE,
log 163). -/
def Dev.bankSwitch (d : Dev) : Dev :=
  match d.store.sw with
  | .armed b _ warm m =>
    if !d.switchDue 0 then d
    else
      let d1 := (upTo 16).foldl Dev.slotsLeave d
      let d2 := d1.onFace fun f => { f with ops := [] }
      let d3 := (d2.onStore fun s =>
        { ((s.activate (some b)).recordBank b) with sw := .idle, committedAt := some (d.ms, d.time.wm, 4) }).event 0x0D (b2n b) 0
        (d.image.generation + 2 ^ 32 * m.generation) 0
      let d4 := { d3 with image := m, cycle := { d3.cycle with tasks := Vector.replicate 64 TaskState.reset } }
      let d5 := d4.onCycle fun c => { c with hatches := vmapi (carryHatch d d4) c.hatches }
      let d6 := ((d5.senseImage d.image.senseCfg).loadConverters.cxUnowned.loadGroups.loadWhisk.switchRole d.image).remoteReset
      let d7 := switchPots d warm d6
      let d8 := d7.onCycle fun c => { c with outImage := switchOutputs d d7 }
      let d9 := if d.sys.mode = .run then (if m.busPayload.isSome then d8.busStart else d8.busStop) else d8
      d9.planOff
  | _ => d

end Sys2Proof.Machine
end

