-- ==== Sys2Proof/Machine/Task.lean ====
section
/-! DEFINITION. Releases, latches and commits of tasks (R101 to R113, R121, R126 to R133, R137, R216, R222). -/

namespace Sys2Proof.Machine

/-! ## The latch (R126 to R133) -/

/-- One input element latched. The kept value equals the new one at a first latch, while OFFLINE is set and at the first
latch after it clears (R130). -/
def Dev.latchIn (d : Dev) (x : TaskState) (k : Nat) : LatchedIn :=
  let v := d.inputNow k
  let fresh := !x.latched || bitOf v.2 0 || x.keptOff.contains k
  { key := k, value := v.1, prev := if fresh then v.1 else (mapFind x.kept k).getD v.1, status := v.2 }

/-- What a stream delivers at a latch of local SI time `now` µs: of the entries stamped from the latch before on and before
`now`, the oldest 16 and a count of the further ones. -/
def latchCap (x : TaskState) (now s : Nat) : LatchedCap :=
  let due := ((mapFind x.caps s).getD []).filter (fun e => x.since ≤ e.si && e.si < now)
  { stream := s, entries := due.take 16, further := min (due.length - 16) 65535 }

/-- The status word of a larder region (Table 7.12). -/
def RegionStat.word (x : RegionStat) : Word := BitVec.ofNat 32 (b2n x.overflow + 2 * b2n x.lost + 4 * b2n x.retired)

/-- The larder as every load of a release sees it: committed writes stand, lost and failed groups read 0 (R216, R243). -/
def StoreState.snapshot (s : StoreState) : Mem :=
  let put := fun (m : Mem) (p : Nat × List Byte) => Mem.writeBytes larderByte m (8 * p.1) p.2
  let m1 := s.queue.foldl (fun m w =>
    match w with
    | .imm g b _ => put m (g, b)
    | .txn t => t.groups.foldl put m) s.home
  (s.lost ++ s.failed).foldl (fun m g => put m (g, List.replicate 8 0)) m1

/-- The keys of the input elements that a task names. -/
def Image.inputKeys (m : Image) (t : Nat) : List Nat := (m.taskNames t).inputs.map (fun p => elemKey p.1 p.2)

/-- What task `t` latches now. -/
def Dev.latchOf (d : Dev) (t : Nat) : Latch :=
  let x := d.task t
  let n := d.image.taskNames t
  let p := d.potOf t
  let now := d.time.now / 1000
  { inputs := (d.image.inputKeys t).map (d.latchIn x)
    caps := if x.latched then n.streams.map (latchCap x now) else []
    hatches := n.hatches.map (fun h =>
      let y := vgetD d.cycle.hatches h HatchState.reset
      { hatch := h, bytes := y.bytes, gen := y.gen })
    outs := d.cycle.outImage
    regs := n.regs.map (fun a => (a, if h : p < 16 then d.taskRead ⟨p, h⟩ a else 0))
    slots := n.slots.map (fun s => (s, BitVec.ofNat 32 (d.slotStatus s)))
    larStat := (upTo 64).filterMap (fun r =>
      match d.image.region r with
      | some g =>
        if g.owner = p then
          some (r, (vgetD d.store.regions r { overflow := false, lost := false, retired := false }).word)
        else none
      | none => none)
    faceStat := (d.image.potRegions p).map (fun r => (r, BitVec.ofNat 32 (d.face.stat r)))
    count := d.time.count, wm := d.time.wm, si := BitVec.ofNat 64 d.si, netMs := BitVec.ofNat 48 d.netMs
    netSi := BitVec.ofNat 64 (d.si + d.time.siOfs.toNat)
    cyc := d.cycleCount, die := d.time.dieShown, netValid := d.time.netValid
    worktop := d.cycle.worktop, larder := d.store.snapshot }

/-- A task state after a latch: what the next one compares with, and the capture entries still to come. -/
def TaskState.afterLatch (x : TaskState) (l : Latch) (now : Nat) : TaskState :=
  { x with
    latched := true
    since := now
    kept := l.inputs.map (fun i => (i.key, i.value))
    keptOff := (l.inputs.filter (fun i => bitOf i.status 0)).map (·.key)
    caps := x.caps.map (fun c => (c.1, c.2.filter (fun e => now ≤ e.si))) }

/-! ## The release (R121, R168, R172) -/

/-- Whether a task releases at the present waymark. -/
def Dev.releases (d : Dev) (t : Nat) : Bool :=
  match d.image.route t with
  | some r =>
    d.sys.mode == .run && (d.pot r.pot).run == PotRun.run && r.release == d.time.wm &&
      d.cycleCount % 2 ^ r.period == r.phase
  | none => false

/-- The function of an entry. -/
def Route.entryFn (r : Route) : EntryKind → Nat
  | .cold => r.cold
  | .warm => r.warm
  | .cyclic => r.cyclic

/-- The frame with which an entry starts: no argument, every local 0. -/
def Image.entryFrame (m : Image) (f : Nat) : Frame :=
  let n := match m.fns[f]? with
    | some g => g.nlocals
    | none => 0
  { fn := f, pc := 0, stack := [], locals := List.replicate n 0, loops := [] }

/-- Why a release finds no lane to run on: its carriageway has faulted since the last release, or is not usable (R74, R80), or
its logical lane is unmapped (R91). -/
def Dev.laneLost (d : Dev) (t : Nat) (r : Route) : Option OvrCause :=
  if (d.task t).cwLost || !d.pd (2 + r.lane / 11) then some .carriageway
  else if (d.lane.served r.lane).isNone then some .unmapped
  else none

/-- One task latched and released. What its reads of TIME.MS_LO and TIME.SI_LO latch, it latches at this same release (R57,
R220). -/
def Dev.release (d : Dev) (t : Nat) : Dev :=
  match d.image.route t with
  | none => d
  | some r =>
    let who : Fin 17 := if h : r.pot < 17 then ⟨r.pot, h⟩ else 16
    let d1 := d.latchReads who 0 (d.image.taskNames t).regs
    let l := d1.latchOf t
    let fail := d.laneLost t r
    d1.onTask t fun x =>
      { x.afterLatch l (d.time.now / 1000) with
        entry := .cyclic, cwLost := false
        window := some { left := r.length, entry := x.entry, status := if fail.isSome then .stuck else .running, fail,
                         frames := [d.image.entryFrame (r.entryFn x.entry)], latch := l, staged := Staged.none, units := 0 } }

/-- Steps 7 and 8: every task due latches, then starts. -/
def Dev.releaseAll (d : Dev) : Dev := ((upTo 64).filter d.releases).foldl Dev.release d

/-! ## The commit (R222) -/

/-- Worktop stores, oldest first (R102). -/
def Dev.commitStores (d : Dev) (s : Staged) : Dev :=
  d.onCycle fun c => { c with worktop := s.stores.reverse.foldl (fun m p => Mem.write zeroByte m p.1 p.2) c.worktop }

/-- Output elements (R137); the commit of a writer of channel 0x060 sets the light permit (R507). -/
def Dev.commitOuts (d : Dev) (t : Nat) (s : Staged) : Dev :=
  let d1 := d.onCycle fun c => { c with outImage := s.outs.reverse.foldl (fun m p => mapPut m p.1 p.2) c.outImage }
  if (d.image.taskNames t).outputs.any (fun p => p.1 == 0x060) then d1.onFace fun f => { f with permit := true } else d1

/-- Words stored to the hatches that a task writes: its own, then those of the bus service, which runs in the same code. -/
def Dev.hatchWords (d : Dev) (t : Nat) (s : Staged) : List (Nat × Nat × Word) :=
  s.hatch.reverse.map (fun p => (p.1.1, p.1.2, p.2)) ++
    (d.bus.writes.filter (fun w =>
      match d.image.hatch w.hatch with
      | some h => h.writer == t
      | none => false)).map (fun w => (w.hatch, w.word, w.value))

/-- One word stored below LENGTH. -/
def HatchState.put (x : HatchState) (length word : Nat) (v : Word) : HatchState :=
  { x with bytes := x.bytes.zipIdx.map (fun b =>
      if 4 * word ≤ b.2 && b.2 < 4 * word + 4 && b.2 < length then BitVec.ofNat 8 (v.toNat >>> (8 * (b.2 - 4 * word)))
      else b.1) }

/-- Hatch publications (R110), and the SimpleACK of each WriteProperty that they publish (R440). -/
def Dev.commitHatches (d : Dev) (t : Nat) (s : Staged) : Dev :=
  let ws := d.hatchWords t s
  let d1 := d.onCycle fun c =>
    { c with hatches := vmapi (fun h (x : HatchState) =>
        match d.image.hatch h with
        | some g =>
          let mine := ws.filter (fun w => w.1 == h && 4 * w.2.1 < g.length)
          if mine.isEmpty then x
          else { mine.foldl (fun (x : HatchState) w => x.put g.length w.2.1 w.2.2) x with gen := x.gen + 1 }
        | none => x) c.hatches }
  let done := d.bus.writes.filter (fun w => ws.any (fun x => x.1 == w.hatch))
  let d2 := done.foldl (fun d w => d.busSay w.mac (.simpleAck w.invoke .writeProperty)) d1
  d2.onBus fun b => { b with writes := b.writes.filter (fun w => !done.contains w) }

/-- The groups of one region that a release has staged, each whole: the other half keeps its present value (R246). -/
def StoreState.stagedGroups (s : StoreState) (base r : Nat) (g : Staged) : List (Nat × List Byte) :=
  (g.groupsOf.filter (fun p => p.1 == r)).reverse.map fun p =>
    let n := base + p.2
    let old := s.group n
    let half := fun (k : Nat) =>
      match mapFind g.larder (r, p.2, k) with
      | some v => leBytes 4 v.toNat
      | none => (old.drop (4 * k)).take 4
    (n, half 0 ++ half 1)

/-- Larder writes of a commit: group by group in an immediate region, one transaction in a journaled one (R216, R247);
OVERFLOW tells of the last commit of the pot (R217). -/
def Dev.commitLarder (d : Dev) (p : Nat) (g : Staged) : Dev :=
  (upTo 64).foldl (fun d r =>
    match d.image.region r with
    | some x =>
      if x.owner ≠ p then d
      else
        let gs := d.store.stagedGroups x.base r g
        d.onStore fun s =>
          let s1 := { s with regions := vupdN s.regions r (fun y => { y with overflow := g.overflow.contains r }) }
          if gs.isEmpty then s1
          else if x.journaled then s1.writeTxn false p gs
          else gs.foldl (fun s q => s.writeImm q.1 q.2) s1
    | none => d) d

/-- Keys in ascending order. -/
def insertKey (k : Nat × Word) : List (Nat × Word) → List (Nat × Word)
  | [] => [k]
  | x :: xs => if k.1 ≤ x.1 then k :: x :: xs else x :: insertKey k xs

/-- Register writes of a commit, by ascending address (DESIGN CHOICE, log 42). -/
def Dev.commitRegs (d : Dev) (p : Nat) (s : Staged) : Dev :=
  (s.regs.foldr insertKey []).foldl (fun d q => d.taskWrite p q.1 q.2) d

/-- Script parameters, then aborts, then starts (R218, R314). -/
def Dev.commitScripts (d : Dev) (s : Staged) : Dev :=
  let d1 := s.params.reverse.foldl (fun d q => d.onSlot q.1.1 fun x => { x with par := vupdN x.par q.1.2 (fun _ => q.2) }) d
  let d2 := (s.runs.filter (fun r => !r.2)).reverse.foldl (fun d r =>
    d.onSlot r.1 fun x => { x with aborting := some d.scriptInstant }) d1
  (s.runs.filter (·.2)).reverse.foldl (fun d r => d.slotRun r.1) d2

/-- Fault counts of a commit (R105, R173, R180), and the end of FIRST. -/
def Dev.commitCounts (d : Dev) (t p : Nat) (s : Staged) : Dev :=
  (d.onPot p fun x => { x with memFault := satAdd x.memFault s.memFault, arith := satAdd x.arith s.arith,
                               constF := satAdd x.constF s.constF }).onTask t fun x => { x with first := false, window := none }

/-- One commit, in the order of R222. -/
def Dev.commit (d : Dev) (t : Nat) : Dev :=
  match (d.task t).window with
  | none => d
  | some w =>
    let p := d.potOf t
    let s := w.staged
    let d1 := ((d.commitStores s).holdCrcs d.cycle.worktop).commitOuts t s
    let d2 := ((d1.commitHatches t s).commitLarder p s).commitRegs p s
    ((d2.commitScripts s).faceCommit p s).commitCounts t p s

/-- The commits due: finished windows whose deadline is here, of pots in RUN, ascending (R102, R144). -/
def Dev.commitAll (d : Dev) : Dev :=
  (d.dueTasks.filter (fun x => x.2.isNone)).foldl (fun d x =>
    if (d.pot (d.potOf x.1)).run = PotRun.run && d.sys.mode = .run then d.commit x.1 else d) d

end Sys2Proof.Machine
end

