-- ==== Sys2Proof/Machine/Boundary.lean ====
section
/-! DEFINITION. The waymark boundary: the steps of Table 5.2 with everything that takes effect at them, and what the device
does at a milestone boundary by itself (02, 03, 05 R124 to R147, 08 R227 and R245). -/

namespace Sys2Proof.Machine

/-! ## Step 1: host writes (R106, R148, R251, R422, R546) -/

/-- One accepted host write applied. A write of the network key takes effect at once (R384). -/
def Dev.applyWrite (d : Dev) (w : HostWrite) : Dev :=
  match w with
  | .reg a v priv rec words =>
    if a = 0x40000 then d.storeCmd v priv words else d.regWrite true rec words a v
  | .worktop a bs =>
    let old := d.cycle.worktop
    (d.putWorktop a bs).holdCrcs old
  | .larder g bs =>
    let d1 := d.onStore fun s => s.writeImmBy true g bs
    if g = 0x88 || g = 0x89 then d1.newNetKey (d1.store.group 0x88 ++ d1.store.group 0x89) else d1

/-- Step 1: the accepted writes in their order. -/
def Dev.step1 (d : Dev) : Dev :=
  d.cycle.hostQ.foldl Dev.applyWrite (d.onCycle fun c => { c with hostQ := [] })

/-! ## Step 2: domains (R67 to R79, R281) -/

/-- The units that are enabled. -/
def Dev.enabledUnits (d : Dev) : List Nat := (upTo 2).filter d.whiskEnabled

/-- The active bindings of Table 3.4 as (dependent, provider), that of PD12 apart. -/
def Dev.bindings (d : Dev) : List (Nat × Nat) :=
  let us := d.enabledUnits
  let routed := fun (i : Nat) =>
    let x := d.cxOf i
    (x.tripWa && us.contains 0) || (x.tripWb && us.contains 1)
  let fans := (upTo 6).any (fun f =>
    let t := byteAt (d.image.tableOf (0x040 + f)) 1
    d.image.owner (0x040 + f) < 16 && 1 ≤ t && t ≤ 4)
  us.map (fun u => (13, 8 + u)) ++ ((upTo 16).filter routed).map (fun i => (13, 8 + i / 4)) ++
    (if fans then [(14, 11)] else []) ++ (if byteAt d.image.faceCfg 0x20 = 1 then [(15, 11)] else [])

/-- The domains of cause ACTIVE: PD13 while a Whisk unit is enabled, PD15 while LIGHT_EN is asserted, and, in a tollgate
entered by HOB_OVERRUN, those that hold an owned output (Table 3.5, R281). -/
def Dev.activeDomains (d : Dev) : BitVec 16 :=
  let us := d.enabledUnits
  let light := d.face.run == FaceRun.anodeRise || d.face.run == FaceRun.lit
  let held := if d.sys.mode = .tollgate && d.sys.tollCause = 9 then
      (d.image.ownedChannels.filter (fun ch => !(d.outputsOf ch).isEmpty)).flatMap channelDomains
    else []
  domMask ((if us.isEmpty then [] else [13]) ++ (if light then [15] else []) ++ held)

/-- Whether the host-path binding is active (Table 3.4). -/
def Dev.hostPath (d : Dev) : Bool :=
  d.seat.holder.isRemote || (d.junction && d.seat.tuns.toList.any Option.isSome)

/-- The conditions that R72 judges by. -/
def Dev.judge (d : Dev) : Judge :=
  { bindings := d.bindings, active := d.activeDomains, hostPath := d.hostPath, mode := d.sys.mode, plan := d.image.power }

/-- The requests of SYS.PD_REQ judged and applied. -/
def Dev.judgeRequests (d : Dev) : Dev :=
  let p := d.power.judged d.judge
  (d.domainsOff (d.power.on &&& ~~~p.on)).onPower fun _ => p

/-- Domains switched on at the boundary before become usable (R74). -/
def Dev.wakeDomains (cals : List (List CalResult)) (d : Dev) : Dev :=
  let woke := d.power.on &&& ~~~d.power.ready
  Dev.domainsWake cals (d.onPower PowerState.wake) woke

/-- Step 2 of a milestone boundary, with the start-up steps 5 and 10 of Table 9.6. -/
def Dev.step2 (cals : List (List CalResult)) (d : Dev) : Dev :=
  (d.wakeDomains cals).bootBoundary.bootEnd.haltRestore.judgeRequests.planOn

/-! ## Steps 3 and 4 -/

/-- Step 3: deadlines. -/
def Dev.step3 (d : Dev) : Dev := d.countWindows.overruns

/-- What the device writes and starts at step 4 beside the commits; sensor readings come before the latches. A lane is exchanged
after the commits (DESIGN CHOICE, log 160). -/
def Dev.step4 (before d : Dev) : Dev :=
  let d1 := (Dev.overrunPlates before d.faceComplete.commitAll).faceStart.fvWrite.faceScan.laneExchange.ringWrite
  if d.time.wm = 64 then d1.senseDeliver else if d.time.wm = 0 then d1.i2cDeliver else d1

/-! ## Step 5 -/

/-- Step 5 of a milestone boundary: a bank switch, mode commands, pot commands, AUTORUN (R157, R162, R236). -/
def Dev.step5 (d : Dev) : Dev := d.bankSwitch.modeChange.potCommands.autorun

/-! ## Step 6 (R138, R152, R492) -/

/-- The value presented to an output element; while SYS_SHDN is asserted the fan unit's and the actuators' owned elements
take their safe plate (R492). -/
def Dev.presentOf (d : Dev) (k : Nat) : Word :=
  let ch := k / 64
  if d.fan.shdn && d.pd 14 && 0x040 ≤ ch && ch ≤ 0x057 && d.image.owner ch < 16 then d.safeOf ch (k % 64) else d.outputNow k

/-- The elements to which a value is presented: the owned outputs and the forced ones. -/
def Dev.presentKeys (d : Dev) : List Nat :=
  let own := d.image.ownedChannels.flatMap (fun ch => (d.outputsOf ch).map (elemKey ch))
  let forced := (d.forces.filter (·.output)).map (fun f => elemKey f.channel.toNat f.elem.toNat)
  own ++ (forced.eraseDups.filter (fun k => !own.contains k))

/-- Output values presented with their forces, and FORCE_N. -/
def Dev.present (d : Dev) : Dev :=
  let ps := d.presentKeys.map (fun k => (k, d.presentOf k))
  d.onCycle fun c => { c with presented := ps, forceN := !d.forces.isEmpty }

/-- Step 6. `len` is the length of the milestone that ended, at a milestone boundary. -/
def Dev.step6 (d : Dev) (len : Option Nat) : Dev :=
  let d1 := d.present.mandoPresent.sensePresent.whiskPresent.fanPresent
  let d2 := match len with
    | some n => (d1.faceMilestone n).stressFlush
    | none => d1
  d2.faceDeliver.courierQueue

/-! ## Steps 7 and 8 -/

/-- Steps 7 and 8: what the Line has brought is applied before the latches, then every task due latches and starts, and
armed scripts start (R121, R126, R310, R407, R409). -/
def Dev.step7 (d : Dev) : Dev :=
  let d1 := d.courierApply
  let d2 := if d.time.wm = 0 then d1.convoyApply ((d.netMs + 2 ^ 48 - 1) % 2 ^ 48) else d1
  let d3 := if d.time.wm = 0 then d2.covExpiry.busRelease else d2
  d3.releaseAll.waymarkStarts d.cycleCount

/-! ## The patrols (R227, R245) -/

/-- One word of the active bank read by the patrol, as its check byte shows it. -/
def Dev.patrolOne (d : Dev) (x : Nat × EccFind) : Dev :=
  let b := d.store.activeBank == some true
  let k := d.store.bank b
  match if k.bad.contains x.1 then EccFind.double else x.2 with
  | .clean => d
  | .single => d.onStore fun s => { s with pCorrected := satInc s.pCorrected }
  | .double => (d.fadeWord b x.1).foundWord b x.1

/-- The pantry patrol: 16 words of the active bank, once one is active. -/
def Dev.pantryPatrol (es : List EccFind) (d : Dev) : Dev :=
  if d.store.activeBank.isNone then d
  else
    let first := d.store.patrolWord
    let d1 := ((es.take 16).zipIdx.map (fun e => ((first + e.2) % 131072, e.1))).foldl Dev.patrolOne d
    d1.onStore fun s => { s with patrolWord := (first + 16) % 131072 }

/-- Whether a write to a group is staged, by a release or by the host's transaction, or queued and not home yet (R573). -/
def Dev.staging (d : Dev) (g : Nat) : Bool :=
  let at' := fun (r k : Nat) =>
    match d.image.region r with
    | some x => x.base + k == g
    | none => false
  (queuedGroup g d.store.queue).isSome ||
    d.store.txn.any (fun t => t.groups.any (fun p => at' t.region p.1)) ||
    d.cycle.tasks.toList.any (fun x => x.window.any (fun w => w.staged.larder.any (fun p => at' p.1.1 p.1.2.1)))

/-- One group read by the patrol and rewritten with its value, unless a write to it is on its way (R245, R573). -/
def Dev.patrolGroupRead (worn : List Nat) (d : Dev) (x : Nat × EccFind) : Dev :=
  let d1 := (d.larderFind x.1 x.2).markLostRead x.1
  if x.2 = .clean && d1.store.sound x.1 && !d1.staging x.1 then d1.writeHome x.1 (d1.store.cells x.1) (!worn.contains x.1) false
  else d1

/-- The larder patrol: two logical groups, while PD7 is usable. -/
def Dev.larderPatrol (es : List EccFind) (worn : List Nat) (d : Dev) : Dev :=
  let first := d.store.patrolGroup
  let d1 := ((upTo 2).map (fun i => ((first + i) % 30720, es.getD i .clean))).foldl (Dev.patrolGroupRead worn) d
  if !d.pd 7 then d else d1.onStore fun s => { s with patrolGroup := (first + 2) % 30720 }

/-! ## The boundary -/

/-- Script aborts whose instant has passed (R314). -/
def Dev.dueAborts (d : Dev) : Dev :=
  (upTo 16).foldl (fun d n => if h : n < 16 then d.scriptAbort ⟨n, h⟩ else d) d

/-- What ends every boundary: the writers' precedence ends, tunnels whose path is gone close, and start-up goes on to its
acceptance (R71, R160, R431, Table 9.8). -/
def Dev.endBoundary (d : Dev) : Dev :=
  (d.potCommandsAge.onPower fun p => { p with hostWrote := false }).tunCheck.acceptProgress

/-- Steps 3 and 4, which every boundary has. -/
def Dev.steps34 (d : Dev) : Dev :=
  let d1 := d.step3.logFlush
  (Dev.step4 d d1).logFlush

/-- A boundary inside a milestone. -/
def Dev.waymark (d0 : Dev) : Dev :=
  let d1 := d0.dueAborts.nextWaymark
  let d2 := d1.step1.logFlush.steps34
  let d3 := ((d2.step6 none).logFlush).step7.logFlush
  d3.endBoundary.logFlush

/-- What the device does by itself at a milestone boundary after the steps. -/
def Dev.milestoneEnd (p : PatrolEnv) (d : Dev) : Dev :=
  let d1 := (d.pantryPatrol p.words).larderPatrol p.groups p.worn |>.logFlush
  let d2 := (d1.readVcore.blanker p.line).phyCfgApply.xcompWriteback.wearWriteback.netCheckpoint
  d2.beaconTimeout.chooseParent.idleFree.tollAutoClear

/-- A milestone boundary. -/
def Dev.milestoneBoundary (p : PatrolEnv) (d0 : Dev) : Dev :=
  let d1 := d0.dueAborts.newMilestone.carryGrids.logNewMs
  let d2 := d1.step1.logFlush.step2 p.cals |>.logFlush.steps34
  let dm := d2.step5.logFlush.readDie p.die
  let d3 := (dm.planMilestone.lineStep dm.phaseSteps).newGrids
  let d4 := ((d3.step6 (some d0.time.msLen)).logFlush).step7.logFlush
  (d4.milestoneEnd p).endBoundary.logFlush

/-- The pot, other than the Hob, whose window holds a worktop address. -/
def Image.topOwner (m : Image) (a : Nat) : Option Nat :=
  m.declaredPots.find? (fun p =>
    p != 0 && decide ((m.window p).base * 4096 ≤ a) && decide (a < ((m.window p).base + (m.window p).pages) * 4096))

/-- An uncorrectable error reported in the worktop (R27, R33, Table 20.2): the cell then holds `x.2`. Memory in no pot's window
but the Hob's is shared. -/
def Dev.worktopError (d : Dev) (x : Nat × Byte) : Dev :=
  if worktopSize ≤ x.1 then d
  else
    let d1 := d.putWorktop x.1 [x.2]
    match d.image.topOwner x.1 with
    | some p => (d1.uncorrPot 3 p x.1).logFlush
    | none => (d1.uncorrShared 3 x.1).logFlush

/-- WAYMARK_BOUNDARY (R124): the next waymark boundary, with the pantry words and worktop bytes that have decayed since the
last. At a milestone boundary a pending reset takes its place (R255, R282). -/
def Dev.boundary (p : PatrolEnv) (e : ResetEnv) (d : Dev) : Dev :=
  let d0 := (p.tops.foldl Dev.worktopError (p.fades.foldl (fun d f => d.fadeWord f.1 f.2) d)).larderReads p.reads
  if d0.time.wm = 255 then
    let d1 := d0.tollAutoOrder
    if d1.sys.pendResets.isEmpty then d1.milestoneBoundary p else d1.resetApply e
  else d0.waymark

/-! ## Events with a row of their own that belong to these steps -/

/-- A row that changes the mode or the lock at the instant of a milestone boundary plans anew the milestone that starts there
(R45, R46). -/
def Dev.replanning (f : Dev → Dev) (d : Dev) : Dev :=
  let d1 := f d
  if d.time.wm = 0 && (d1.sys.mode != d.sys.mode || d1.time.lock != d.time.lock) then
    d1.onTime fun t => t.plan (d1.sys.mode == .run)
  else d1

/-- A register write that takes effect: by a privileged host, by a host without a session, or by a task (R107, R424,
R545). -/
def Dev.writeBy (w : RegWriter) (a : Nat) (v : Word) (d : Dev) : Dev :=
  match w with
  | .host => d.registerWrite a v
  | .guest =>
    if d.sys.provEn && provReg a v.toNat then d.applyWrite (.reg a v false d.sys.recorded 0)
    else { d with lane := { d.lane with hostDenied := satInc d.lane.hostDenied } }
  | .pot p => d.taskWrite p.val a v

/-- The band of R379 comes into use or falls free, as a usable receiver hears it. -/
def Dev.bandLevel (inUse : Bool) (d : Dev) : Dev :=
  if d.rxReady then d.onLine fun l => { l with bandUse := inUse } else d

end Sys2Proof.Machine
end

