-- ==== Sys2Proof/Machine/State.lean ====
section
/-! DEFINITION. The machine's state: the device and the queue of commands that wait; why a step could stop; the state right
after a power-on reset. -/

namespace Sys2Proof.Machine

/-- The state: the device and the commands that wait, first in, first out. -/
structure State where
  dev : Dev
  pending : List Instr
  deriving DecidableEq, Repr

/-- Faults. The spec answers every access that goes wrong itself: with a status, a count, a 0 or nothing. -/
inductive Fault where
  /-- No command raises it: there is no access to which the spec gives no answer. Safe. -/
  | absent
  deriving DecidableEq, Repr

/-- Refusals. -/
inductive Refusal where
  /-- A command without a meaning in this model: no arm of the dispatch raises it. Safe. -/
  | notModelled (mnemonic : String)
  deriving DecidableEq, Repr

/-- The machine right after a power-on reset: the device at start-up step 2, an empty queue. -/
def State.reset : State := { dev := Dev.reset, pending := [] }

end Sys2Proof.Machine
end

