-- ==== Sys2Proof/Machine/Act.lean ====
section
/-! DEFINITION. How a command acts: its effect on the device, and what follows every effect. -/

namespace Sys2Proof.Machine

/-- A command's effect on the device, with the log entries of its instant written in their order (R569) and the ATTN bits
of a changed mode or guarantee (Table 14.5). The queue stays as it is. -/
def State.act (s : State) (f : Dev → Dev) : Host.Outcome State Fault Refusal :=
  .next { s with dev := Dev.settle s.dev (f s.dev).logFlush }

/-- A Rhamet instruction's effect: on its task's window alone, with no event. -/
def State.lane (s : State) (f : Dev → Dev) : Host.Outcome State Fault Refusal := .next { s with dev := f s.dev }

end Sys2Proof.Machine
end

