-- ==== Sys2Proof/Machine/Clock.lean ====
section
/-! DEFINITION. The commands of the time base and the time registers (02). -/

namespace Sys2Proof.Machine

/-- ZC_CROSSING (R38). A rising crossing on a ZC input is accepted and stamped, and drives the lock state and the
milestone phase. -/
def execZcCrossing (i : Fin 3) (stamp high : Nat) (s : State) : Host.Outcome State Fault Refusal :=
  s.act (fun d => d.zcCrossing i stamp high)

/-- ZC_TIMEOUT (R42). No crossing arrives within 1.5 periods, so the lock moves to another source, to HOLDOVER or to
FREE. -/
def execZcTimeout (i : Fin 3) (s : State) : Host.Outcome State Fault Refusal := s.act (fun d => d.zcTimeout i)

/-- HOLDOVER_EXPIRY (R42). After 250 milestones in HOLDOVER without a return to LOCKED, the lock goes to FREE. -/
def execHoldoverExpiry (s : State) : Host.Outcome State Fault Refusal := s.act (fun d => d.holdoverExpiry)

/-- XTAL_FAIL (R53). The crystal misses an edge for 122 µs or disagrees with the RC oscillator, so the time base moves
to the RC oscillator. -/
def execXtalFail (s : State) : Host.Outcome State Fault Refusal := s.act (fun d => d.xtalFail)

/-- XTAL_SWITCHOVER (R266). After 4,096 crystal periods agree with the RC oscillator during start-up, the time base
moves to the crystal. -/
def execXtalSwitchover (s : State) : Host.Outcome State Fault Refusal := s.act (fun d => d.xtalSwitchover)

/-- XTAL_START_TIMEOUT (R266). If the crystal has not taken over 2.0 s after start-up step 2, it is declared failed.
-/
def execXtalStartTimeout (s : State) : Host.Outcome State Fault Refusal := s.act (fun d => d.xtalStartTimeout)

/-- XTAL_COMP (R50). Every 16 milestones the device reads the die temperature and updates the crystal rate correction.
-/
def execXtalComp (temp : Int) (s : State) : Host.Outcome State Fault Refusal := s.act (fun d => d.xtalComp temp)

/-- DIE_TEMP_REFRESH (R31). Every 256 milestones the device refreshes the die temperature that pots see. -/
def execDieTempRefresh (temp : Int) (s : State) : Host.Outcome State Fault Refusal :=
  s.act (fun d => d.dieTempRefresh temp)

/-- NET_CHECKPOINT (R55). The junction writes the network milestone number to the larder checkpoint at every multiple
of 65,536. -/
def execNetCheckpoint (s : State) : Host.Outcome State Fault Refusal := s.act (fun d => d.netCheckpoint)

/-- BEACON_TIMEOUT (R25). After 50 milestones without a beacon from a LOCKED junction, BEACON clears and tunnelled
sessions end. -/
def execBeaconTimeout (s : State) : Host.Outcome State Fault Refusal := s.act (fun d => d.beaconTimeout)

/-- TIME_MS_LO_READ (R56). A read of TIME.MS_LO latches MS_HI and WM for that accessor. -/
def execTimeMsLoRead (who : Fin 17) (frac : BitVec 16) (s : State) : Host.Outcome State Fault Refusal :=
  s.act (fun d => d.msLoRead who frac)

/-- TIME_SI_LO_READ (R56). A read of TIME.SI_LO latches SI_HI for that accessor. -/
def execTimeSiLoRead (who : Fin 17) (frac : BitVec 16) (s : State) : Host.Outcome State Fault Refusal :=
  s.act (fun d => d.siLoRead who frac)

/-- SI_OFS_WRITE (R55). On the junction, a write of TIME.SI_OFS_HI puts the held SI offset into effect and sets
SI_VALID. -/
def execSiOfsWrite (hi : Word) (s : State) : Host.Outcome State Fault Refusal := s.act (fun d => d.siOfsWrite hi)

end Sys2Proof.Machine
end

