-- ==== Sys2Proof/Machine/Control.lean ====
section
/-! DEFINITION. The commands of the control cycle: boundaries, modes, pots, forces, domain requests, lanes and registers (03, 04, 05, 18). -/

namespace Sys2Proof.Machine

/-- WAYMARK_BOUNDARY (R124). At every waymark boundary the device runs the ordered steps of Table 5.2. -/
def execWaymarkBoundary (p : PatrolEnv) (e : ResetEnv) (s : State) : Host.Outcome State Fault Refusal :=
  s.act (fun d => d.boundary p e)

/-- AUTORUN (R157). In READY with AUTORUN set, the device enters RUN by itself once its domains are usable and
NET_VALID or NET_WAIT allows it. -/
def execAutorun (s : State) : Host.Outcome State Fault Refusal :=
  s.act (Dev.replanning Dev.autorun)

/-- RUN_WARM (R157). A SYS.MODECMD write of RUN_WARM asks for a warm entry to RUN. -/
def execRunWarm (s : State) : Host.Outcome State Fault Refusal := s.act (fun d => d.modeCommand .runWarm)

/-- RUN_COLD (R157). A SYS.MODECMD write of RUN_COLD asks for a cold entry to RUN. -/
def execRunCold (s : State) : Host.Outcome State Fault Refusal := s.act (fun d => d.modeCommand .runCold)

/-- HALT (R157). A SYS.MODECMD write of HALT asks for HALT at the next milestone boundary. -/
def execHalt (s : State) : Host.Outcome State Fault Refusal := s.act (fun d => d.modeCommand .halt)

/-- POT_STOP (R160). A CYCLE.POTCMD write of STOP queues a stop of a pot. -/
def execPotStop (p : Fin 16) (host : Bool) (s : State) : Host.Outcome State Fault Refusal :=
  s.act (fun d => d.potCommand p.val .stop host)

/-- POT_WARM (R160). A CYCLE.POTCMD write of WARM queues a warm restart of a pot. -/
def execPotWarm (p : Fin 16) (host : Bool) (s : State) : Host.Outcome State Fault Refusal :=
  s.act (fun d => d.potCommand p.val .warm host)

/-- POT_COLD (R160). A CYCLE.POTCMD write of COLD queues a cold restart of a pot. -/
def execPotCold (p : Fin 16) (host : Bool) (s : State) : Host.Outcome State Fault Refusal :=
  s.act (fun d => d.potCommand p.val .cold host)

/-- FORCE_TABLE_WRITE (R148). A write to a force-table entry is applied at the next boundary or at the Hob's commit.
-/
def execForceTableWrite (i : Fin 256) (value : Bool) (v : Word) (s : State) : Host.Outcome State Fault Refusal :=
  s.act (fun d => d.forceWrite i value v)

/-- FORCE_CLEAR_ALL (R154). A write of 1 to CYCLE.FCLR.ALL disables every force entry. -/
def execForceClearAll (s : State) : Host.Outcome State Fault Refusal := s.act (fun d => d.forceClear)

/-- PD_REQ_WRITE (R71). A write to SYS.PD_REQ requests domain states for the next milestone boundary. -/
def execPdReqWrite (v : Word) (host : Bool) (s : State) : Host.Outcome State Fault Refusal :=
  s.act (fun d => d.pdReqWrite v host)

/-- GUAR_ACK_RETIRE (R35). A write of 1 to SYS.GUAR_ACK.RETIRE acknowledges every recorded retirement. -/
def execGuarAckRetire (s : State) : Host.Outcome State Fault Refusal := s.act (fun d => d.ackRetire d.sys.recorded)

/-- LANE_XCHG (R92). A write to LANE.XCHG with GO requests a planned lane exchange. -/
def execLaneXchg (v : Word) (s : State) : Host.Outcome State Fault Refusal := s.act (fun d => d.laneXchg v)

/-- REGISTER_WRITE (R545). A write to a register that has no row of its own is applied or refused per view and access
code. -/
def execRegisterWrite (w : RegWriter) (a : BitVec 24) (v : Word) (s : State) : Host.Outcome State Fault Refusal :=
  s.act (fun d => d.writeBy w a.toNat v)

/-- SELFTEST (R86). The device runs a signature self-test on an idle lane, and a wrong signature is a failure. -/
def execSelftest (k : Fin 48) (good : Bool) (s : State) : Host.Outcome State Fault Refusal :=
  s.act (fun d => d.selftest k good)

/-- LANE_STALL (R89). A handshake inside a lane stays incomplete for 5 µs, so the lane fails. -/
def execLaneStall (k : Fin 48) (s : State) : Host.Outcome State Fault Refusal := s.act (fun d => d.laneStall k)

/-- LANE_PARITY (R89). A parity error in a lane's stack, locals or buffer makes the lane fail. -/
def execLaneParity (k : Fin 48) (s : State) : Host.Outcome State Fault Refusal := s.act (fun d => d.laneParity k)

/-- LANE_EXCHANGE (R88). At the first waymark with no open window, a failed or planned lane is exchanged for its
spare. -/
def execLaneExchange (s : State) : Host.Outcome State Fault Refusal := s.act (fun d => d.laneExchange)

end Sys2Proof.Machine
end

