-- ==== Sys2Proof/Machine/Convert.lean ====
section
/-! DEFINITION. The converters, their scripts and the sensing front ends (10, 11). -/

namespace Sys2Proof.Machine

/-- CALIBRATION_ROTATION (R292). At each calibration interval the spare replaces an active slice, and the freed and
idle slices are calibrated; each command is one event of Table 10.4. -/
def execCalibrationRotation (k : Fin 4) (e : CalEnv) (s : State) : Host.Outcome State Fault Refusal :=
  s.act (fun d => d.rotation k e)

/-- SLICE_STALL (R295). A slice has not completed 450 ns after its tick, so the sample is repeated with GAP and the
slice is retired. -/
def execSliceStall (k : Fin 4) (slice : Fin 9) (at' : Nat) (s : State) : Host.Outcome State Fault Refusal :=
  s.act (fun d => d.sliceStall k slice at')

/-- CROSSING_ASSERT (R300). A crossing comparator's input passes its threshold, so the crossing asserts, records
capture and may trip, start or trigger. -/
def execCrossingAssert (i : Fin 16) (stamp level : Nat) (s : State) : Host.Outcome State Fault Refusal :=
  s.act (fun d => d.crossingAssert i stamp level)

/-- CROSSING_DEASSERT (R300). A crossing's input passes back beyond its hysteresis, so it deasserts and records
capture. -/
def execCrossingDeassert (i : Fin 16) (stamp level : Nat) (s : State) : Host.Outcome State Fault Refusal :=
  s.act (fun d => d.crossingDrop i stamp level)

/-- SCRIPT_START (R310). A slot's script run starts at its script instant, waymark or crossing, or the start is
ignored. -/
def execScriptStart (n : Fin 16) (s : State) : Host.Outcome State Fault Refusal := s.act (fun d => d.scriptStart n)

/-- SCRIPT_ABORT (R314). An abort acts at its script instant, and stops or stands the run. -/
def execScriptAbort (n : Fin 16) (s : State) : Host.Outcome State Fault Refusal := s.act (fun d => d.scriptAbort n)

/-- SCRIPT_END (R309). Script step END completes the run. -/
def execScriptEnd (n : Fin 16) (s : State) : Host.Outcome State Fault Refusal := s.act (fun d => d.scriptEnd n)

/-- SAMPLE (R309). Script step SAMPLE takes COUNT samples on the slot's ticks. -/
def execScriptSample (n : Fin 16) (vs : List SampleIn) (s : State) : Host.Outcome State Fault Refusal :=
  s.act (fun d => d.scriptSample n vs)

/-- AVERAGE (R312). Script step AVERAGE takes 2^A samples and writes their rounded mean. -/
def execScriptAverage (n : Fin 16) (vs : List SampleIn) (s : State) : Host.Outcome State Fault Refusal :=
  s.act (fun d => d.scriptAverage n vs)

/-- WAIT (R309). Script step WAIT advances the cursor T ticks. -/
def execScriptWait (n : Fin 16) (s : State) : Host.Outcome State Fault Refusal := s.act (fun d => d.scriptWait n)

/-- REPEAT (R309). Script step REPEAT returns to its target step count times. -/
def execScriptRepeat (n : Fin 16) (s : State) : Host.Outcome State Fault Refusal := s.act (fun d => d.scriptRepeat n)

/-- MARK (R309). Script step MARK writes one marker entry. -/
def execScriptMark (n : Fin 16) (s : State) : Host.Outcome State Fault Refusal := s.act (fun d => d.scriptMark n)

/-- FIRE (R306). Script step FIRE triggers a sample group at the cursor's tick. -/
def execScriptFire (n : Fin 16) (s : State) : Host.Outcome State Fault Refusal := s.act (fun d => d.scriptFire n)

/-- GSAMPLE (R306). Script step GSAMPLE waits for the group's trigger and converts the member's hold. -/
def execScriptGsample (n : Fin 16) (v : SampleIn) (s : State) : Host.Outcome State Fault Refusal :=
  s.act (fun d => d.scriptGsample n v)

/-- SENSE_SEQUENCE (R321). At waymark 4 the device takes a reading of each enabled analogue sensing channel on MD slot
3. -/
def execSenseSequence (vs : List (List Int)) (s : State) : Host.Outcome State Fault Refusal :=
  s.act (fun d => d.senseSequence vs)

/-- DI_LEVEL_CHANGE (R332). A DI pin's filtered level changes, which records a capture entry. -/
def execDiLevelChange (i : Fin 8) (level : Bool) (stamp run : Nat) (s : State) : Host.Outcome State Fault Refusal :=
  s.act (fun d => d.diChange i level stamp run)

/-- I2C_WRITE_PHASE (R337). At waymark 8 the master runs the write transactions of the scheduled devices. -/
def execI2cWritePhase (es : List I2cEnd) (s : State) : Host.Outcome State Fault Refusal :=
  s.act (fun d => d.i2cWritePhase es)

/-- I2C_READ_PHASE (R337). At waymark 128 the master runs the read transactions of the scheduled devices. -/
def execI2cReadPhase (es : List I2cEnd) (s : State) : Host.Outcome State Fault Refusal :=
  s.act (fun d => d.i2cReadPhase es)

/-- I2C_TIMEOUT (R338). A target holds SCL low for more than 1 ms, so the transaction ends with TIMEOUT. -/
def execI2cTimeout (x : Fin 8) (read : Bool) (bytes : Nat) (s : State) : Host.Outcome State Fault Refusal :=
  s.act (fun d => d.i2cTimeout x read bytes)

end Sys2Proof.Machine
end

