-- ==== Sys2Proof/Machine/Hefen.lean ====
section
/-! DEFINITION. The Hefen Line: the receiver, frames and the network (12, 13). -/

namespace Sys2Proof.Machine

/-- PHY_CFG_APPLY (R346). A written LINE.PHY_CFG takes effect at the first milestone boundary with no frame in
progress. -/
def execPhyCfgApply (s : State) : Host.Outcome State Fault Refusal := s.act (fun d => d.phyCfgApply)

/-- CARRIER_DETECT (R375). The in-band level exceeds noise by 6 dB for 4 samples, so carrier is detected and the
medium is busy. -/
def execCarrierDetect (at' : Nat) (noise : BitVec 8) (s : State) : Host.Outcome State Fault Refusal :=
  s.act (fun d => d.carrier at' noise)

/-- BAND_IN_USE (R379). The 131.5 to 133.5 kHz band stands at 86 dBµV for 4 ms, so the band is in use. -/
def execBandInUse (s : State) : Host.Outcome State Fault Refusal := s.act (fun d => d.bandLevel true)

/-- PREAMBLE_DETECT (R368). A preamble's timing mark is detected, so reception starts or the receiver is captured by a
stronger frame. -/
def execPreambleDetect (p : PreambleEnv) (s : State) : Host.Outcome State Fault Refusal :=
  s.act (fun d => d.preamble p)

/-- FRAME_START (R373). At each of the eight frame starts a node contends with its queued frame and transmits or
defers. -/
def execFrameStart (k : Fin 8) (rnd : Nat) (heard : Option Nat) (s : State) : Host.Outcome State Fault Refusal :=
  s.act (fun d => d.frameStart k.val rnd heard)

/-- FRAME_SENT (R369). A node's own frame ends its last burst, so TX_FRAMES counts and reception resumes. -/
def execFrameSent (s : State) : Host.Outcome State Fault Refusal := s.act (fun d => d.frameSent)

/-- BEACON (R394). A received beacon sets NET_OFS, disciplines TRIM and parent choice, and may be repeated or cause a
role decline. -/
def execBeacon (f : RxEnd) (s : State) : Host.Outcome State Fault Refusal := s.act (fun d => d.rxBeacon f)

/-- TIME_FRAME (R396). A received TIME frame sets SI_OFS and FERR. -/
def execTimeFrame (f : RxEnd) (s : State) : Host.Outcome State Fault Refusal := s.act (fun d => d.rxTime f)

/-- ACK (R387). A received ACK confirms a sent unicast frame's LSEQ. -/
def execAckFrame (f : RxEnd) (s : State) : Host.Outcome State Fault Refusal := s.act (fun d => d.rxAck f)

/-- ACK_TIMEOUT (R387). No ACK arrives in 2 or 8 milestones, so the sender retries one ladder step down or drops the
frame. -/
def execAckTimeout (lseq : Nat) (s : State) : Host.Outcome State Fault Refusal := s.act (fun d => d.ackTimeout lseq)

/-- MAP_ASK (R388). A received MAP_ASK is answered with a MAP_OFFER built from the frame's SNR. -/
def execMapAsk (f : RxEnd) (s : State) : Host.Outcome State Fault Refusal := s.act (fun d => d.rxMapAsk f)

/-- MAP_OFFER (R390). A received MAP_OFFER becomes the tone map for the link. -/
def execMapOffer (f : RxEnd) (s : State) : Host.Outcome State Fault Refusal := s.act (fun d => d.rxMapOffer f)

/-- MAP_REFRESH (R390). A cached map reaching TM_REFRESH age causes a MAP_ASK. -/
def execMapRefresh (n : BitVec 12) (s : State) : Host.Outcome State Fault Refusal :=
  s.act (fun d => d.mapRefresh n.toNat)

/-- JOIN_REQ (R400). A JOIN_REQ is forwarded, or the junction answers it with a JOIN_ACC. -/
def execJoinReq (f : RxEnd) (s : State) : Host.Outcome State Fault Refusal := s.act (fun d => d.rxJoinReq f)

/-- JOIN_ACC (R398). A received JOIN_ACC with STATUS ACCEPTED makes the member joined, or reports ADDR_CLASH. -/
def execJoinAcc (f : RxEnd) (s : State) : Host.Outcome State Fault Refusal := s.act (fun d => d.rxJoinAcc f)

/-- JOIN_RETRY (R398). Every 64 milestones while not joined, the member repeats its JOIN_REQ. -/
def execJoinRetry (s : State) : Host.Outcome State Fault Refusal := s.act (fun d => d.joinRetry)

/-- COURIER (R407). A received COURIER frame is applied to the group's inputs if its PSEQ is newer. -/
def execCourier (f : RxEnd) (s : State) : Host.Outcome State Fault Refusal := s.act (fun d => d.rxCourier f)

/-- COURIER_STALE (R407). No frame from a producer is applied for STALE_N periods, so its elements are set STALE. -/
def execCourierStale (g : BitVec 8) (producer : BitVec 12) (s : State) : Host.Outcome State Fault Refusal :=
  s.act (fun d => d.courierStale g.toNat producer.toNat)

/-- CONVOY (R409). A received CONVOY contribution is held for its stamped boundary. -/
def execConvoy (f : RxEnd) (s : State) : Host.Outcome State Fault Refusal := s.act (fun d => d.rxConvoy f)

/-- TUNNEL (R432). A received TUNNEL frame carries an inner seat request, response or close. -/
def execTunnel (f : RxEnd) (e : SeatEnv) (s : State) : Host.Outcome State Fault Refusal :=
  s.act (fun d => d.rxTunnel f e)

/-- PROBE (R391). A received PROBE is returned, or reports RSSI and MARGIN to PROBE_STAT. -/
def execProbe (f : RxEnd) (s : State) : Host.Outcome State Fault Refusal := s.act (fun d => d.rxProbe f)

/-- PROBE_GO (R391). A write of LINE.PROBE with GO sends a tone-mode PROBE to a neighbour. -/
def execProbeGo (dst : BitVec 12) (s : State) : Host.Outcome State Fault Refusal :=
  s.act (fun d => d.probeGo dst.toNat)

/-- PROBE_TIMEOUT (R391). No reply within 16 milestones sets PROBE_STAT to NONE. -/
def execProbeTimeout (s : State) : Host.Outcome State Fault Refusal := s.act (fun d => d.probeTimeout)

/-- JCLR (R400). A write of LINE.JCLR with GO frees a member-table entry on the junction. -/
def execJclr (addr : BitVec 12) (s : State) : Host.Outcome State Fault Refusal := s.act (fun d => d.jclr addr.toNat)

/-- BAND_NOT_IN_USE (R379). The level in 131.5 to 133.5 kHz falls below 86 dBµV, so the band is no longer in use. -/
def execBandNotInUse (s : State) : Host.Outcome State Fault Refusal := s.act (fun d => d.bandLevel false)

end Sys2Proof.Machine
end

