-- ==== Sys2Proof/Machine/HostSeat.lean ====
section
/-! DEFINITION. The host seat and the tunnel port (14). -/

namespace Sys2Proof.Machine

/-- IDENTIFY (R423). The seat command IDENTIFY returns the device's identity and seat state. -/
def execIdentify (r : SeatReq) (s : State) : Host.Outcome State Fault Refusal :=
  s.act (Dev.port fun d => Dev.spi (d.seatIdentify .spi r))

/-- TAKE (R412). The seat command TAKE grants the seat if it is free and permitted, and sets E. -/
def execTake (r : SeatReq) (s : State) : Host.Outcome State Fault Refusal :=
  s.act (Dev.port fun d => Dev.spi (d.seatTake .spi r))

/-- RELEASE (R413). The seat command RELEASE frees the seat. -/
def execRelease (r : SeatReq) (s : State) : Host.Outcome State Fault Refusal :=
  s.act (Dev.port fun d => Dev.spi (d.seatRelease .spi r))

/-- SEAT_READ (R422). The seat command READ reads register space or a window. -/
def execSeatRead (r : SeatReq) (e : SeatEnv) (s : State) : Host.Outcome State Fault Refusal :=
  s.act (Dev.port fun d => Dev.spi (d.seatRead .spi r e))

/-- SEAT_WRITE (R422). The seat command WRITE accepts a write to register space or a window for application at the
next boundary. -/
def execSeatWrite (r : SeatReq) (e : SeatEnv) (s : State) : Host.Outcome State Fault Refusal :=
  s.act (Dev.port fun d => Dev.spi (d.seatWrite .spi r e))

/-- CHALLENGE (R426). The seat command CHALLENGE returns a random nonce for authentication. -/
def execChallenge (r : SeatReq) (e : SeatEnv) (s : State) : Host.Outcome State Fault Refusal :=
  s.act (Dev.port fun d => Dev.spi (d.seatChallenge .spi r e))

/-- RESPOND (R426). The seat command RESPOND opens a privileged session if its HMAC matches. -/
def execRespond (r : SeatReq) (e : SeatEnv) (s : State) : Host.Outcome State Fault Refusal :=
  s.act (Dev.port fun d => Dev.spi (d.seatRespond .spi r e))

/-- CLOSE (R428). The seat command CLOSE ends the privileged session. -/
def execClose (r : SeatReq) (s : State) : Host.Outcome State Fault Refusal :=
  s.act (Dev.port fun d => Dev.spi (d.seatClose .spi r))

/-- SEAT_RESET (R260). The seat command RESET orders a warm or cold reset, even while ESTRANGED. -/
def execSeatReset (r : SeatReq) (s : State) : Host.Outcome State Fault Refusal :=
  s.act (Dev.port fun d => Dev.spi (d.seatReset .spi r))

/-- TUN_OPEN (R431). The tunnel command TUN_OPEN opens a tunnel channel to a node. -/
def execTunOpen (r : SeatReq) (s : State) : Host.Outcome State Fault Refusal :=
  s.act (Dev.port fun d => d.tunCommand r (Dev.tunOpen (bitsOf r.addr.toNat 11 0)))

/-- TUN_SEND (R431). The tunnel command TUN_SEND sends a request frame through a tunnel channel. -/
def execTunSend (r : SeatReq) (e : SeatEnv) (s : State) : Host.Outcome State Fault Refusal :=
  s.act (Dev.port fun d => d.tunCommand r (Dev.tunSend r.payload e))

/-- TUN_RECV (R431). The tunnel command TUN_RECV returns the waiting response frame of a channel. -/
def execTunRecv (r : SeatReq) (s : State) : Host.Outcome State Fault Refusal :=
  s.act (Dev.port fun d => d.tunCommand r Dev.tunRecv)

/-- TUN_CLOSE (R431). The tunnel command TUN_CLOSE sends a close and closes the channel. -/
def execTunClose (r : SeatReq) (s : State) : Host.Outcome State Fault Refusal :=
  s.act (Dev.port fun d => d.tunCommand r Dev.tunClose)

/-- CS_N_EARLY_RISE (R417). CS_N rises before a request is complete, so the request is discarded. -/
def execCsNEarlyRise (s : State) : Host.Outcome State Fault Refusal := s.act (fun d => d)

/-- SEAT_IDLE_FREE (R413). 3,000 milestones without a frame from a remote holder free the seat. -/
def execSeatIdleFree (s : State) : Host.Outcome State Fault Refusal := s.act (fun d => d.idleFree)

end Sys2Proof.Machine
end

