-- ==== Sys2Proof/Machine/Luminaire.lean ====
section
/-! DEFINITION. The face driver (17). -/

namespace Sys2Proof.Machine

/-- FACE_FRAME_START (R509). At each frame start the face takes its elements, changes state and scans its lines, rest
and sense slot. -/
def execFaceFrameStart (k : Nat) (heads : List Nat) (fv : Option (List Int)) (s : State) : Host.Outcome State Fault
    Refusal :=
  s.act (fun d => d.faceFrame k heads fv)

/-- FACE_OPERATION_COMPLETE (R515). A rectangle or stencil completes and its pixels change in scan memory together. -/
def execFaceOperationComplete (p : Fin 16) (s : State) : Host.Outcome State Fault Refusal :=
  s.act (fun d => d.faceOpComplete p)

/-- STRESS_FLUSH (R525). Every 256 milestones the pixel energy is added to the stress counters, which are journaled,
and the gains are recomputed. -/
def execStressFlush (s : State) : Host.Outcome State Fault Refusal := s.act (fun d => d.stressFlush)

/-- FV_PASS_START (R529). Each hour a forward-voltage pass starts, measuring one pixel per frame. -/
def execFvPassStart (s : State) : Host.Outcome State Fault Refusal := s.act (fun d => d.fvPassStart)

/-- STENCIL_END (R523). Stencil step END ends the run. -/
def execStencilEnd (r : Fin 16) (s : State) : Host.Outcome State Fault Refusal := s.act (fun d => d.stencilEnd r)

/-- INK (R523). Stencil step INK sets the ink. -/
def execStencilInk (r : Fin 16) (s : State) : Host.Outcome State Fault Refusal := s.act (fun d => d.stencilInk r)

/-- FILL (R523). Stencil step FILL fills a rectangle with ink. -/
def execStencilFill (r : Fin 16) (s : State) : Host.Outcome State Fault Refusal := s.act (fun d => d.stencilFill r)

/-- MASK (R523). Stencil step MASK draws ink where a bitmap has 1 bits. -/
def execStencilMask (r : Fin 16) (s : State) : Host.Outcome State Fault Refusal := s.act (fun d => d.stencilMask r)

/-- DIGITS (R523). Stencil step DIGITS draws a parameter as decimal digits. -/
def execStencilDigits (r : Fin 16) (s : State) : Host.Outcome State Fault Refusal :=
  s.act (fun d => d.stencilDigits r)

/-- ARROW (R523). Stencil step ARROW draws a 5 × 5 arrow. -/
def execStencilArrow (r : Fin 16) (s : State) : Host.Outcome State Fault Refusal := s.act (fun d => d.stencilArrow r)

end Sys2Proof.Machine
end

