-- ==== Sys2Proof/Machine/Motor.lean ====
section
/-! DEFINITION. The Whisk units (15). -/

namespace Sys2Proof.Machine

/-- DECISION (R449). Every 12.5 µs a Whisk unit estimates flux and torque, updates comparators, ramp and state, and
chooses a voltage vector. -/
def execDecision (u : Fin 2) (x : WhiskSample) (s : State) : Host.Outcome State Fault Refusal :=
  s.act (fun d => d.whiskDecision u x)

/-- ESTIMATE (R468). Every 64 decisions the unit forms a speed estimate and updates field weakening, the speed loop,
the brake rule and the estimator state. -/
def execEstimate (u : Fin 2) (now : Nat) (s : State) : Host.Outcome State Fault Refusal :=
  s.act (fun d => d.whiskEstimate u now)

/-- ALIGN_COMPLETE (R456). ALIGN_T elapses, so the unit sets its flux and enters DRIVE. -/
def execAlignComplete (u : Fin 2) (s : State) : Host.Outcome State Fault Refusal := s.act (fun d => d.whiskAlign u)

/-- STANDSTILL_TIMEOUT (R468). STILL_T spent in LOW returns the estimator to STANDSTILL. -/
def execStandstillTimeout (u : Fin 2) (s : State) : Host.Outcome State Fault Refusal :=
  s.act (fun d => d.whiskStill u)

/-- OVERCURRENT (R470). Current above 1.5 × IMAX at 4 consecutive decisions trips the unit. -/
def execOvercurrent (u : Fin 2) (s : State) : Host.Outcome State Fault Refusal := s.act (fun d => d.whiskOver u)

/-- DC_VOLTAGE (R470). VDC outside its limits for 80 consecutive decisions trips the unit. -/
def execDcVoltage (u : Fin 2) (s : State) : Host.Outcome State Fault Refusal := s.act (fun d => d.whiskVdc u)

/-- DRV_FAULT (R470). The driver-fault pin held low for 100 ns trips the unit. -/
def execDrvFault (u : Fin 2) (s : State) : Host.Outcome State Fault Refusal := s.act (fun d => d.whiskFault u)

/-- CMD_LOSS (R467). A speed-command loss cause holds for LOSS_T, so the command is lost and the target becomes 0. -/
def execCmdLoss (u : Fin 2) (s : State) : Host.Outcome State Fault Refusal := s.act (fun d => d.whiskLoss u)

/-- CMD_REGAINED (R467). The loss cause is absent for LOSS_T, so the command is regained. -/
def execCmdRegained (u : Fin 2) (s : State) : Host.Outcome State Fault Refusal := s.act (fun d => d.whiskRegain u)

/-- SPEED_COMMAND_EDGE (R466). An edge on SPD_A or SPD_B is stamped at 62.5 ns resolution for the DUTY and FREQ
command sources. -/
def execSpeedCommandEdge (u : Fin 2) (rise : Bool) (stamp : Nat) (s : State) : Host.Outcome State Fault Refusal :=
  s.act (fun d => d.whiskEdge u rise stamp)

end Sys2Proof.Machine
end

