-- ==== Sys2Proof/Machine/Mstp.lean ====
section
/-! DEFINITION. The building bus: the MS/TP link and the bus service (14). -/

namespace Sys2Proof.Machine

/-- TOKEN (R435). A received MS/TP Token passes the token to the node, which sends queued frames. -/
def execToken (dst : BitVec 8) (s : State) : Host.Outcome State Fault Refusal := s.act (fun d => d.busToken dst.toNat)

/-- POLL_FOR_MASTER (R433). A received Poll For Master is answered under clause 9. -/
def execPollForMaster (src dst : BitVec 8) (s : State) : Host.Outcome State Fault Refusal :=
  s.act (fun d => d.busPoll src.toNat dst.toNat)

/-- REPLY_TO_POLL_FOR_MASTER (R433). A received Reply To Poll For Master is handled by the master state machine. -/
def execReplyToPollForMaster (src dst : BitVec 8) (s : State) : Host.Outcome State Fault Refusal :=
  s.act (fun d => d.busPollReply src.toNat dst.toNat)

/-- TEST_REQUEST (R541). A received Test_Request is answered with a Test_Response by the link. -/
def execTestRequest (src dst : BitVec 8) (data : List Byte) (s : State) : Host.Outcome State Fault Refusal :=
  s.act (fun d => d.busTest src.toNat dst.toNat data)

/-- TEST_RESPONSE (R433). A received Test_Response is handled by the link. -/
def execTestResponse (dst : BitVec 8) (s : State) : Host.Outcome State Fault Refusal :=
  s.act (fun d => d.busReply dst.toNat)

/-- BACNET_DATA_EXPECTING_REPLY (R436). A received data frame expecting a reply is answered with Reply Postponed and
queued for the Hob. -/
def execBacnetDataExpectingReply (src dst : BitVec 8) (data : List Byte) (s : State) : Host.Outcome State Fault
    Refusal :=
  s.act (fun d => d.busDataReply src.toNat dst.toNat data)

/-- BACNET_DATA_NOT_EXPECTING_REPLY (R541). A received data frame is placed in a free receive slot or dropped. -/
def execBacnetDataNotExpectingReply (src dst : BitVec 8) (data : List Byte) (s : State) : Host.Outcome State Fault
    Refusal :=
  s.act (fun d => d.busData src.toNat dst.toNat data)

/-- REPLY_POSTPONED (R433). A received Reply Postponed is handled by the master state machine. -/
def execReplyPostponed (dst : BitVec 8) (s : State) : Host.Outcome State Fault Refusal :=
  s.act (fun d => d.busReply dst.toNat)

/-- NO_TOKEN_TIMEOUT (R435). The no-token timer expires, so the link follows clause 9 to regain the token. -/
def execNoTokenTimeout (s : State) : Host.Outcome State Fault Refusal := s.act (fun d => d.busNoToken)

/-- TX_SLOT_SUBMIT (R542). Setting FULL in a send slot queues its frame for sending under the token. -/
def execTxSlotSubmit (i : Fin 4) (s : State) : Host.Outcome State Fault Refusal := s.act (fun d => d.busSubmit i.val)

/-- READ_PROPERTY (R438). The bus service answers ReadProperty for a carried object and property. -/
def execReadProperty (mac invoke : BitVec 8) (r : BacRef) (s : State) : Host.Outcome State Fault Refusal :=
  s.act (fun d => d.readProperty mac.toNat invoke.toNat r)

/-- READ_PROPERTY_MULTIPLE (R441). The bus service answers ReadPropertyMultiple, including ALL and REQUIRED. -/
def execReadPropertyMultiple (mac invoke : BitVec 8) (specs : List MultiSpec) (s : State) : Host.Outcome State Fault
    Refusal :=
  s.act (fun d => d.readMulti mac.toNat invoke.toNat specs)

/-- WRITE_PROPERTY (R440). The bus service stages a Present_Value write into OUT_HATCH, or refuses it. -/
def execWriteProperty (mac invoke : BitVec 8) (r : BacRef) (v : BacValue) (s : State) : Host.Outcome State Fault
    Refusal :=
  s.act (fun d => d.writeProperty mac.toNat invoke.toNat r v)

/-- WHO_IS (R441). The bus service answers Who-Is with I-Am. -/
def execWhoIs (limits : Option (Nat × Nat)) (s : State) : Host.Outcome State Fault Refusal :=
  s.act (fun d => d.whoIs limits)

/-- WHO_HAS (R441). The bus service answers Who-Has with I-Have. -/
def execWhoHas (key : WhoHasKey) (s : State) : Host.Outcome State Fault Refusal := s.act (fun d => d.whoHas key)

/-- SUBSCRIBE_COV (R442). The bus service accepts or refuses a COV subscription. -/
def execSubscribeCov (mac invoke : BitVec 8) (process type inst lifetime : Nat) (confirmed : Bool) (s : State) :
    Host.Outcome State Fault Refusal :=
  s.act (fun d => d.subscribeCov mac.toNat invoke.toNat process type inst lifetime confirmed)

/-- COV_LIFETIME_EXPIRY (R442). A COV subscription's lifetime runs out and it is removed. -/
def execCovLifetimeExpiry (s : State) : Host.Outcome State Fault Refusal := s.act (fun d => d.covExpiry)

/-- UNSUPPORTED_FRAME (R433). An MS/TP frame of an unsupported type is received, discarded and counted in DROP. -/
def execUnsupportedFrame (s : State) : Host.Outcome State Fault Refusal := s.act (fun d => d.busUnsupported)

/-- CRC_ERR (R436). An MS/TP frame arrives with a header or data CRC error and is counted in CRC_ERR. -/
def execCrcErr (s : State) : Host.Outcome State Fault Refusal := s.act (fun d => d.busCrcErr)

/-- T_USAGE_TIMEOUT (R435). The clause 9 T_usage_timeout runs out after the node passes the token or polls, and the
master state machine retries or moves on. -/
def execTUsageTimeout (s : State) : Host.Outcome State Fault Refusal := s.act (fun d => d.busUsage)

end Sys2Proof.Machine
end

