-- ==== Sys2Proof/Machine/Pantry.lean ====
section
/-! DEFINITION. The STORE commands and the larder (08). -/

namespace Sys2Proof.Machine

/-- ERASE (R231). The STORE ERASE command clears a bank's mark and zeroes the bank. -/
def execErase (b : Bool) (s : State) : Host.Outcome State Fault Refusal := s.act (fun d => d.storeErase b)

/-- ERASE_COMPLETE (R231). An ERASE finishes its last byte, and the bank becomes EMPTY. -/
def execEraseComplete (s : State) : Host.Outcome State Fault Refusal := s.act (fun d => d.storeEraseEnd)

/-- STORE_WRITE (R231). The STORE WRITE command copies STORE.BUF bytes into a bank. -/
def execStoreWrite (b : Bool) (s : State) : Host.Outcome State Fault Refusal := s.act (fun d => d.storeWrite b)

/-- SEAL (R224). The STORE SEAL command starts checking a bank before writing its completeness mark. -/
def execStoreSeal (b : Bool) (s : State) : Host.Outcome State Fault Refusal := s.act (fun d => d.storeSeal b)

/-- SEAL_COMPLETE (R224). SEAL finishes its checks and writes the mark, or fails with BAD_IMAGE. -/
def execSealComplete (s : State) : Host.Outcome State Fault Refusal := s.act (fun d => d.sealComplete)

/-- SWITCH (R233). The STORE SWITCH command names a candidate bank, which is judged and then verified. -/
def execBankSwitchTo (b : Bool) (s : State) : Host.Outcome State Fault Refusal := s.act (fun d => d.storeSwitch b)

/-- SWITCH_VERIFIED (R234). Candidate verification ends, and the switch is armed at a boundary or fails with
VERIFY_FAILED or TOO_LATE. -/
def execSwitchVerified (s : State) : Host.Outcome State Fault Refusal := s.act (fun d => d.switchVerified)

/-- BANK_SWITCH (R236). At the armed switch boundary the candidate becomes ACTIVE and the new image's tables, plan and
pots take over. -/
def execBankSwitch (s : State) : Host.Outcome State Fault Refusal := s.act (Dev.replanning Dev.bankSwitch)

/-- ABORT (R232). The STORE ABORT command stops the command in progress, the switch or the host transaction, or finds
it past its commit point. -/
def execStoreAbort (words : Nat) (s : State) : Host.Outcome State Fault Refusal := s.act (fun d => d.storeAbort words)

/-- TXN_BEGIN (R231). The STORE TXN_BEGIN command opens a host transaction on a journaled region. -/
def execTxnBegin (s : State) : Host.Outcome State Fault Refusal := s.act (fun d => d.txnBegin)

/-- TXN_WRITE (R231). The STORE TXN_WRITE command stages groups from STORE.BUF into the open host transaction. -/
def execTxnWrite (s : State) : Host.Outcome State Fault Refusal := s.act (fun d => d.txnWrite)

/-- TXN_COMMIT (R231). The STORE TXN_COMMIT command applies the host transaction as a journaled transaction at the
boundary. -/
def execTxnCommit (s : State) : Host.Outcome State Fault Refusal := s.act (fun d => d.txnCommit)

/-- PROVISION (R240). The STORE PROVISION command writes the host key or the image key fingerprint when permitted. -/
def execProvision (priv : Bool) (s : State) : Host.Outcome State Fault Refusal :=
  s.act (fun d => d.storeProvision priv)

/-- LARDER_WRITE_COMPLETE (R248). A queued larder group write reaches its home group and is read back. -/
def execLarderWriteComplete (ok : Bool) (s : State) : Host.Outcome State Fault Refusal :=
  s.act (fun d => d.landFront ok)

/-- WEAR_WRITEBACK (R253). Every 65,536 milestones the device writes back the wear counters and may set WEAR. -/
def execWearWriteback (s : State) : Host.Outcome State Fault Refusal := s.act (fun d => d.wearWriteback)

/-- STORE_WRITE_COMPLETE (R231). A STORE WRITE finishes its last word, so the bank is WRITING, RESULT reads OK, BUSY
clears and ATTN STORE is set. -/
def execStoreWriteComplete (s : State) : Host.Outcome State Fault Refusal := s.act (fun d => d.storeWriteEnd)

end Sys2Proof.Machine
end

