-- ==== Sys2Proof/Machine/Program.lean ====
section
/-! DEFINITION. The Rhamet instructions as a task runs them (07). The operand `t` is the task. -/

namespace Sys2Proof.Machine

/-- NOP (R202). Instruction NOP has no effect. -/
def execRhNop (t : Fin 64) (s : State) : Host.Outcome State Fault Refusal := s.lane (fun d => d.rhNop t)

/-- PUSH_I8 (R202). Instruction PUSH.I8 pushes a sign-extended 8-bit constant. -/
def execRhPushI8 (t : Fin 64) (v : BitVec 8) (s : State) : Host.Outcome State Fault Refusal :=
  s.lane (fun d => d.rhPushI8 t v)

/-- PUSH_I16 (R202). Instruction PUSH.I16 pushes a sign-extended 16-bit constant. -/
def execRhPushI16 (t : Fin 64) (v : BitVec 16) (s : State) : Host.Outcome State Fault Refusal :=
  s.lane (fun d => d.rhPushI16 t v)

/-- PUSH_I32 (R202). Instruction PUSH.I32 pushes an i32 constant. -/
def execRhPushI32 (t : Fin 64) (v : Word) (s : State) : Host.Outcome State Fault Refusal :=
  s.lane (fun d => d.rhPush32 t v)

/-- PUSH_U32 (R202). Instruction PUSH.U32 pushes a u32 constant. -/
def execRhPushU32 (t : Fin 64) (v : Word) (s : State) : Host.Outcome State Fault Refusal :=
  s.lane (fun d => d.rhPush32 t v)

/-- PUSH_Q (R202). Instruction PUSH.Q pushes a q16.16 constant. -/
def execRhPushQ (t : Fin 64) (v : Word) (s : State) : Host.Outcome State Fault Refusal :=
  s.lane (fun d => d.rhPush32 t v)

/-- PUSH_F (R202). Instruction PUSH.F pushes an f32 constant. -/
def execRhPushF (t : Fin 64) (v : Word) (s : State) : Host.Outcome State Fault Refusal :=
  s.lane (fun d => d.rhPush32 t v)

/-- DROP (R202). Instruction DROP discards the top cell. -/
def execRhDrop (t : Fin 64) (s : State) : Host.Outcome State Fault Refusal := s.lane (fun d => d.rhDrop t)

/-- DUP (R202). Instruction DUP duplicates the top cell. -/
def execRhDup (t : Fin 64) (s : State) : Host.Outcome State Fault Refusal := s.lane (fun d => d.rhDup t)

/-- SWAP (R202). Instruction SWAP swaps the top two cells. -/
def execRhSwap (t : Fin 64) (s : State) : Host.Outcome State Fault Refusal := s.lane (fun d => d.rhSwap t)

/-- OVER (R202). Instruction OVER copies the second cell to the top. -/
def execRhOver (t : Fin 64) (s : State) : Host.Outcome State Fault Refusal := s.lane (fun d => d.rhOver t)

/-- ROT (R202). Instruction ROT rotates the top three cells. -/
def execRhRot (t : Fin 64) (s : State) : Host.Outcome State Fault Refusal := s.lane (fun d => d.rhRot t)

/-- PICK (R202). Instruction PICK copies the cell k places below the top. -/
def execRhPick (t : Fin 64) (k : BitVec 8) (s : State) : Host.Outcome State Fault Refusal :=
  s.lane (fun d => d.rhPick t k)

/-- LD_L (R202). Instruction LD.L pushes a local. -/
def execRhLdL (t : Fin 64) (i : BitVec 8) (s : State) : Host.Outcome State Fault Refusal :=
  s.lane (fun d => d.rhLdL t i)

/-- ST_L (R202). Instruction ST.L pops into a local. -/
def execRhStL (t : Fin 64) (i : BitVec 8) (s : State) : Host.Outcome State Fault Refusal :=
  s.lane (fun d => d.rhStL t i)

/-- TEE_L (R202). Instruction TEE.L stores into a local and keeps the cell. -/
def execRhTeeL (t : Fin 64) (i : BitVec 8) (s : State) : Host.Outcome State Fault Refusal :=
  s.lane (fun d => d.rhTeeL t i)

/-- ADD_I (R203). Instruction ADD.I adds i32 values, wrapping. -/
def execRhAddI (t : Fin 64) (s : State) : Host.Outcome State Fault Refusal := s.lane (fun d => d.rhAddI t)

/-- SUB_I (R203). Instruction SUB.I subtracts i32 values, wrapping. -/
def execRhSubI (t : Fin 64) (s : State) : Host.Outcome State Fault Refusal := s.lane (fun d => d.rhSubI t)

/-- MUL_I (R203). Instruction MUL.I multiplies i32 values, keeping the low 32 bits. -/
def execRhMulI (t : Fin 64) (s : State) : Host.Outcome State Fault Refusal := s.lane (fun d => d.rhMulI t)

/-- DIV_I (R203). Instruction DIV.I divides i32 values towards zero, faulting on divide by 0 and overflow. -/
def execRhDivI (t : Fin 64) (s : State) : Host.Outcome State Fault Refusal := s.lane (fun d => d.rhDivI t)

/-- REM_I (R203). Instruction REM.I gives the i32 remainder, faulting on 0. -/
def execRhRemI (t : Fin 64) (s : State) : Host.Outcome State Fault Refusal := s.lane (fun d => d.rhRemI t)

/-- NEG_I (R203). Instruction NEG.I negates an i32 value, wrapping. -/
def execRhNegI (t : Fin 64) (s : State) : Host.Outcome State Fault Refusal := s.lane (fun d => d.rhNegI t)

/-- ABS_I (R203). Instruction ABS.I takes the absolute i32 value, wrapping. -/
def execRhAbsI (t : Fin 64) (s : State) : Host.Outcome State Fault Refusal := s.lane (fun d => d.rhAbsI t)

/-- ADDS_I (R203). Instruction ADDS.I adds i32 values with saturation. -/
def execRhAddsI (t : Fin 64) (s : State) : Host.Outcome State Fault Refusal := s.lane (fun d => d.rhAddsI t)

/-- SUBS_I (R203). Instruction SUBS.I subtracts i32 values with saturation. -/
def execRhSubsI (t : Fin 64) (s : State) : Host.Outcome State Fault Refusal := s.lane (fun d => d.rhSubsI t)

/-- MULS_I (R203). Instruction MULS.I multiplies i32 values with saturation. -/
def execRhMulsI (t : Fin 64) (s : State) : Host.Outcome State Fault Refusal := s.lane (fun d => d.rhMulsI t)

/-- NEGS_I (R203). Instruction NEGS.I negates an i32 value with saturation. -/
def execRhNegsI (t : Fin 64) (s : State) : Host.Outcome State Fault Refusal := s.lane (fun d => d.rhNegsI t)

/-- ABSS_I (R203). Instruction ABSS.I takes the absolute i32 value with saturation. -/
def execRhAbssI (t : Fin 64) (s : State) : Host.Outcome State Fault Refusal := s.lane (fun d => d.rhAbssI t)

/-- MIN_I (R203). Instruction MIN.I gives the signed minimum. -/
def execRhMinI (t : Fin 64) (s : State) : Host.Outcome State Fault Refusal := s.lane (fun d => d.rhMinI t)

/-- MAX_I (R203). Instruction MAX.I gives the signed maximum. -/
def execRhMaxI (t : Fin 64) (s : State) : Host.Outcome State Fault Refusal := s.lane (fun d => d.rhMaxI t)

/-- ADD_U (R203). Instruction ADD.U adds u32 values, wrapping. -/
def execRhAddU (t : Fin 64) (s : State) : Host.Outcome State Fault Refusal := s.lane (fun d => d.rhAddU t)

/-- SUB_U (R203). Instruction SUB.U subtracts u32 values, wrapping. -/
def execRhSubU (t : Fin 64) (s : State) : Host.Outcome State Fault Refusal := s.lane (fun d => d.rhSubU t)

/-- MUL_U (R203). Instruction MUL.U multiplies u32 values, keeping the low 32 bits. -/
def execRhMulU (t : Fin 64) (s : State) : Host.Outcome State Fault Refusal := s.lane (fun d => d.rhMulU t)

/-- DIV_U (R203). Instruction DIV.U divides u32 values, faulting on 0. -/
def execRhDivU (t : Fin 64) (s : State) : Host.Outcome State Fault Refusal := s.lane (fun d => d.rhDivU t)

/-- REM_U (R203). Instruction REM.U gives the u32 remainder, faulting on 0. -/
def execRhRemU (t : Fin 64) (s : State) : Host.Outcome State Fault Refusal := s.lane (fun d => d.rhRemU t)

/-- ADDS_U (R203). Instruction ADDS.U adds u32 values with saturation. -/
def execRhAddsU (t : Fin 64) (s : State) : Host.Outcome State Fault Refusal := s.lane (fun d => d.rhAddsU t)

/-- SUBS_U (R203). Instruction SUBS.U subtracts u32 values with saturation at 0. -/
def execRhSubsU (t : Fin 64) (s : State) : Host.Outcome State Fault Refusal := s.lane (fun d => d.rhSubsU t)

/-- MULS_U (R203). Instruction MULS.U multiplies u32 values with saturation. -/
def execRhMulsU (t : Fin 64) (s : State) : Host.Outcome State Fault Refusal := s.lane (fun d => d.rhMulsU t)

/-- MIN_U (R203). Instruction MIN.U gives the unsigned minimum. -/
def execRhMinU (t : Fin 64) (s : State) : Host.Outcome State Fault Refusal := s.lane (fun d => d.rhMinU t)

/-- MAX_U (R203). Instruction MAX.U gives the unsigned maximum. -/
def execRhMaxU (t : Fin 64) (s : State) : Host.Outcome State Fault Refusal := s.lane (fun d => d.rhMaxU t)

/-- ADD_Q (R204). Instruction ADD.Q adds q16.16 values with saturation. -/
def execRhAddQ (t : Fin 64) (s : State) : Host.Outcome State Fault Refusal := s.lane (fun d => d.rhAddQ t)

/-- SUB_Q (R204). Instruction SUB.Q subtracts q16.16 values with saturation. -/
def execRhSubQ (t : Fin 64) (s : State) : Host.Outcome State Fault Refusal := s.lane (fun d => d.rhSubQ t)

/-- MUL_Q (R204). Instruction MUL.Q multiplies q16.16 values, rounded and saturated. -/
def execRhMulQ (t : Fin 64) (s : State) : Host.Outcome State Fault Refusal := s.lane (fun d => d.rhMulQ t)

/-- DIV_Q (R204). Instruction DIV.Q divides q16.16 values, faulting on 0. -/
def execRhDivQ (t : Fin 64) (s : State) : Host.Outcome State Fault Refusal := s.lane (fun d => d.rhDivQ t)

/-- NEG_Q (R204). Instruction NEG.Q negates a q16.16 value with saturation. -/
def execRhNegQ (t : Fin 64) (s : State) : Host.Outcome State Fault Refusal := s.lane (fun d => d.rhNegQ t)

/-- ABS_Q (R204). Instruction ABS.Q takes the absolute q16.16 value with saturation. -/
def execRhAbsQ (t : Fin 64) (s : State) : Host.Outcome State Fault Refusal := s.lane (fun d => d.rhAbsQ t)

/-- MIN_Q (R204). Instruction MIN.Q gives the q16.16 minimum. -/
def execRhMinQ (t : Fin 64) (s : State) : Host.Outcome State Fault Refusal := s.lane (fun d => d.rhMinQ t)

/-- MAX_Q (R204). Instruction MAX.Q gives the q16.16 maximum. -/
def execRhMaxQ (t : Fin 64) (s : State) : Host.Outcome State Fault Refusal := s.lane (fun d => d.rhMaxQ t)

/-- ADD_F (R204). Instruction ADD.F adds f32 values. -/
def execRhAddF (t : Fin 64) (s : State) : Host.Outcome State Fault Refusal := s.lane (fun d => d.rhAddF t)

/-- SUB_F (R204). Instruction SUB.F subtracts f32 values. -/
def execRhSubF (t : Fin 64) (s : State) : Host.Outcome State Fault Refusal := s.lane (fun d => d.rhSubF t)

/-- MUL_F (R204). Instruction MUL.F multiplies f32 values. -/
def execRhMulF (t : Fin 64) (s : State) : Host.Outcome State Fault Refusal := s.lane (fun d => d.rhMulF t)

/-- DIV_F (R204). Instruction DIV.F divides f32 values. -/
def execRhDivF (t : Fin 64) (s : State) : Host.Outcome State Fault Refusal := s.lane (fun d => d.rhDivF t)

/-- NEG_F (R204). Instruction NEG.F inverts the f32 sign. -/
def execRhNegF (t : Fin 64) (s : State) : Host.Outcome State Fault Refusal := s.lane (fun d => d.rhNegF t)

/-- ABS_F (R204). Instruction ABS.F clears the f32 sign. -/
def execRhAbsF (t : Fin 64) (s : State) : Host.Outcome State Fault Refusal := s.lane (fun d => d.rhAbsF t)

/-- MIN_F (R204). Instruction MIN.F gives the f32 minimum. -/
def execRhMinF (t : Fin 64) (s : State) : Host.Outcome State Fault Refusal := s.lane (fun d => d.rhMinF t)

/-- MAX_F (R204). Instruction MAX.F gives the f32 maximum. -/
def execRhMaxF (t : Fin 64) (s : State) : Host.Outcome State Fault Refusal := s.lane (fun d => d.rhMaxF t)

/-- SQRT_F (R204). Instruction SQRT.F gives the correctly rounded square root. -/
def execRhSqrtF (t : Fin 64) (s : State) : Host.Outcome State Fault Refusal := s.lane (fun d => d.rhSqrtF t)

/-- FLOOR_F (R204). Instruction FLOOR.F rounds towards minus infinity. -/
def execRhFloorF (t : Fin 64) (s : State) : Host.Outcome State Fault Refusal := s.lane (fun d => d.rhFloorF t)

/-- CEIL_F (R204). Instruction CEIL.F rounds towards plus infinity. -/
def execRhCeilF (t : Fin 64) (s : State) : Host.Outcome State Fault Refusal := s.lane (fun d => d.rhCeilF t)

/-- ROUND_F (R204). Instruction ROUND.F rounds to the nearest integer, ties to even. -/
def execRhRoundF (t : Fin 64) (s : State) : Host.Outcome State Fault Refusal := s.lane (fun d => d.rhRoundF t)

/-- TRUNC_F (R204). Instruction TRUNC.F rounds towards zero. -/
def execRhTruncF (t : Fin 64) (s : State) : Host.Outcome State Fault Refusal := s.lane (fun d => d.rhTruncF t)

/-- CMP_I (R205). Instruction CMP.I compares i32 values by COND. -/
def execRhCmpI (t : Fin 64) (c : Cond) (s : State) : Host.Outcome State Fault Refusal :=
  s.lane (fun d => d.rhCmpI t c)

/-- CMP_U (R205). Instruction CMP.U compares u32 values by COND. -/
def execRhCmpU (t : Fin 64) (c : Cond) (s : State) : Host.Outcome State Fault Refusal :=
  s.lane (fun d => d.rhCmpU t c)

/-- CMP_Q (R205). Instruction CMP.Q compares q16.16 values by COND. -/
def execRhCmpQ (t : Fin 64) (c : Cond) (s : State) : Host.Outcome State Fault Refusal :=
  s.lane (fun d => d.rhCmpQ t c)

/-- CMP_F (R205). Instruction CMP.F compares f32 values by COND. -/
def execRhCmpF (t : Fin 64) (c : Cond) (s : State) : Host.Outcome State Fault Refusal :=
  s.lane (fun d => d.rhCmpF t c)

/-- AND (R205). Instruction AND gives the bitwise and. -/
def execRhAnd (t : Fin 64) (s : State) : Host.Outcome State Fault Refusal := s.lane (fun d => d.rhAnd t)

/-- OR (R205). Instruction OR gives the bitwise or. -/
def execRhOr (t : Fin 64) (s : State) : Host.Outcome State Fault Refusal := s.lane (fun d => d.rhOr t)

/-- XOR (R205). Instruction XOR gives the bitwise exclusive or. -/
def execRhXor (t : Fin 64) (s : State) : Host.Outcome State Fault Refusal := s.lane (fun d => d.rhXor t)

/-- NOT (R205). Instruction NOT gives the bitwise complement. -/
def execRhNot (t : Fin 64) (s : State) : Host.Outcome State Fault Refusal := s.lane (fun d => d.rhNot t)

/-- SHL_I (R205). Instruction SHL.I shifts an i32 value left. -/
def execRhShlI (t : Fin 64) (s : State) : Host.Outcome State Fault Refusal := s.lane (fun d => d.rhShlI t)

/-- SHL_U (R205). Instruction SHL.U shifts a u32 value left. -/
def execRhShlU (t : Fin 64) (s : State) : Host.Outcome State Fault Refusal := s.lane (fun d => d.rhShlU t)

/-- SHR_I (R205). Instruction SHR.I shifts right arithmetically. -/
def execRhShrI (t : Fin 64) (s : State) : Host.Outcome State Fault Refusal := s.lane (fun d => d.rhShrI t)

/-- SHR_U (R205). Instruction SHR.U shifts right logically. -/
def execRhShrU (t : Fin 64) (s : State) : Host.Outcome State Fault Refusal := s.lane (fun d => d.rhShrU t)

/-- ROTL (R205). Instruction ROTL rotates left. -/
def execRhRotl (t : Fin 64) (s : State) : Host.Outcome State Fault Refusal := s.lane (fun d => d.rhRotl t)

/-- ROTR (R205). Instruction ROTR rotates right. -/
def execRhRotr (t : Fin 64) (s : State) : Host.Outcome State Fault Refusal := s.lane (fun d => d.rhRotr t)

/-- CLZ (R205). Instruction CLZ counts leading zeros. -/
def execRhClz (t : Fin 64) (s : State) : Host.Outcome State Fault Refusal := s.lane (fun d => d.rhClz t)

/-- POPC (R205). Instruction POPC counts the bits set. -/
def execRhPopc (t : Fin 64) (s : State) : Host.Outcome State Fault Refusal := s.lane (fun d => d.rhPopc t)

/-- EQZ (R205). Instruction EQZ tests an operand for zero. -/
def execRhEqz (t : Fin 64) (s : State) : Host.Outcome State Fault Refusal := s.lane (fun d => d.rhEqz t)

/-- I2U (R206). Instruction I2U reinterprets i32 as u32. -/
def execRhI2u (t : Fin 64) (s : State) : Host.Outcome State Fault Refusal := s.lane (fun d => d.rhSame t)

/-- U2I (R206). Instruction U2I reinterprets u32 as i32. -/
def execRhU2i (t : Fin 64) (s : State) : Host.Outcome State Fault Refusal := s.lane (fun d => d.rhSame t)

/-- I2F (R206). Instruction I2F converts i32 to f32. -/
def execRhI2f (t : Fin 64) (s : State) : Host.Outcome State Fault Refusal := s.lane (fun d => d.rhI2F t)

/-- U2F (R206). Instruction U2F converts u32 to f32. -/
def execRhU2f (t : Fin 64) (s : State) : Host.Outcome State Fault Refusal := s.lane (fun d => d.rhU2F t)

/-- Q2F (R206). Instruction Q2F converts q16.16 to f32. -/
def execRhQ2f (t : Fin 64) (s : State) : Host.Outcome State Fault Refusal := s.lane (fun d => d.rhQ2F t)

/-- F2I (R206). Instruction F2I converts f32 to i32, saturating, with a fault on NaN. -/
def execRhF2i (t : Fin 64) (s : State) : Host.Outcome State Fault Refusal := s.lane (fun d => d.rhF2I t)

/-- F2U (R206). Instruction F2U converts f32 to u32, saturating, with a fault on NaN. -/
def execRhF2u (t : Fin 64) (s : State) : Host.Outcome State Fault Refusal := s.lane (fun d => d.rhF2U t)

/-- F2Q (R206). Instruction F2Q converts f32 to q16.16, with a fault on NaN. -/
def execRhF2q (t : Fin 64) (s : State) : Host.Outcome State Fault Refusal := s.lane (fun d => d.rhF2Q t)

/-- I2Q (R206). Instruction I2Q converts i32 to q16.16, saturated. -/
def execRhI2q (t : Fin 64) (s : State) : Host.Outcome State Fault Refusal := s.lane (fun d => d.rhI2Q t)

/-- U2Q (R206). Instruction U2Q converts u32 to q16.16, saturated. -/
def execRhU2q (t : Fin 64) (s : State) : Host.Outcome State Fault Refusal := s.lane (fun d => d.rhU2Q t)

/-- Q2I (R206). Instruction Q2I takes the integer part of a q16.16 value. -/
def execRhQ2i (t : Fin 64) (s : State) : Host.Outcome State Fault Refusal := s.lane (fun d => d.rhQ2I t)

/-- F_BITS (R206). Instruction F.BITS reinterprets f32 as u32. -/
def execRhFBits (t : Fin 64) (s : State) : Host.Outcome State Fault Refusal := s.lane (fun d => d.rhSame t)

/-- F_FROM (R206). Instruction F.FROM reinterprets u32 as f32. -/
def execRhFFrom (t : Fin 64) (s : State) : Host.Outcome State Fault Refusal := s.lane (fun d => d.rhSame t)

/-- Q_BITS (R206). Instruction Q.BITS reinterprets q16.16 as i32. -/
def execRhQBits (t : Fin 64) (s : State) : Host.Outcome State Fault Refusal := s.lane (fun d => d.rhSame t)

/-- Q_FROM (R206). Instruction Q.FROM reinterprets i32 as q16.16. -/
def execRhQFrom (t : Fin 64) (s : State) : Host.Outcome State Fault Refusal := s.lane (fun d => d.rhSame t)

/-- BR (R207). Instruction BR branches forward unconditionally. -/
def execRhBr (t : Fin 64) (ofs : BitVec 16) (s : State) : Host.Outcome State Fault Refusal :=
  s.lane (fun d => d.rhBr t ofs)

/-- BRZ (R207). Instruction BRZ branches forward if the operand is 0. -/
def execRhBrz (t : Fin 64) (ofs : BitVec 16) (s : State) : Host.Outcome State Fault Refusal :=
  s.lane (fun d => d.rhBrz t ofs)

/-- BRNZ (R207). Instruction BRNZ branches forward if the operand is not 0. -/
def execRhBrnz (t : Fin 64) (ofs : BitVec 16) (s : State) : Host.Outcome State Fault Refusal :=
  s.lane (fun d => d.rhBrnz t ofs)

/-- LOOP (R175). Instruction LOOP counts an iteration and returns to the loop head while allowed. -/
def execRhLoop (t : Fin 64) (mx back : BitVec 16) (s : State) : Host.Outcome State Fault Refusal :=
  s.lane (fun d => d.rhLoop t mx back)

/-- CALL (R208). Instruction CALL creates a frame and passes arguments to a function. -/
def execRhCall (t : Fin 64) (fn : BitVec 16) (s : State) : Host.Outcome State Fault Refusal :=
  s.lane (fun d => d.rhCall t fn)

/-- RET (R171). Instruction RET returns results to the caller, or ends the release at depth 1. -/
def execRhRet (t : Fin 64) (s : State) : Host.Outcome State Fault Refusal := s.lane (fun d => d.rhRet t)

/-- SELECT (R207). Instruction SELECT chooses one of two cells by a condition. -/
def execRhSelect (t : Fin 64) (s : State) : Host.Outcome State Fault Refusal := s.lane (fun d => d.rhSelect t)

/-- LD8U (R209). Instruction LD8U loads a worktop byte, zero-extended. -/
def execRhLd8u (t : Fin 64) (s : State) : Host.Outcome State Fault Refusal := s.lane (fun d => d.rhLd8U t)

/-- LD8S (R209). Instruction LD8S loads a worktop byte, sign-extended. -/
def execRhLd8s (t : Fin 64) (s : State) : Host.Outcome State Fault Refusal := s.lane (fun d => d.rhLd8S t)

/-- LD16U (R209). Instruction LD16U loads a worktop halfword, zero-extended. -/
def execRhLd16u (t : Fin 64) (s : State) : Host.Outcome State Fault Refusal := s.lane (fun d => d.rhLd16U t)

/-- LD16S (R209). Instruction LD16S loads a worktop halfword, sign-extended. -/
def execRhLd16s (t : Fin 64) (s : State) : Host.Outcome State Fault Refusal := s.lane (fun d => d.rhLd16S t)

/-- LD32 (R209). Instruction LD32 loads a worktop word. -/
def execRhLd32 (t : Fin 64) (ty : RhType) (s : State) : Host.Outcome State Fault Refusal :=
  s.lane (fun d => d.rhLd32 t ty)

/-- ST8 (R209). Instruction ST8 stages a byte store to the worktop. -/
def execRhSt8 (t : Fin 64) (s : State) : Host.Outcome State Fault Refusal := s.lane (fun d => d.rhSt8 t)

/-- ST16 (R209). Instruction ST16 stages a halfword store to the worktop. -/
def execRhSt16 (t : Fin 64) (s : State) : Host.Outcome State Fault Refusal := s.lane (fun d => d.rhSt16 t)

/-- ST32 (R209). Instruction ST32 stages a word store to the worktop. -/
def execRhSt32 (t : Fin 64) (s : State) : Host.Outcome State Fault Refusal := s.lane (fun d => d.rhSt32 t)

/-- LDC8U (R180). Instruction LDC8U loads a constant byte. -/
def execRhLdc8u (t : Fin 64) (s : State) : Host.Outcome State Fault Refusal := s.lane (fun d => d.rhLdc8U t)

/-- LDC16U (R180). Instruction LDC16U loads a constant halfword. -/
def execRhLdc16u (t : Fin 64) (s : State) : Host.Outcome State Fault Refusal := s.lane (fun d => d.rhLdc16U t)

/-- LDC32 (R180). Instruction LDC32 loads a constant word. -/
def execRhLdc32 (t : Fin 64) (ty : RhType) (s : State) : Host.Outcome State Fault Refusal :=
  s.lane (fun d => d.rhLdc32 t ty)

/-- IN (R210). Instruction IN pushes a latched input element. -/
def execRhIn (t : Fin 64) (ch : BitVec 10) (el : BitVec 6) (ty : RhType) (s : State) : Host.Outcome State Fault
    Refusal :=
  s.lane (fun d => d.rhIn t ch el ty)

/-- INST (R210). Instruction INST pushes a latched element's status byte. -/
def execRhInst (t : Fin 64) (ch : BitVec 10) (el : BitVec 6) (s : State) : Host.Outcome State Fault Refusal :=
  s.lane (fun d => d.rhInst t ch el)

/-- OUT (R211). Instruction OUT stages an output element value for the commit. -/
def execRhOut (t : Fin 64) (ch : BitVec 10) (el : BitVec 6) (ty : RhType) (s : State) : Host.Outcome State Fault
    Refusal :=
  s.lane (fun d => d.rhOut t ch el ty)

/-- OUTGET (R211). Instruction OUTGET pushes the staged or present output value. -/
def execRhOutget (t : Fin 64) (ch : BitVec 10) (el : BitVec 6) (ty : RhType) (s : State) : Host.Outcome State Fault
    Refusal :=
  s.lane (fun d => d.rhOutget t ch el ty)

/-- PREV (R210). Instruction PREV pushes the previously latched value. -/
def execRhPrev (t : Fin 64) (ch : BitVec 10) (el : BitVec 6) (ty : RhType) (s : State) : Host.Outcome State Fault
    Refusal :=
  s.lane (fun d => d.rhPrev t ch el ty)

/-- EDGE_R (R210). Instruction EDGE.R pushes the rising-edge bits since the last latch. -/
def execRhEdgeR (t : Fin 64) (ch : BitVec 10) (el : BitVec 6) (s : State) : Host.Outcome State Fault Refusal :=
  s.lane (fun d => d.rhEdgeR t ch el)

/-- EDGE_F (R210). Instruction EDGE.F pushes the falling-edge bits since the last latch. -/
def execRhEdgeF (t : Fin 64) (ch : BitVec 10) (el : BitVec 6) (s : State) : Host.Outcome State Fault Refusal :=
  s.lane (fun d => d.rhEdgeF t ch el)

/-- CAP_N (R212). Instruction CAP.N pushes the number of capture entries delivered. -/
def execRhCapN (t : Fin 64) (ch : BitVec 10) (s : State) : Host.Outcome State Fault Refusal :=
  s.lane (fun d => d.rhCapN t ch)

/-- CAP_X (R212). Instruction CAP.X pushes the further capture count. -/
def execRhCapX (t : Fin 64) (ch : BitVec 10) (s : State) : Host.Outcome State Fault Refusal :=
  s.lane (fun d => d.rhCapX t ch)

/-- CAP_CP (R212). Instruction CAP.CP stores the delivered capture entries to the worktop. -/
def execRhCapCp (t : Fin 64) (ch : BitVec 10) (s : State) : Host.Outcome State Fault Refusal :=
  s.lane (fun d => d.rhCapCp t ch)

/-- T_START (R214). Instruction T.START stores a timer record started at the latched time. -/
def execRhTStart (t : Fin 64) (ms : Bool) (s : State) : Host.Outcome State Fault Refusal :=
  s.lane (fun d => d.rhTStart t ms)

/-- T_EXP (R214). Instruction T.EXP tests whether a timer has expired. -/
def execRhTExp (t : Fin 64) (s : State) : Host.Outcome State Fault Refusal := s.lane (fun d => d.rhTExp t)

/-- T_LEFT (R214). Instruction T.LEFT pushes a timer's remaining duration. -/
def execRhTLeft (t : Fin 64) (s : State) : Host.Outcome State Fault Refusal := s.lane (fun d => d.rhTLeft t)

/-- TIME (R213). Instruction TIME pushes a latched time value chosen by its selector. -/
def execRhTime (t : Fin 64) (sel : TimeSel) (s : State) : Host.Outcome State Fault Refusal :=
  s.lane (fun d => d.rhTime t sel)

/-- REG_RD (R220). Instruction REG.RD pushes a register latched at release through the task's view. -/
def execRhRegRd (t : Fin 64) (a : BitVec 24) (s : State) : Host.Outcome State Fault Refusal :=
  s.lane (fun d => d.rhRegRd t a)

/-- REG_WR (R220). Instruction REG.WR stages a register write for the commit. -/
def execRhRegWr (t : Fin 64) (a : BitVec 24) (s : State) : Host.Outcome State Fault Refusal :=
  s.lane (fun d => d.rhRegWr t a)

/-- SELF (R213). Instruction SELF pushes the task number, pot number or entry run. -/
def execRhSelf (t : Fin 64) (sel : SelfSel) (s : State) : Host.Outcome State Fault Refusal :=
  s.lane (fun d => d.rhSelf t sel)

/-- H_RD (R215). Instruction H.RD pushes a word of the latched hatch copy. -/
def execRhHRd (t : Fin 64) (h : BitVec 6) (wd : BitVec 4) (ty : RhType) (s : State) : Host.Outcome State Fault Refusal
    :=
  s.lane (fun d => d.rhHRd t h wd ty)

/-- H_WR (R215). Instruction H.WR stages a hatch word for publication. -/
def execRhHWr (t : Fin 64) (h : BitVec 6) (wd : BitVec 4) (ty : RhType) (s : State) : Host.Outcome State Fault Refusal
    :=
  s.lane (fun d => d.rhHWr t h wd ty)

/-- H_GEN (R215). Instruction H.GEN pushes the latched hatch generation. -/
def execRhHGen (t : Fin 64) (h : BitVec 6) (s : State) : Host.Outcome State Fault Refusal :=
  s.lane (fun d => d.rhHGen t h)

/-- L_RD (R216). Instruction L.RD pushes half of a larder group of an owned region. -/
def execRhLRd (t : Fin 64) (r : BitVec 6) (half : Bool) (g : BitVec 15) (ty : RhType) (e : EccFind) (s : State) :
    Host.Outcome State Fault Refusal :=
  s.act (fun d => d.rhLRd t r half g ty e)

/-- L_WR (R217). Instruction L.WR stages a larder half-group write, within the 512-group limit. -/
def execRhLWr (t : Fin 64) (r : BitVec 6) (half : Bool) (g : BitVec 15) (ty : RhType) (s : State) : Host.Outcome State
    Fault Refusal :=
  s.lane (fun d => d.rhLWr t r half g ty)

/-- L_STAT (R221). Instruction L.STAT pushes a larder region's status. -/
def execRhLStat (t : Fin 64) (r : BitVec 6) (s : State) : Host.Outcome State Fault Refusal :=
  s.lane (fun d => d.rhLStat t r)

/-- S_RUN (R218). Instruction S.RUN stages a start of a slot's script. -/
def execRhSRun (t : Fin 64) (n : BitVec 4) (s : State) : Host.Outcome State Fault Refusal :=
  s.lane (fun d => d.rhSRun t n)

/-- S_STOP (R218). Instruction S.STOP stages an abort of a slot's script. -/
def execRhSStop (t : Fin 64) (n : BitVec 4) (s : State) : Host.Outcome State Fault Refusal :=
  s.lane (fun d => d.rhSStop t n)

/-- S_PAR (R218). Instruction S.PAR stages a script parameter. -/
def execRhSPar (t : Fin 64) (n k : BitVec 4) (s : State) : Host.Outcome State Fault Refusal :=
  s.lane (fun d => d.rhSPar t n k)

/-- S_STAT (R221). Instruction S.STAT pushes a slot's latched status. -/
def execRhSStat (t : Fin 64) (n : BitVec 4) (s : State) : Host.Outcome State Fault Refusal :=
  s.lane (fun d => d.rhSStat t n)

/-- F_RECT (R219). Instruction F.RECT stages a rectangle request for a face region. -/
def execRhFRect (t : Fin 64) (r : BitVec 4) (s : State) : Host.Outcome State Fault Refusal :=
  s.lane (fun d => d.rhFRect t r)

/-- F_ABORT (R519). Instruction F.ABORT stages an abort of a region's face operations. -/
def execRhFAbort (t : Fin 64) (r : BitVec 4) (s : State) : Host.Outcome State Fault Refusal :=
  s.lane (fun d => d.rhFAbort t r)

/-- F_STEN (R219). Instruction F.STEN stages a stencil run. -/
def execRhFSten (t : Fin 64) (k : BitVec 16) (s : State) : Host.Outcome State Fault Refusal :=
  s.lane (fun d => d.rhFSten t k)

/-- F_STAT (R221). Instruction F.STAT pushes a face region's latched status. -/
def execRhFStat (t : Fin 64) (r : BitVec 4) (s : State) : Host.Outcome State Fault Refusal :=
  s.lane (fun d => d.rhFStat t r)

end Sys2Proof.Machine
end

