-- ==== Sys2Proof/Machine/Start.lean ====
section
/-! DEFINITION. The commands of start-up, reset and straps (09). -/

namespace Sys2Proof.Machine

/-- POWER_ON (R265). VIN rises through the rising threshold with PD0 unpowered, which starts a power-on reset and the
start-up timeline. -/
def execPowerOn (e : ResetEnv) (s : State) : Host.Outcome State Fault Refusal := s.act (fun d => d.powerOn e)

/-- BROWN_OUT (R254). VIN stays below the falling threshold for the filter time, which causes an immediate power-on
reset. -/
def execBrownOut (e : ResetEnv) (s : State) : Host.Outcome State Fault Refusal := s.act (fun d => d.brownOut e)

/-- RESET_N (R255). RESET_N is held low for at least its minimum pulse, which causes a cold reset at the next
milestone boundary after release. -/
def execResetN (s : State) : Host.Outcome State Fault Refusal := s.act (fun d => d.resetN)

/-- RESET_WARM (R259). A privileged write to SYS.RESET with KIND warm and the right KEY orders a warm reset. -/
def execResetWarm (s : State) : Host.Outcome State Fault Refusal := s.act (fun d => d.orderReset 4 .warm)

/-- RESET_COLD (R259). A privileged write to SYS.RESET with KIND cold and the right KEY orders a cold reset. -/
def execResetCold (s : State) : Host.Outcome State Fault Refusal := s.act (fun d => d.orderReset 5 .cold)

/-- RESET_APPLY (R256). A pending reset takes effect, aborts commands, ends sessions, moves pins to their off levels,
switches off non-mandatory domains and completes queued larder writes. -/
def execResetApply (e : ResetEnv) (s : State) : Host.Outcome State Fault Refusal := s.act (fun d => d.resetApply e)

/-- DOMAIN_FAULT (R80). A domain's core voltage stays 50 mV below its floor for 1 µs, so the domain is powered down or
a reset follows. -/
def execDomainFault (n : Fin 16) (e : ResetEnv) (s : State) : Host.Outcome State Fault Refusal :=
  s.act (fun d => d.domainFaultAny n e)

/-- STRAP_LATCH (R262). At the strap instant the device latches TSTRAP, PROV_EN and HOSTSEL, sampling HOSTSEL with its
three-level pull sequence. -/
def execStrapLatch (tstrap : BitVec 3) (prov up down : Bool) (s : State) : Host.Outcome State Fault Refusal :=
  s.act (fun d => d.strapLatch tstrap prov up down)

/-- PARAMETER_LOAD (R265). Once the larder completion ends, the device loads device parameters and the remap table,
and finds the newest fault-log entry. -/
def execParameterLoad (c : CellEnv) (s : State) : Host.Outcome State Fault Refusal := s.act (fun d => d.parameterLoad c)

/-- JOURNAL_RECOVERY (R249). After PD7 becomes usable, the device completes marked journal transactions, rolls back
the others and writes STORE.JRN. -/
def execJournalRecovery (c : CellEnv) (s : State) : Host.Outcome State Fault Refusal :=
  s.act (fun d => d.journalRecovery c)

/-- IMAGE_ACCEPTANCE (R197). The device selects a bank and checks its image in the order of Table 6.10, either
accepting it or recording the tollgate cause. -/
def execImageAcceptance (e : AcceptEnv) (s : State) : Host.Outcome State Fault Refusal :=
  s.act (fun d => d.imageAcceptance e)

/-- RETRY (R279). A write of SYS.TOLL.RETRY in a start-up tollgate runs selection and acceptance again without a
reset. -/
def execRetry (s : State) : Host.Outcome State Fault Refusal := s.act (fun d => d.retry)

/-- TOLL_AUTO_RESET (R282). HOB_RESET_DELAY milestones after a Hob overrun, with AUTO below 3, the device resets
itself with source TOLL_AUTO. -/
def execTollAutoReset (e : ResetEnv) (s : State) : Host.Outcome State Fault Refusal :=
  s.act (fun d => d.tollAutoReset e)

/-- TOLL_AUTO_CLEAR (R282). After 65,536 consecutive milestones in RUN, SYS.TOLL.AUTO returns to 0. -/
def execTollAutoClear (s : State) : Host.Outcome State Fault Refusal := s.act (fun d => d.tollAutoClear)

/-- BOOT_READ (R272). A host read of SYS.BOOT clears BUS.ATTN.BOOT and may deassert ATTN_N. -/
def execBootRead (s : State) : Host.Outcome State Fault Refusal := s.act (fun d => d.bootRead)

/-- RESET_N_RELEASE (R255). RESET_N returns high after being held low, and start-up begins at the first milestone
boundary after that. -/
def execResetNRelease (s : State) : Host.Outcome State Fault Refusal := s.act (fun d => d.resetRelease)

end Sys2Proof.Machine
end

