-- ==== Sys2Proof/Machine/Vent.lean ====
section
/-! DEFINITION. The fan unit, the actuators and SYS_SHDN (16). -/

namespace Sys2Proof.Machine

/-- KICK_END (R484). After KICK_WM waymarks a fan kick ends and the ramp resumes. -/
def execKickEnd (f : Fin 6) (s : State) : Host.Outcome State Fault Refusal := s.act (fun d => d.kickEnd f)

/-- TACH_EDGE (R486). An accepted rising TACH edge is stamped in SI time. -/
def execTachEdge (f : Fin 6) (stamp : Nat) (s : State) : Host.Outcome State Fault Refusal :=
  s.act (fun d => d.tachEdge f stamp)

/-- TACH_LOST (R487). TACH_LOSS milestones without an edge at running output set TACH_LOST. -/
def execTachLost (f : Fin 6) (s : State) : Host.Outcome State Fault Refusal := s.act (fun d => d.tachLostEvent f)

/-- FAN_CAPTURE (R489). A FAN.CAPTURE GO bit requests a baseline capture at the next steady evaluation. -/
def execFanCapture (go : BitVec 6) (s : State) : Host.Outcome State Fault Refusal := s.act (fun d => d.fanCapture go)

/-- SHDN_COMPARE (R490). Every 250 µs the die temperature and TSNS are compared, which asserts or releases SYS_SHDN.
-/
def execShdnCompare (die : Int) (ohm : Nat) (s : State) : Host.Outcome State Fault Refusal :=
  s.act (fun d => d.shdnCompare die ohm)

/-- REVERSAL_PAUSE_END (R498). REV_WM waymarks end a reversal pause, and direction is decided afresh. -/
def execReversalPauseEnd (k : Fin 4) (s : State) : Host.Outcome State Fault Refusal := s.act (fun d => d.pauseEnd k)

/-- OVERTRAVEL_END (R498). The end-stop over-travel run ends, and travel is set to the end. -/
def execOvertravelEnd (k : Fin 4) (s : State) : Host.Outcome State Fault Refusal := s.act (fun d => d.overtravelEnd k)

/-- HOMING_COMPLETE (R499). The homing run ends, and travel is set to the end, clearing UNKNOWN. -/
def execHomingComplete (k : Fin 4) (s : State) : Host.Outcome State Fault Refusal :=
  s.act (fun d => d.homingComplete k)

end Sys2Proof.Machine
end

