-- ==== Sys2Proof/Machine/Dispatch.lean ====
section
/-! DEFINITION. One arm per command, each a call of its meaning. -/

namespace Sys2Proof.Machine

/-- The effect of a command on everything but the queue. -/
def exec (i : Instr) (s : State) : Host.Outcome State Fault Refusal :=
  match i with
  | .powerOn e => Sys2Proof.Machine.execPowerOn e s
  | .brownOut e => Sys2Proof.Machine.execBrownOut e s
  | .resetN => Sys2Proof.Machine.execResetN s
  | .resetWarm => Sys2Proof.Machine.execResetWarm s
  | .resetCold => Sys2Proof.Machine.execResetCold s
  | .resetApply e => Sys2Proof.Machine.execResetApply e s
  | .domainFault n e => Sys2Proof.Machine.execDomainFault n e s
  | .strapLatch tstrap prov up down => Sys2Proof.Machine.execStrapLatch tstrap prov up down s
  | .parameterLoad c => Sys2Proof.Machine.execParameterLoad c s
  | .journalRecovery c => Sys2Proof.Machine.execJournalRecovery c s
  | .imageAcceptance e => Sys2Proof.Machine.execImageAcceptance e s
  | .retry => Sys2Proof.Machine.execRetry s
  | .tollAutoReset e => Sys2Proof.Machine.execTollAutoReset e s
  | .tollAutoClear => Sys2Proof.Machine.execTollAutoClear s
  | .bootRead => Sys2Proof.Machine.execBootRead s
  | .zcCrossing ii stamp high => Sys2Proof.Machine.execZcCrossing ii stamp high s
  | .zcTimeout ii => Sys2Proof.Machine.execZcTimeout ii s
  | .holdoverExpiry => Sys2Proof.Machine.execHoldoverExpiry s
  | .xtalFail => Sys2Proof.Machine.execXtalFail s
  | .xtalSwitchover => Sys2Proof.Machine.execXtalSwitchover s
  | .xtalStartTimeout => Sys2Proof.Machine.execXtalStartTimeout s
  | .xtalComp temp => Sys2Proof.Machine.execXtalComp temp s
  | .dieTempRefresh temp => Sys2Proof.Machine.execDieTempRefresh temp s
  | .netCheckpoint => Sys2Proof.Machine.execNetCheckpoint s
  | .beaconTimeout => Sys2Proof.Machine.execBeaconTimeout s
  | .timeMsLoRead who frac => Sys2Proof.Machine.execTimeMsLoRead who frac s
  | .timeSiLoRead who frac => Sys2Proof.Machine.execTimeSiLoRead who frac s
  | .siOfsWrite hi => Sys2Proof.Machine.execSiOfsWrite hi s
  | .waymarkBoundary p e => Sys2Proof.Machine.execWaymarkBoundary p e s
  | .autorun => Sys2Proof.Machine.execAutorun s
  | .runWarm => Sys2Proof.Machine.execRunWarm s
  | .runCold => Sys2Proof.Machine.execRunCold s
  | .halt => Sys2Proof.Machine.execHalt s
  | .potStop p host => Sys2Proof.Machine.execPotStop p host s
  | .potWarm p host => Sys2Proof.Machine.execPotWarm p host s
  | .potCold p host => Sys2Proof.Machine.execPotCold p host s
  | .forceTableWrite ii value v => Sys2Proof.Machine.execForceTableWrite ii value v s
  | .forceClearAll => Sys2Proof.Machine.execForceClearAll s
  | .pdReqWrite v host => Sys2Proof.Machine.execPdReqWrite v host s
  | .guarAckRetire => Sys2Proof.Machine.execGuarAckRetire s
  | .laneXchg v => Sys2Proof.Machine.execLaneXchg v s
  | .registerWrite w a v => Sys2Proof.Machine.execRegisterWrite w a v s
  | .selftest k good => Sys2Proof.Machine.execSelftest k good s
  | .laneStall k => Sys2Proof.Machine.execLaneStall k s
  | .laneParity k => Sys2Proof.Machine.execLaneParity k s
  | .laneExchange => Sys2Proof.Machine.execLaneExchange s
  | .erase b => Sys2Proof.Machine.execErase b s
  | .eraseComplete => Sys2Proof.Machine.execEraseComplete s
  | .storeWrite b => Sys2Proof.Machine.execStoreWrite b s
  | .storeSeal b => Sys2Proof.Machine.execStoreSeal b s
  | .sealComplete => Sys2Proof.Machine.execSealComplete s
  | .bankSwitchTo b => Sys2Proof.Machine.execBankSwitchTo b s
  | .switchVerified => Sys2Proof.Machine.execSwitchVerified s
  | .bankSwitch => Sys2Proof.Machine.execBankSwitch s
  | .storeAbort words => Sys2Proof.Machine.execStoreAbort words s
  | .txnBegin => Sys2Proof.Machine.execTxnBegin s
  | .txnWrite => Sys2Proof.Machine.execTxnWrite s
  | .txnCommit => Sys2Proof.Machine.execTxnCommit s
  | .provision priv => Sys2Proof.Machine.execProvision priv s
  | .larderWriteComplete ok => Sys2Proof.Machine.execLarderWriteComplete ok s
  | .wearWriteback => Sys2Proof.Machine.execWearWriteback s
  | .calibrationRotation k e => Sys2Proof.Machine.execCalibrationRotation k e s
  | .sliceStall k slice at' => Sys2Proof.Machine.execSliceStall k slice at' s
  | .crossingAssert ii stamp level => Sys2Proof.Machine.execCrossingAssert ii stamp level s
  | .crossingDeassert ii stamp level => Sys2Proof.Machine.execCrossingDeassert ii stamp level s
  | .scriptStart n => Sys2Proof.Machine.execScriptStart n s
  | .scriptAbort n => Sys2Proof.Machine.execScriptAbort n s
  | .scriptEnd n => Sys2Proof.Machine.execScriptEnd n s
  | .scriptSample n vs => Sys2Proof.Machine.execScriptSample n vs s
  | .scriptAverage n vs => Sys2Proof.Machine.execScriptAverage n vs s
  | .scriptWait n => Sys2Proof.Machine.execScriptWait n s
  | .scriptRepeat n => Sys2Proof.Machine.execScriptRepeat n s
  | .scriptMark n => Sys2Proof.Machine.execScriptMark n s
  | .scriptFire n => Sys2Proof.Machine.execScriptFire n s
  | .scriptGsample n v => Sys2Proof.Machine.execScriptGsample n v s
  | .senseSequence vs => Sys2Proof.Machine.execSenseSequence vs s
  | .diLevelChange ii level stamp run => Sys2Proof.Machine.execDiLevelChange ii level stamp run s
  | .i2cWritePhase es => Sys2Proof.Machine.execI2cWritePhase es s
  | .i2cReadPhase es => Sys2Proof.Machine.execI2cReadPhase es s
  | .i2cTimeout x read bytes => Sys2Proof.Machine.execI2cTimeout x read bytes s
  | .phyCfgApply => Sys2Proof.Machine.execPhyCfgApply s
  | .carrierDetect at' noise => Sys2Proof.Machine.execCarrierDetect at' noise s
  | .bandInUse => Sys2Proof.Machine.execBandInUse s
  | .preambleDetect p => Sys2Proof.Machine.execPreambleDetect p s
  | .frameStart k rnd heard => Sys2Proof.Machine.execFrameStart k rnd heard s
  | .frameSent => Sys2Proof.Machine.execFrameSent s
  | .beacon f => Sys2Proof.Machine.execBeacon f s
  | .timeFrame f => Sys2Proof.Machine.execTimeFrame f s
  | .ackFrame f => Sys2Proof.Machine.execAckFrame f s
  | .ackTimeout lseq => Sys2Proof.Machine.execAckTimeout lseq s
  | .mapAsk f => Sys2Proof.Machine.execMapAsk f s
  | .mapOffer f => Sys2Proof.Machine.execMapOffer f s
  | .mapRefresh n => Sys2Proof.Machine.execMapRefresh n s
  | .joinReq f => Sys2Proof.Machine.execJoinReq f s
  | .joinAcc f => Sys2Proof.Machine.execJoinAcc f s
  | .joinRetry => Sys2Proof.Machine.execJoinRetry s
  | .courier f => Sys2Proof.Machine.execCourier f s
  | .courierStale g producer => Sys2Proof.Machine.execCourierStale g producer s
  | .convoy f => Sys2Proof.Machine.execConvoy f s
  | .tunnel f e => Sys2Proof.Machine.execTunnel f e s
  | .probe f => Sys2Proof.Machine.execProbe f s
  | .probeGo dst => Sys2Proof.Machine.execProbeGo dst s
  | .probeTimeout => Sys2Proof.Machine.execProbeTimeout s
  | .jclr addr => Sys2Proof.Machine.execJclr addr s
  | .identify r => Sys2Proof.Machine.execIdentify r s
  | .take r => Sys2Proof.Machine.execTake r s
  | .release r => Sys2Proof.Machine.execRelease r s
  | .seatRead r e => Sys2Proof.Machine.execSeatRead r e s
  | .seatWrite r e => Sys2Proof.Machine.execSeatWrite r e s
  | .challenge r e => Sys2Proof.Machine.execChallenge r e s
  | .respond r e => Sys2Proof.Machine.execRespond r e s
  | .close r => Sys2Proof.Machine.execClose r s
  | .seatReset r => Sys2Proof.Machine.execSeatReset r s
  | .tunOpen r => Sys2Proof.Machine.execTunOpen r s
  | .tunSend r e => Sys2Proof.Machine.execTunSend r e s
  | .tunRecv r => Sys2Proof.Machine.execTunRecv r s
  | .tunClose r => Sys2Proof.Machine.execTunClose r s
  | .csNEarlyRise => Sys2Proof.Machine.execCsNEarlyRise s
  | .seatIdleFree => Sys2Proof.Machine.execSeatIdleFree s
  | .token dst => Sys2Proof.Machine.execToken dst s
  | .pollForMaster src dst => Sys2Proof.Machine.execPollForMaster src dst s
  | .replyToPollForMaster src dst => Sys2Proof.Machine.execReplyToPollForMaster src dst s
  | .testRequest src dst data => Sys2Proof.Machine.execTestRequest src dst data s
  | .testResponse dst => Sys2Proof.Machine.execTestResponse dst s
  | .bacnetDataExpectingReply src dst data => Sys2Proof.Machine.execBacnetDataExpectingReply src dst data s
  | .bacnetDataNotExpectingReply src dst data => Sys2Proof.Machine.execBacnetDataNotExpectingReply src dst data s
  | .replyPostponed dst => Sys2Proof.Machine.execReplyPostponed dst s
  | .noTokenTimeout => Sys2Proof.Machine.execNoTokenTimeout s
  | .txSlotSubmit ii => Sys2Proof.Machine.execTxSlotSubmit ii s
  | .readProperty mac invoke r => Sys2Proof.Machine.execReadProperty mac invoke r s
  | .readPropertyMultiple mac invoke specs => Sys2Proof.Machine.execReadPropertyMultiple mac invoke specs s
  | .writeProperty mac invoke r v => Sys2Proof.Machine.execWriteProperty mac invoke r v s
  | .whoIs limits => Sys2Proof.Machine.execWhoIs limits s
  | .whoHas key => Sys2Proof.Machine.execWhoHas key s
  | .subscribeCov mac invoke process type inst lifetime confirmed => Sys2Proof.Machine.execSubscribeCov mac invoke process type inst lifetime confirmed s
  | .covLifetimeExpiry => Sys2Proof.Machine.execCovLifetimeExpiry s
  | .decision u x => Sys2Proof.Machine.execDecision u x s
  | .estimate u now => Sys2Proof.Machine.execEstimate u now s
  | .alignComplete u => Sys2Proof.Machine.execAlignComplete u s
  | .standstillTimeout u => Sys2Proof.Machine.execStandstillTimeout u s
  | .overcurrent u => Sys2Proof.Machine.execOvercurrent u s
  | .dcVoltage u => Sys2Proof.Machine.execDcVoltage u s
  | .drvFault u => Sys2Proof.Machine.execDrvFault u s
  | .cmdLoss u => Sys2Proof.Machine.execCmdLoss u s
  | .cmdRegained u => Sys2Proof.Machine.execCmdRegained u s
  | .kickEnd f => Sys2Proof.Machine.execKickEnd f s
  | .tachEdge f stamp => Sys2Proof.Machine.execTachEdge f stamp s
  | .tachLost f => Sys2Proof.Machine.execTachLost f s
  | .fanCapture go => Sys2Proof.Machine.execFanCapture go s
  | .shdnCompare die ohm => Sys2Proof.Machine.execShdnCompare die ohm s
  | .reversalPauseEnd k => Sys2Proof.Machine.execReversalPauseEnd k s
  | .overtravelEnd k => Sys2Proof.Machine.execOvertravelEnd k s
  | .homingComplete k => Sys2Proof.Machine.execHomingComplete k s
  | .faceFrameStart k heads fv => Sys2Proof.Machine.execFaceFrameStart k heads fv s
  | .faceOperationComplete p => Sys2Proof.Machine.execFaceOperationComplete p s
  | .stressFlush => Sys2Proof.Machine.execStressFlush s
  | .fvPassStart => Sys2Proof.Machine.execFvPassStart s
  | .stencilEnd r => Sys2Proof.Machine.execStencilEnd r s
  | .stencilInk r => Sys2Proof.Machine.execStencilInk r s
  | .stencilFill r => Sys2Proof.Machine.execStencilFill r s
  | .stencilMask r => Sys2Proof.Machine.execStencilMask r s
  | .stencilDigits r => Sys2Proof.Machine.execStencilDigits r s
  | .stencilArrow r => Sys2Proof.Machine.execStencilArrow r s
  | .rhNop t => Sys2Proof.Machine.execRhNop t s
  | .rhPushI8 t v => Sys2Proof.Machine.execRhPushI8 t v s
  | .rhPushI16 t v => Sys2Proof.Machine.execRhPushI16 t v s
  | .rhPushI32 t v => Sys2Proof.Machine.execRhPushI32 t v s
  | .rhPushU32 t v => Sys2Proof.Machine.execRhPushU32 t v s
  | .rhPushQ t v => Sys2Proof.Machine.execRhPushQ t v s
  | .rhPushF t v => Sys2Proof.Machine.execRhPushF t v s
  | .rhDrop t => Sys2Proof.Machine.execRhDrop t s
  | .rhDup t => Sys2Proof.Machine.execRhDup t s
  | .rhSwap t => Sys2Proof.Machine.execRhSwap t s
  | .rhOver t => Sys2Proof.Machine.execRhOver t s
  | .rhRot t => Sys2Proof.Machine.execRhRot t s
  | .rhPick t k => Sys2Proof.Machine.execRhPick t k s
  | .rhLdL t ii => Sys2Proof.Machine.execRhLdL t ii s
  | .rhStL t ii => Sys2Proof.Machine.execRhStL t ii s
  | .rhTeeL t ii => Sys2Proof.Machine.execRhTeeL t ii s
  | .rhAddI t => Sys2Proof.Machine.execRhAddI t s
  | .rhSubI t => Sys2Proof.Machine.execRhSubI t s
  | .rhMulI t => Sys2Proof.Machine.execRhMulI t s
  | .rhDivI t => Sys2Proof.Machine.execRhDivI t s
  | .rhRemI t => Sys2Proof.Machine.execRhRemI t s
  | .rhNegI t => Sys2Proof.Machine.execRhNegI t s
  | .rhAbsI t => Sys2Proof.Machine.execRhAbsI t s
  | .rhAddsI t => Sys2Proof.Machine.execRhAddsI t s
  | .rhSubsI t => Sys2Proof.Machine.execRhSubsI t s
  | .rhMulsI t => Sys2Proof.Machine.execRhMulsI t s
  | .rhNegsI t => Sys2Proof.Machine.execRhNegsI t s
  | .rhAbssI t => Sys2Proof.Machine.execRhAbssI t s
  | .rhMinI t => Sys2Proof.Machine.execRhMinI t s
  | .rhMaxI t => Sys2Proof.Machine.execRhMaxI t s
  | .rhAddU t => Sys2Proof.Machine.execRhAddU t s
  | .rhSubU t => Sys2Proof.Machine.execRhSubU t s
  | .rhMulU t => Sys2Proof.Machine.execRhMulU t s
  | .rhDivU t => Sys2Proof.Machine.execRhDivU t s
  | .rhRemU t => Sys2Proof.Machine.execRhRemU t s
  | .rhAddsU t => Sys2Proof.Machine.execRhAddsU t s
  | .rhSubsU t => Sys2Proof.Machine.execRhSubsU t s
  | .rhMulsU t => Sys2Proof.Machine.execRhMulsU t s
  | .rhMinU t => Sys2Proof.Machine.execRhMinU t s
  | .rhMaxU t => Sys2Proof.Machine.execRhMaxU t s
  | .rhAddQ t => Sys2Proof.Machine.execRhAddQ t s
  | .rhSubQ t => Sys2Proof.Machine.execRhSubQ t s
  | .rhMulQ t => Sys2Proof.Machine.execRhMulQ t s
  | .rhDivQ t => Sys2Proof.Machine.execRhDivQ t s
  | .rhNegQ t => Sys2Proof.Machine.execRhNegQ t s
  | .rhAbsQ t => Sys2Proof.Machine.execRhAbsQ t s
  | .rhMinQ t => Sys2Proof.Machine.execRhMinQ t s
  | .rhMaxQ t => Sys2Proof.Machine.execRhMaxQ t s
  | .rhAddF t => Sys2Proof.Machine.execRhAddF t s
  | .rhSubF t => Sys2Proof.Machine.execRhSubF t s
  | .rhMulF t => Sys2Proof.Machine.execRhMulF t s
  | .rhDivF t => Sys2Proof.Machine.execRhDivF t s
  | .rhNegF t => Sys2Proof.Machine.execRhNegF t s
  | .rhAbsF t => Sys2Proof.Machine.execRhAbsF t s
  | .rhMinF t => Sys2Proof.Machine.execRhMinF t s
  | .rhMaxF t => Sys2Proof.Machine.execRhMaxF t s
  | .rhSqrtF t => Sys2Proof.Machine.execRhSqrtF t s
  | .rhFloorF t => Sys2Proof.Machine.execRhFloorF t s
  | .rhCeilF t => Sys2Proof.Machine.execRhCeilF t s
  | .rhRoundF t => Sys2Proof.Machine.execRhRoundF t s
  | .rhTruncF t => Sys2Proof.Machine.execRhTruncF t s
  | .rhCmpI t c => Sys2Proof.Machine.execRhCmpI t c s
  | .rhCmpU t c => Sys2Proof.Machine.execRhCmpU t c s
  | .rhCmpQ t c => Sys2Proof.Machine.execRhCmpQ t c s
  | .rhCmpF t c => Sys2Proof.Machine.execRhCmpF t c s
  | .rhAnd t => Sys2Proof.Machine.execRhAnd t s
  | .rhOr t => Sys2Proof.Machine.execRhOr t s
  | .rhXor t => Sys2Proof.Machine.execRhXor t s
  | .rhNot t => Sys2Proof.Machine.execRhNot t s
  | .rhShlI t => Sys2Proof.Machine.execRhShlI t s
  | .rhShlU t => Sys2Proof.Machine.execRhShlU t s
  | .rhShrI t => Sys2Proof.Machine.execRhShrI t s
  | .rhShrU t => Sys2Proof.Machine.execRhShrU t s
  | .rhRotl t => Sys2Proof.Machine.execRhRotl t s
  | .rhRotr t => Sys2Proof.Machine.execRhRotr t s
  | .rhClz t => Sys2Proof.Machine.execRhClz t s
  | .rhPopc t => Sys2Proof.Machine.execRhPopc t s
  | .rhEqz t => Sys2Proof.Machine.execRhEqz t s
  | .rhI2u t => Sys2Proof.Machine.execRhI2u t s
  | .rhU2i t => Sys2Proof.Machine.execRhU2i t s
  | .rhI2f t => Sys2Proof.Machine.execRhI2f t s
  | .rhU2f t => Sys2Proof.Machine.execRhU2f t s
  | .rhQ2f t => Sys2Proof.Machine.execRhQ2f t s
  | .rhF2i t => Sys2Proof.Machine.execRhF2i t s
  | .rhF2u t => Sys2Proof.Machine.execRhF2u t s
  | .rhF2q t => Sys2Proof.Machine.execRhF2q t s
  | .rhI2q t => Sys2Proof.Machine.execRhI2q t s
  | .rhU2q t => Sys2Proof.Machine.execRhU2q t s
  | .rhQ2i t => Sys2Proof.Machine.execRhQ2i t s
  | .rhFBits t => Sys2Proof.Machine.execRhFBits t s
  | .rhFFrom t => Sys2Proof.Machine.execRhFFrom t s
  | .rhQBits t => Sys2Proof.Machine.execRhQBits t s
  | .rhQFrom t => Sys2Proof.Machine.execRhQFrom t s
  | .rhBr t ofs => Sys2Proof.Machine.execRhBr t ofs s
  | .rhBrz t ofs => Sys2Proof.Machine.execRhBrz t ofs s
  | .rhBrnz t ofs => Sys2Proof.Machine.execRhBrnz t ofs s
  | .rhLoop t mx back => Sys2Proof.Machine.execRhLoop t mx back s
  | .rhCall t fn => Sys2Proof.Machine.execRhCall t fn s
  | .rhRet t => Sys2Proof.Machine.execRhRet t s
  | .rhSelect t => Sys2Proof.Machine.execRhSelect t s
  | .rhLd8u t => Sys2Proof.Machine.execRhLd8u t s
  | .rhLd8s t => Sys2Proof.Machine.execRhLd8s t s
  | .rhLd16u t => Sys2Proof.Machine.execRhLd16u t s
  | .rhLd16s t => Sys2Proof.Machine.execRhLd16s t s
  | .rhLd32 t ty => Sys2Proof.Machine.execRhLd32 t ty s
  | .rhSt8 t => Sys2Proof.Machine.execRhSt8 t s
  | .rhSt16 t => Sys2Proof.Machine.execRhSt16 t s
  | .rhSt32 t => Sys2Proof.Machine.execRhSt32 t s
  | .rhLdc8u t => Sys2Proof.Machine.execRhLdc8u t s
  | .rhLdc16u t => Sys2Proof.Machine.execRhLdc16u t s
  | .rhLdc32 t ty => Sys2Proof.Machine.execRhLdc32 t ty s
  | .rhIn t ch el ty => Sys2Proof.Machine.execRhIn t ch el ty s
  | .rhInst t ch el => Sys2Proof.Machine.execRhInst t ch el s
  | .rhOut t ch el ty => Sys2Proof.Machine.execRhOut t ch el ty s
  | .rhOutget t ch el ty => Sys2Proof.Machine.execRhOutget t ch el ty s
  | .rhPrev t ch el ty => Sys2Proof.Machine.execRhPrev t ch el ty s
  | .rhEdgeR t ch el => Sys2Proof.Machine.execRhEdgeR t ch el s
  | .rhEdgeF t ch el => Sys2Proof.Machine.execRhEdgeF t ch el s
  | .rhCapN t ch => Sys2Proof.Machine.execRhCapN t ch s
  | .rhCapX t ch => Sys2Proof.Machine.execRhCapX t ch s
  | .rhCapCp t ch => Sys2Proof.Machine.execRhCapCp t ch s
  | .rhTStart t ms => Sys2Proof.Machine.execRhTStart t ms s
  | .rhTExp t => Sys2Proof.Machine.execRhTExp t s
  | .rhTLeft t => Sys2Proof.Machine.execRhTLeft t s
  | .rhTime t sel => Sys2Proof.Machine.execRhTime t sel s
  | .rhRegRd t a => Sys2Proof.Machine.execRhRegRd t a s
  | .rhRegWr t a => Sys2Proof.Machine.execRhRegWr t a s
  | .rhSelf t sel => Sys2Proof.Machine.execRhSelf t sel s
  | .rhHRd t h wd ty => Sys2Proof.Machine.execRhHRd t h wd ty s
  | .rhHWr t h wd ty => Sys2Proof.Machine.execRhHWr t h wd ty s
  | .rhHGen t h => Sys2Proof.Machine.execRhHGen t h s
  | .rhLRd t r half g ty e => Sys2Proof.Machine.execRhLRd t r half g ty e s
  | .rhLWr t r half g ty => Sys2Proof.Machine.execRhLWr t r half g ty s
  | .rhLStat t r => Sys2Proof.Machine.execRhLStat t r s
  | .rhSRun t n => Sys2Proof.Machine.execRhSRun t n s
  | .rhSStop t n => Sys2Proof.Machine.execRhSStop t n s
  | .rhSPar t n k => Sys2Proof.Machine.execRhSPar t n k s
  | .rhSStat t n => Sys2Proof.Machine.execRhSStat t n s
  | .rhFRect t r => Sys2Proof.Machine.execRhFRect t r s
  | .rhFAbort t r => Sys2Proof.Machine.execRhFAbort t r s
  | .rhFSten t k => Sys2Proof.Machine.execRhFSten t k s
  | .rhFStat t r => Sys2Proof.Machine.execRhFStat t r s
  | .resetNRelease => Sys2Proof.Machine.execResetNRelease s
  | .bandNotInUse => Sys2Proof.Machine.execBandNotInUse s
  | .speedCommandEdge u rise stamp => Sys2Proof.Machine.execSpeedCommandEdge u rise stamp s
  | .storeWriteComplete => Sys2Proof.Machine.execStoreWriteComplete s
  | .unsupportedFrame => Sys2Proof.Machine.execUnsupportedFrame s
  | .crcErr => Sys2Proof.Machine.execCrcErr s
  | .tUsageTimeout => Sys2Proof.Machine.execTUsageTimeout s

end Sys2Proof.Machine
end

