-- ==== Sys2Proof/Safety.lean ====
section
/-! DEFINITION. The terms in which statements about the machine are made: what a command completes in, what holds of a
device in every run, and when a task's next instruction runs. -/

namespace Sys2Proof.Safety

open Sys2Proof.Machine

/-- A command completes: it answers a next state whose queue is the one it found and whose device has the property. -/
def Completes (i : Instr) (s : State) (P : Dev → Prop) : Prop :=
  ∃ t, exec i s = .next t ∧ t.pending = s.pending ∧ P t.dev

/-- A command completes with the device `d` and no other change. -/
def Becomes (i : Instr) (s : State) (d : Dev) : Prop := exec i s = .next { s with dev := d }

/-! ## What holds in every run -/

/-- Every event has its entry in the fault log or is counted as not written: none waits (R569, R571). -/
def Logged (d : Dev) : Prop := d.store.logPend = []

/-- Only a powered domain is usable (R74, R82). -/
def ReadyOn (d : Dev) : Prop := d.power.ready &&& ~~~d.power.on = 0

/-- The worktop, the banks and the larder are in their canonical form. -/
def MemWf (d : Dev) : Prop :=
  Memory.wf zeroByte d.cycle.worktop = true ∧ Memory.wf zeroByte d.store.bankA.bytes = true ∧
    Memory.wf zeroByte d.store.bankB.bytes = true ∧ Memory.wf larderByte d.store.home = true

/-! ## The fault log -/

/-- The device with one event of Table 20.2 written to the fault log at its present milestone stamp (R568, R570). -/
def withEntry (d : Dev) (code subject detail tag aux : Nat) : Dev :=
  { d with store := writeEntry d.logStamp d.store { code, subject, detail, tag, aux } }

/-! ## Rhamet: one instruction of an open window -/

/-- Task `t` has the open window `w`, which still runs; `fr` is its top frame over `rest`; the code words of the next
instruction, with `imm` bytes of immediate, hold no uncorrectable error. -/
def Runs (s : State) (t : Fin 64) (imm : Nat) (w : Window) (fr : Frame) (rest : List Frame) : Prop :=
  s.dev.cycle.tasks[t].window = some w ∧ w.status = .running ∧ w.frames = fr :: rest ∧ s.dev.fetchBad fr imm = []

/-- The state in which nothing but the window of task `t`, and the PEAK it raises, has changed (R181, R183). -/
def withWindow (s : State) (t : Fin 64) (w : Window) : State :=
  let old := s.dev.cycle.tasks[t]
  let peak := if old.peak.toNat < w.units then BitVec.ofNat 24 (min w.units 0xFFFFFF) else old.peak
  { s with dev := { s.dev with cycle := { s.dev.cycle with
      tasks := s.dev.cycle.tasks.set t { old with window := some w, peak := peak } } } }

/-- The window after an instruction of `imm` immediate bytes and `cost` work units that leaves `st` on the stack: the next
instruction is the one behind it. -/
def stepped (w : Window) (fr : Frame) (rest : List Frame) (imm cost : Nat) (st : List Word) : Window :=
  { w with units := w.units + cost, frames := { fr with pc := fr.pc + 1 + imm, stack := st } :: rest }

/-- The window with one arithmetic fault more counted for its commit, where there is one (R173). -/
def countFault (w : Window) (fault : Bool) : Window :=
  { w with staged := { w.staged with arith := w.staged.arith + (if fault then 1 else 0) } }

/-- What a row of two operands says: from `… a b` the result takes the place of both, with its fault counted. -/
def Binary (instr : Fin 64 → Instr) (imm cost : Nat) (f : Word → Word → Word × Bool) : Prop :=
  ∀ (s : State) (t : Fin 64) (w : Window) (fr : Frame) (rest : List Frame) (a b : Word) (st : List Word),
    Runs s t imm w fr rest → fr.stack = b :: a :: st →
    exec (instr t) s = .next (withWindow s t (countFault (stepped w fr rest imm cost ((f a b).1 :: st)) (f a b).2))

/-- What a row of one operand says: from `… a` the result takes its place, with its fault counted. -/
def Unary (instr : Fin 64 → Instr) (cost : Nat) (f : Word → Word × Bool) : Prop :=
  ∀ (s : State) (t : Fin 64) (w : Window) (fr : Frame) (rest : List Frame) (a : Word) (st : List Word),
    Runs s t 0 w fr rest → fr.stack = a :: st →
    exec (instr t) s = .next (withWindow s t (countFault (stepped w fr rest 0 cost ((f a).1 :: st)) (f a).2))

/-- What a row says that pushes one cell. -/
def Pushes (instr : Fin 64 → Instr) (imm cost : Nat) (v : State → Window → Frame → Word) : Prop :=
  ∀ (s : State) (t : Fin 64) (w : Window) (fr : Frame) (rest : List Frame),
    Runs s t imm w fr rest →
    exec (instr t) s = .next (withWindow s t (stepped w fr rest imm cost (v s w fr :: fr.stack)))

/-- What a row says that only rearranges a stack which starts with the cells `have'`: `want` stands in their place. -/
def Rearranges (instr : Fin 64 → Instr) (cost : Nat) (have' want : List Word) : Prop :=
  ∀ (s : State) (t : Fin 64) (w : Window) (fr : Frame) (rest : List Frame) (st : List Word),
    Runs s t 0 w fr rest → fr.stack = have' ++ st →
    exec (instr t) s = .next (withWindow s t (stepped w fr rest 0 cost (want ++ st)))

/-- What a row says that pops one cell and stages an effect with it. -/
def PopsTo (instr : Fin 64 → Instr) (imm cost : Nat) (f : Staged → Word → Staged) : Prop :=
  ∀ (s : State) (t : Fin 64) (w : Window) (fr : Frame) (rest : List Frame) (a : Word) (st : List Word),
    Runs s t imm w fr rest → fr.stack = a :: st →
    exec (instr t) s = .next (withWindow s t { stepped w fr rest imm cost st with staged := f w.staged a })

/-- What a row says that leaves the stack alone and stages an effect. -/
def Stages (instr : Fin 64 → Instr) (imm cost : Nat) (f : Staged → Staged) : Prop :=
  ∀ (s : State) (t : Fin 64) (w : Window) (fr : Frame) (rest : List Frame),
    Runs s t imm w fr rest →
    exec (instr t) s = .next (withWindow s t { stepped w fr rest imm cost fr.stack with staged := f w.staged })

/-! ## Values as Table 6.2 gives them -/

/-- An integer held at the nearest bound of `lo … hi` (saturation). -/
def bounded (lo hi x : Int) : Word := BitVec.ofInt 32 (if x < lo then lo else if hi < x then hi else x)

/-- Saturated to i32 and q16.16. -/
def heldI (x : Int) : Word := bounded (-2147483648) 2147483647 x

/-- Saturated to u32. -/
def heldU (x : Int) : Word := bounded 0 4294967295 x

/-- A truth value on the stack. -/
def truth (p : Prop) [Decidable p] : Word := if p then 1 else 0

/-- A result that never faults. -/
def sure (w : Word) : Word × Bool := (w, false)

/-- A division: a zero divisor gives 0 and a fault. -/
def unlessZero (b : Word) (r : Word × Bool) : Word × Bool := if b = 0 then (0, true) else r

/-- What COND compares (Table 7.6). -/
def condHolds (c : Cond) (x y : Int) : Bool :=
  match c with
  | .eq => decide (x = y)
  | .ne => !decide (x = y)
  | .lt => decide (x < y)
  | .le => decide (x ≤ y)
  | .gt => decide (y < x)
  | .ge => decide (y ≤ x)

/-! ## f32 values -/

/-- A NaN: every exponent bit 1 and a fraction other than 0. -/
def isNaN (a : Word) : Bool := a &&& 0x7F800000#32 == 0x7F800000#32 && a &&& 0x007FFFFF#32 != 0#32

/-- An integer that orders f32 values which are no NaN; both zeros have the same. -/
def orderF (a : Word) : Int := if a.msb then -((a &&& 0x7FFFFFFF#32).toNat : Int) else (a.toNat : Int)

/-- What COND compares of f32 values: with a NaN only NE holds (Table 6.2). -/
def condHoldsF (c : Cond) (a b : Word) : Bool :=
  if isNaN a || isNaN b then c == .ne else condHolds c (orderF a) (orderF b)

/-! ## Control, memory and time of Rhamet -/

/-- Iterations of the loop whose LOOP instruction stands at an offset (R175). -/
def loopCount (fr : Frame) (at' : Nat) : Nat := (mapFind fr.loops at').getD 0

/-- A frame whose control goes forward to an offset: the counts of the loops it leaves start anew. -/
def jumped (fr : Frame) (target : Nat) : Frame :=
  { fr with pc := target, loops := fr.loops.filter (fun l => !(decide (fr.pc ≤ l.1) && decide (l.1 < target))) }

/-- What a load row says: the bytes seen at its address, or 0 with a memory fault counted (R105). -/
def Loads (instr : Fin 64 → Instr) (imm n : Nat) (ext : Nat → Word) : Prop :=
  ∀ (s : State) (t : Fin 64) (w : Window) (fr : Frame) (rest : List Frame) (a : Word) (st : List Word),
    Runs s t imm w fr rest → fr.stack = a :: st →
    exec (instr t) s = .next (withWindow s t
      (match s.dev.winAddr (s.dev.potOf t) a.toNat n with
       | some x => stepped w fr rest imm 4 (ext (w.loadLE x n) :: st)
       | none => { stepped w fr rest imm 4 (0 :: st) with
           staged := { w.staged with memFault := w.staged.memFault + 1 } }))

/-- What a store row says: the value staged at its address, or a memory fault counted (R105). -/
def Stores (instr : Fin 64 → Instr) (n : Nat) : Prop :=
  ∀ (s : State) (t : Fin 64) (w : Window) (fr : Frame) (rest : List Frame) (v a : Word) (st : List Word),
    Runs s t 0 w fr rest → fr.stack = v :: a :: st →
    exec (instr t) s = .next (withWindow s t
      (match s.dev.winAddr (s.dev.potOf t) a.toNat n with
       | some x => { stepped w fr rest 0 3 st with staged := (w.storeLE x n v).staged }
       | none => { stepped w fr rest 0 3 st with
           staged := { w.staged with memFault := w.staged.memFault + 1 } }))

/-- What a constant load row says: the bytes of the pot's block, or 0 with a constant fault counted (R180); where a pantry word
of them holds an uncorrectable error the release runs on no more (R227; DEDUCED, log 63). -/
def ConstLoads (instr : Fin 64 → Instr) (imm n : Nat) : Prop :=
  ∀ (s : State) (t : Fin 64) (w : Window) (fr : Frame) (rest : List Frame) (o : Word) (st : List Word),
    Runs s t imm w fr rest → fr.stack = o :: st →
    (s.dev.constBad t n ≠ [] →
      Completes (instr t) s (fun d => d.cycle.tasks[t].window = some { w with status := .stuck })) ∧
    (s.dev.constBad t n = [] → exec (instr t) s = .next (withWindow s t
      (if o.toNat % n = 0 ∧ o.toNat + n ≤ (s.dev.constBlock (s.dev.potOf t)).length then
        stepped w fr rest imm 3
          (BitVec.ofNat 32 (leNat (((s.dev.constBlock (s.dev.potOf t)).drop o.toNat).take n)) :: st)
       else { stepped w fr rest imm 3 (0 :: st) with
           staged := { w.staged with constF := w.staged.constF + 1 } })))

/-- What the selectors of TIME push (Table 7.10). -/
def latchedTime (l : Latch) (sel : TimeSel) : Word :=
  match sel with
  | .msLo => l.count.setWidth 32
  | .msHi => (l.count >>> 32).setWidth 32
  | .wm => BitVec.ofNat 32 l.wm
  | .siLo => l.si.setWidth 32
  | .siHi => (l.si >>> 32).setWidth 32
  | .netMsLo => l.netMs.setWidth 32
  | .netMsHi => (l.netMs >>> 32).setWidth 32
  | .netSiLo => l.netSi.setWidth 32
  | .netSiHi => (l.netSi >>> 32).setWidth 32
  | .cycle => BitVec.ofNat 32 l.cyc
  | .die => BitVec.ofInt 32 l.die
  | .netValid => if l.netValid then 1 else 0

/-- The latched time of a timer's base (R214). -/
def latchedBase (l : Latch) (ms : Bool) : Nat := if ms then l.count.toNat else l.si.toNat

/-! ## What a reset leaves -/

/-- What a power-on reset leaves (R254, R265): start-up step 2, or held before it while RESET_N is low, with nothing kept but what
is held without power. The die temperature `die`, in 0.01 °C, is read at once (R31, R50). -/
def AtPowerOn (die : Int) (held : Bool) (d : Dev) : Prop :=
  d.time = { TimeState.reset with
    dieTemp := die, dieShown := divRoundEven die 100, rate := 34 * (die - 2500) * (die - 2500) / 10000 } ∧
  d.power = PowerState.reset ∧ d.line = LineState.reset ∧ d.bus = BusState.reset ∧
  d.cycle.worktop = [] ∧ d.image = noImage ∧ d.sys.rstKind = .powerOn ∧ d.sys.rstCount = 0 ∧ d.sys.mode = .tollgate ∧
  d.sys.boot = (if held then .held else .wait) ∧ d.sys.progress = (if held then 1 else 2) ∧ d.seat.holder = .free ∧
  d.seat.priv = false

/-- What a warm or cold reset leaves at the milestone boundary that it replaces (R255 to R257): that boundary is 0:0. -/
def AfterReset (old d : Dev) (source : BitVec 4) (kind : ResetKind) : Prop :=
  d.time.count = 0 ∧ d.time.wm = 0 ∧ d.time.msStart = old.time.msStart + old.time.msLen ∧
  d.time.cntLoss = (if kind = .warm then old.time.cntLoss else 0) ∧
  d.cycle.ovrCount = (if kind = .warm then old.cycle.ovrCount else 0) ∧ d.sys.rstSource = source ∧ d.sys.rstKind = kind ∧
  d.sys.rstCount = satInc old.sys.rstCount ∧ d.sys.pendResets = [] ∧ d.sys.mode = .tollgate ∧ d.image = noImage ∧
  d.seat.holder = .free ∧ d.seat.priv = false ∧ d.power.on = 0x00C7

/-! ## Start-up -/

/-- Factory values of Table 9.9 and of the Line and bus parameters (R345, R397, R434). -/
def factory (g : Nat) : List Byte :=
  if g = 0x81 then [34, 0, 0xC4, 9, 0, 0, 0, 0] else if g = 0x86 then [0, 0x07, 0x40, 0, 0, 0, 0, 0] else [0, 0, 0, 0, 0, 0, 0, 0]

/-- A parameter group as step 6 loads it: what it holds, or its factory value where it is lost or its check fails (R270). -/
def loadedGroup (s : StoreState) (g : Nat) : Nat :=
  leNat (if s.sound g && s.paramOk g 0 false then s.group g else factory g)

/-- The device after step 6 has read its larder groups, of which `finds` are not clean (R241, R579). -/
def paramsRead (d : Dev) (finds : List (Nat × EccFind)) : Dev :=
  let read := finds.filter (fun f => 0x80 ≤ f.1 && f.1 < 0xE00)
  (if d.wearDue then d.loadWear read else d).larderReads read

/-- The device after an acceptance has read the larder groups that it needs (R241, R268). -/
def acceptRead (d : Dev) (e : AcceptEnv) : Dev :=
  d.larderReads (e.finds.filter (fun f => (4 ≤ f.1 && f.1 < 8) || (0x80 ≤ f.1 && f.1 < 0x90)))

/-! ## Answers to commands of the control cycle -/

/-- What a mode command leaves in SYS (Table 5.6): RESULT, and the command where it is accepted. -/
def modeAnswer (s : SysState) (c : ModeCmd) (ok : Bool) : SysState :=
  if ok then { s with modeResult := 1, modePend := some c } else { s with modeResult := 2 }

/-- What a pot command leaves in the control cycle (R160, R161). -/
def potAnswer (d : Dev) (p : Fin 16) (a : PotAction) (host : Bool) : CycleState :=
  if p = 0 ∨ d.image.declared p.val = false then { d.cycle with potResult := 2 }
  else if d.sys.mode ≠ .run then { d.cycle with potResult := 3 }
  else if host = false ∧ (d.cycle.pots[p]).pend.isSome ∧ (d.cycle.pots[p]).pendByHost then { d.cycle with potResult := 1 }
  else { d.cycle with
    potResult := 1
    pots := d.cycle.pots.set p { d.cycle.pots[p] with pend := some a, pendByHost := host, pendHost := host } }

/-- Physical lane `k` is retired with its cause, its failure counted and its retirement recorded (R87, R90). -/
def LaneRetired (old d : Dev) (k : Fin 48) (cause : BitVec 4) : Prop :=
  d.lane.phys[k] = { retired := true, cause := cause, fails := satInc (old.lane.phys[k]).fails } ∧
  d.sys.recorded = BitVec.ofNat 32 (old.sys.recorded.toNat + 1)

/-- Physical lane `k` works on, its failure counted; logical lane `i` waits for its exchange (R88, R89). -/
def LaneWaits (old d : Dev) (k : Fin 48) (i cause : Nat) : Prop :=
  d.lane.phys[k] = { old.lane.phys[k] with fails := satInc (old.lane.phys[k]).fails } ∧
  d.lane.failing = old.lane.failing ++ [(i, cause)]

/-! ## Answers of the store -/

/-- What a STORE command that is refused or ends leaves: its OP and RESULT, and BUS.ATTN.STORE. -/
def storeAnswer (d : Dev) (op code : BitVec 4) : Dev :=
  { d with store := { d.store with op := op, result := code }, seat := { d.seat with attn := d.seat.attn ||| 2 } }

/-- What a STORE command that ends with OK leaves: nothing is in progress. -/
def storeDone (d : Dev) (op : BitVec 4) : Dev := storeAnswer { d with store := { d.store with busy := none } } op 1

/-- What a STORE command leaves that ends with OK at its commit point (R232). -/
def commitPoint (d : Dev) (op : BitVec 4) : Dev :=
  storeDone { d with store := { d.store with committedAt := some (d.ms, d.time.wm, op.toNat) } } op

/-! ## Slice scripts, captures and readings -/

/-- The device with one slot of the slice scripts replaced. -/
def withSlot (d : Dev) (n : Fin 16) (x : Slot) : Dev :=
  { d with mando := { d.mando with slots := d.mando.slots.set n x } }

/-- Slot `n` stands in its run `r` at the step `st` of its script `sc`, which has not ended. -/
def AtStep (d : Dev) (n : Fin 16) (r : ScriptRun) (sc : Script) (st : ScriptStep) : Prop :=
  (d.mando.slots[n]).run = some r ∧ r.ended = none ∧ d.image.script n.val = some sc ∧ sc.steps[r.step]? = some st

/-- A run at its next step; past the last step it ends at the instant of its last sample, marker or trigger (R309). -/
def nextStep (sc : Script) (r : ScriptRun) : ScriptRun :=
  { r with step := r.step + 1, ended := if sc.steps.length ≤ r.step + 1 then some r.last else none }

/-- A ring entry of a slot on its way, at a tick (R311). -/
def entryAt (d : Dev) (n : Fin 16) (t : Tick) (w : Word) : RingEntry :=
  { wmAbs := d.waymarkOf t.ms (d.tickAt (n.val / 4) t), instant := d.tickAt (n.val / 4) t, word := w }

/-- The ring word of one sample: clamped to 16 bits, with its step, GAP, CLIP and run number (R311, R312). -/
def sampleWord (r : ScriptRun) (v : SampleVal) : Word :=
  ringWord (clampSample v.value) r.step v.gap (decide ((clampSample v.value : Int) ≠ v.value)) false r.number

/-- A run whose cursor stands behind a tick at which it has just converted. -/
def behind (d : Dev) (n : Fin 16) (r : ScriptRun) (t : Tick) : ScriptRun :=
  { r with cursor := d.tickNorm (n.val / 4) { t with j := t.j + 1 }, last := d.tickAt (n.val / 4) t }

/-- Every task that names a stream has one entry more for it, which a latch takes if it lies in its interval; the others are as before
(R131 to R133). -/
def Captured (old d : Dev) (stream stamp : Nat) (rise : Bool) : Prop :=
  ∀ t : Fin 64,
    if (old.image.taskNames t).streams.contains stream = true then
      mapFind (d.cycle.tasks[t]).caps stream =
        some ((mapFind (old.cycle.tasks[t]).caps stream).getD [] ++ [{ si := stamp, rise := rise }])
    else (d.cycle.tasks[t]).caps = (old.cycle.tasks[t]).caps

/-- The active slices of a converter stand at positions of their own, one at each (R285). -/
def Placed (c : Converter) : Prop :=
  (∀ p < c.w, (c.atPos p).isSome = true) ∧
    ∀ k : Fin 9, (c.slices[k]).duty = .active → (c.slices[k]).pos < c.w ∧ c.atPos (c.slices[k]).pos = some k.val

/-- A calibration attempt whose coefficients are accepted (Table 10.5). -/
def Accepted (r : CalResult) : Prop :=
  r.offset.natAbs ≤ 6400 ∧ r.gain.natAbs ≤ 10000 ∧ r.skew.natAbs ≤ 50 ∧ r.spread ≤ 150

/-- The levels of a crossing, in 1/1,024 µV, at which it asserts and behind which it deasserts (R300, Table 10.7). -/
def AssertsAt (x : Crossing) (level : Nat) : Prop :=
  if x.pol = true then level * 1024 < x.thr.toNat * 2500000 else x.thr.toNat * 2500000 < level * 1024

/-- See `AssertsAt`. -/
def DeassertsAt (x : Crossing) (level : Nat) : Prop :=
  let hys := [0, 10000, 20000, 40000].getD x.hys.toNat 0 * 1024
  if x.pol = true then x.thr.toNat * 2500000 + hys < level * 1024 else level * 1024 + hys < x.thr.toNat * 2500000

/-- The reading of a sequence by its number: SREF, TEMP, DAYLIGHT, GAS, PRESENCE (R321). -/
def readingOf (r : SenseReads) (k : Nat) : Nat :=
  if k = 0 then r.sref else if k ≤ 4 then r.temp.getD (k - 1) 0 else if k = 5 then r.daylight
  else if k ≤ 7 then r.gas.getD (k - 6) 0 else r.presence

/-! ## The Hefen Line -/

/-- A frame that the Line may send: it would last no more than 1.000 s (R378). -/
def Fits (d : Dev) (q : QFrame) : Prop :=
  frameNs (d.line.sendMode q).1 (d.line.sendMode q).2.codes d.classB q.len d.time.msLen ≤ 1000000000

/-- The Line's queue with a frame queued behind it at the present instant, under the mode and the tone map of that instant (R390). -/
def queued (d : Dev) (q : QFrame) : List QFrame :=
  d.line.queue ++ [{ q with mode := (d.line.sendMode q).1, map := (d.line.sendMode q).2, at' := d.time.now }]

/-- A unicast frame that this node originates to a neighbour with its next end-to-end number. -/
def toNeighbour (d : Dev) (ftype place : Nat) (mode : LineMode) (n : Nat) (body : List Byte) : QFrame :=
  { QFrame.base ftype place mode body with ldst := n, osrc := d.addr, fdst := n, eseq := (d.line.eseq + 1).toNat }

/-- The tone map of a MAP_OFFER body: its TMID and two bits a carrier (Table 13.6). -/
def offeredMap (body : List Byte) : ToneMap :=
  { tmid := byteAt body 0, codes := (upTo 40).map (fun c => leNat (body.drop 1) / 4 ^ c % 4) }

/-! ## The host seat -/

/-- A request frame that the seat looks at: PD1 carries the port, the CRC holds and start-up is over (R271, R418). -/
def Heeded (d : Dev) (r : SeatReq) : Prop := d.pd 1 = true ∧ r.crcOk = true ∧ d.sys.boot = .done

/-- The next request of the local host that holds the seat (R412, R418). -/
def NextOfHolder (d : Dev) (r : SeatReq) : Prop :=
  Heeded d r ∧ d.seat.holder = .spi ∧ d.seat.estr = false ∧ r.seq = d.seat.e

/-- The response frame that answers a request (Table 14.2). -/
def answerTo (r : SeatReq) (status : Nat) (payload : List Byte) : Response := { status, seq := r.seq, payload }

/-- What the next request of the holder leaves beside its effect `d`: the expected number one higher, the response kept to be
sent again (R418). -/
def answered (d : Dev) (cmd : Nat) (r : SeatReq) (status : Nat) (payload : List Byte) : Dev :=
  { d with seat := { d.seat with
      e := d.seat.e + 1, stored := some { crc := r.crc cmd, resp := answerTo r status payload }
      last := some (answerTo r status payload) } }

/-- A request that reads larder groups answers with the seat of `d`, whose attention bits may rise with what the check bytes show
(R241); where they show nothing the whole device is `d`. -/
def AnswersWith (i : Instr) (env : SeatEnv) (s : State) (d : Dev) : Prop :=
  Completes i s (fun e => e.seat = { d.seat with attn := e.seat.attn } ∧ ((∀ f ∈ env.finds, f = .clean) → e = d))

/-- The host key as its four groups are read (R241, R426). -/
def keyAsRead (d : Dev) (env : SeatEnv) : List Byte :=
  (upTo 4).flatMap (d.larderReads ((upTo 4).map (fun i => (i, env.finds.getD i .clean)))).store.group

/-- What the next request of the holder finds: its frame heard (R413), and the nonce no longer valid (R427). -/
def heardDev (d : Dev) : Dev := { d with seat := { d.seat with heard := d.ms, nonce := none } }

/-- A tunnel command that is heeded: the channel it names (R431). -/
def TunnelCommand (d : Dev) (r : SeatReq) (ch : Fin 8) : Prop :=
  Heeded d r ∧ d.tunReady = true ∧ r.addr.toNat / 2 ^ 16 % 2 ^ 4 = ch.val

/-- The device with one tunnel channel and the last answer of the tunnel port replaced. -/
def withTunnel (d : Dev) (ch : Fin 8) (t : Option Tunnel) (a : Response) : Dev :=
  { d with seat := { d.seat with tuns := d.seat.tuns.set ch t, last := some a } }

/-! ## The building bus -/

/-- The device with one message of the bus service more that waits for the token. -/
def saying (d : Dev) (mac : Nat) (m : BacMsg) : Dev :=
  { d with bus := { d.bus with replies := d.bus.replies ++ [(mac, m)] } }

/-- A received data frame as its slot shows it (Table 18.12). -/
def receivedSlot (b : BusState) (ftype : BitVec 8) (src : BitVec 8) (data : List Byte) : BusSlot :=
  { len := BitVec.ofNat 9 data.length, seq := b.rxSeq, full := true, ftype := ftype, peer := src
    data := Mem.writeBytes zeroByte [] 0 data }

/-! ## Motor units, actuators and the face -/

/-- The device with one motor unit replaced. -/
def withUnit (d : Dev) (u : Fin 2) (w : Whisk) : Dev := { d with whisk := d.whisk.set u w }

/-- A motor unit that has tripped: every gate low, the first source latched and counted, the estimator at standstill
(R470, Table 15.7). -/
def tripped (w : Whisk) (cause : BitVec 4) : Whisk :=
  { w with run := .tripped, latched := true, cause := cause, cx := 0, trips := satInc w.trips, vector := 0, overRun := 0
           vdcRun := 0, est := .standstill, rotation := 0, speed := 0, lowRun := 0 }

/-- The device with the operations of the face replaced. -/
def withOps (d : Dev) (ops : List FaceOp) : Dev := { d with face := { d.face with ops := ops } }

/-- The one operation of the face is in flight on region `r` at a step of stencil `k`, whose bytes are `b`; its operation number
is `op`, its run is `x`, and its region is `g` (R522, R523). -/
def AtStencil (d : Dev) (r : Fin 16) (o : FaceOp) (k : Nat) (b : List Byte) (x : StencilRun) (g : FaceRegion) (op : Byte) :
    Prop :=
  d.face.ops = [o] ∧ o.region = r.val ∧ o.left.isSome = true ∧ o.work = .stencil k ∧ b = d.image.stencil k ∧
  o.run = some x ∧ d.image.faceRegion r.val = some g ∧ x.step < (b.getD 1 0).toNat ∧ b.getD (8 + 8 * x.step) 0 = op

/-- An operation whose run has taken one step and drawn pixels, of which those in its region count (R523). -/
def drew (o : FaceOp) (x : StencilRun) (g : FaceRegion) (ps : List (Nat × Nat)) : FaceOp :=
  { o with run := some { x with step := x.step + 1 }, pixels := o.pixels ++ ps.filter (fun p => g.holds p.1) }

end Sys2Proof.Safety
end

