-- ==== Sys2Proof/Certificates/Slice0/Obligations.lean ====
section
/-! DEFINITION. The statements about the machine that are to be proved. -/

open Sys2Proof Sys2Proof.Machine Sys2Proof.Safety

/-! ## The machine as a whole -/

/-- A step runs the command at the front of the queue on the state with the queue's rest. -/
def Obligations.StepRunsTheFront : Prop :=
  ∀ (c : Instr) (s : State), step { s with pending := c :: s.pending } = exec c s

/-- With nothing waiting the block idles. The model's choice: the spec gives no row for a tick (log 1). -/
def Obligations.EmptyQueueIdles : Prop :=
  ∀ s : State, s.pending = [] → step s = .next s

/-- Every command completes, on every state and with every operand, and leaves the rest of the queue as it was: the
spec answers each access that goes wrong with a status, a count, a 0 or nothing. -/
def Obligations.EveryCommandCompletes : Prop :=
  ∀ (c : Instr) (s : State), Completes c s (fun _ => True)

/-- R569 to R571: every step leaves each event written to the fault log or counted as not written. -/
def Obligations.EventsNeverWait : Prop :=
  ∀ s s' : State, Logged s.dev → step s = .next s' → Logged s'.dev

/-- R74, R82: every step leaves only powered domains usable. -/
def Obligations.UsableDomainsStayPowered : Prop :=
  ∀ s s' : State, ReadyOn s.dev → step s = .next s' → ReadyOn s'.dev

/-- Every step keeps the worktop, both pantry banks and the larder in their canonical form, so that equal memories are
equal data. -/
def Obligations.MemoriesStayCanonical : Prop :=
  ∀ s s' : State, MemWf s.dev → step s = .next s' → MemWf s'.dev

/-- The three invariants hold right after a power-on reset. -/
def Obligations.InvariantsAtReset : Prop :=
  Logged State.reset.dev ∧ ReadyOn State.reset.dev ∧ MemWf State.reset.dev

/-- What a power-on reset leaves, by the reset values that the register tables give: TOLLGATE with CAUSE NONE and
start-up at step 2 (Tables 9.6 and 9.8), RSTCAUSE 1 with COUNT 0 (Table 9.4), the domains of Table 3.8, the lock FREE
from the time base (Table 2.3), TIME.XCOMP_A (Table 2.4), the force table, the worktop and every counter 0, the seat
free. -/
def Obligations.ResetValues : Prop :=
  let d := State.reset.dev
  State.reset.pending = [] ∧ d.sys.mode = .tollgate ∧ d.sys.tollCause = 0 ∧ d.sys.progress = 2 ∧ d.sys.aCause = 0xFF ∧
  d.sys.bCause = 0xFF ∧ d.sys.rstSource = 1 ∧ d.sys.rstCount = 0 ∧ d.power.on = 0x00C7 ∧ d.power.req = 0x00C7 ∧
  d.time.lock = .free ∧ d.time.source = .timeBase ∧ d.time.compK = 34 ∧ d.time.compT0 = 2500 ∧ d.time.count = 0 ∧
  d.cycle.force = Vector.replicate 256 ForceEntry.reset ∧ d.cycle.worktop = [] ∧ d.seat.holder = .free ∧
  d.seat.priv = false ∧ d.seat.attn = 0 ∧ d.line.cfg = 0x00400700

/-- The canonical form and the bytes of a memory: a write of bytes keeps the form, puts each byte at its address and
leaves every other address as it was. -/
def Obligations.WrittenBytesRead : Prop :=
  ∀ (u : Nat → Byte) (m : Mem) (a x : Nat) (bs : List Byte), Memory.wf u m = true →
    Memory.wf u (Mem.writeBytes u m a bs) = true ∧
    Mem.read u (Mem.writeBytes u m a bs) x = if a ≤ x ∧ x < a + bs.length then bs.getD (x - a) 0 else Mem.read u m x

/-! ## Start-up and reset -/

/-- R254, R255, R259, R265: POWER_ON and BROWN_OUT leave the device at start-up step 2 with RSTCAUSE SOURCE 1 and 2
and COUNT 0, or held before it while RESET_N is low, the worktop, the time base, the domains, the Line and the bus at
their reset values and the seat free; the die temperature is read at once. RESET_N held low, and the writes of SYS.RESET, only order a reset that waits for the next milestone boundary; RESET_N
back high lets a held start-up begin there. -/
def Obligations.ResetsOrderedAndMade : Prop :=
  (∀ (e : ResetEnv) (s : State),
    Completes (.powerOn e) s (fun d => AtPowerOn e.die s.dev.sys.resetHeld d ∧ d.sys.rstSource = 1) ∧
    Completes (.brownOut e) s (fun d => AtPowerOn e.die s.dev.sys.resetHeld d ∧ d.sys.rstSource = 2)) ∧
  (∀ s : State, Logged s.dev →
    Becomes .resetWarm s { s.dev with sys := { s.dev.sys with
      pendResets := s.dev.sys.pendResets ++ [{ source := 4, kind := .warm, faultPd := 0 }] } } ∧
    Becomes .resetCold s { s.dev with sys := { s.dev.sys with
      pendResets := s.dev.sys.pendResets ++ [{ source := 5, kind := .cold, faultPd := 0 }] } } ∧
    (s.dev.sys.resetHeld = false → Becomes .resetN s { s.dev with sys := { s.dev.sys with
      resetHeld := true, pendResets := s.dev.sys.pendResets ++ [{ source := 3, kind := .cold, faultPd := 0 }] } }) ∧
    Becomes .resetNRelease s { s.dev with sys := { s.dev.sys with
      resetHeld := false, zeroNext := s.dev.sys.zeroNext || (s.dev.sys.resetHeld && s.dev.sys.boot == .held) } })

/-- R255 to R257 and R284: at the end of a milestone the one reset that is pending takes the place of the milestone
boundary, which becomes 0:0; RSTCAUSE tells of it, COUNT rises, the mode is TOLLGATE, no image is accepted, the seat is free, the
domains of Table 9.6 are on, and the time counters last only a warm reset. TOLL_AUTO_RESET is such a reset of source
7, which AUTO counts (R282). -/
def Obligations.PendingResetTakesEffect : Prop :=
  ∀ (e : ResetEnv) (s : State), s.dev.time.wm = 255 →
    (∀ r, s.dev.sys.pendResets = [r] → r.kind ≠ .powerOn →
      Completes (.resetApply e) s (fun d => AfterReset s.dev d (BitVec.ofNat 4 r.source) r.kind)) ∧
    (∀ h, s.dev.sys.pendResets = [] → s.dev.sys.hobMs = some h → s.dev.sys.mode = .tollgate → s.dev.sys.tollCause = 9 →
      s.dev.bootParam 2 2 ≠ 0 → s.dev.sys.tollAuto.toNat < 3 → h + s.dev.bootParam 2 2 ≤ s.dev.ms + 1 →
      Completes (.tollAutoReset e) s (fun d =>
        AfterReset s.dev d 7 .warm ∧ d.sys.tollAuto = s.dev.sys.tollAuto + 1))

/-- R80 to R82 and Table 3.7: a fault of PD3, PD4, PD5 or PD8 to PD15 removes its power at once, with REQ cleared, FAULT
set and counted, VNOW 0 and VLOW at or below a voltage more than 50 mV under the floor; a fault of PD0, PD1, PD2, PD6 or PD7 is a reset of source 6 that names the domain. -/
def Obligations.DomainFaults : Prop :=
  ∀ (n : Fin 16) (e : ResetEnv) (s : State), s.dev.power.on.getLsbD n = true →
    (n.val ∉ [0, 1, 2, 6, 7] →
      Completes (.domainFault n e) s (fun d => ∃ x : BitVec 11, x.toNat + 50 < vFloor n.val ∧ d.power = { s.dev.power with
        on := s.dev.power.on &&& ~~~(1#16 <<< n.val), ready := s.dev.power.ready &&& ~~~(1#16 <<< n.val)
        req := s.dev.power.req &&& ~~~(1#16 <<< n.val), fault := s.dev.power.fault ||| (1#16 <<< n.val)
        faults := satInc s.dev.power.faults, vnow := s.dev.power.vnow.set n 0
        vlow := s.dev.power.vlow.set n (if x.toNat < (s.dev.power.vlow[n]).toNat then x else s.dev.power.vlow[n]) })) ∧
    (n.val ∈ [0, 1, 2, 6, 7] →
      Completes (.domainFault n e) s (fun d => d.sys.rstSource = 6 ∧ d.sys.rstPd = BitVec.ofNat 4 n.val ∧
        d.sys.rstKind = (if n.val = 0 then .powerOn else if n.val = 6 then .cold else .warm)))

/-- R262, R263, R555: the first strap instant after a reset latches TSTRAP, PROV_EN and HOSTSEL, which is REMOTE where
the pin reads high both times, EITHER where it follows the pull, and LOCAL otherwise. -/
def Obligations.StrapsLatched : Prop :=
  ∀ (t : BitVec 3) (prov up down : Bool) (s : State), Logged s.dev → s.dev.sys.strapped = false →
    s.dev.sys.boot ≠ .held → s.dev.sys.zeroNext = false →
    Becomes (.strapLatch t prov up down) s { s.dev with sys := { s.dev.sys with
      strapped := true, tstrap := t, provEn := prov
      hostSel := match up, down with | true, true => 2 | true, false => 3 | false, _ => 1 } }

/-- R249, R265, R270: whatever the larder's cells show, PARAMETER_LOAD completes in start-up step 6: it takes TIME.ZC, the
crystal compensation, LINE.PHY_CFG, the network parameters and the bus parameters from their larder groups, an invalid or
lost group at its factory value, the network key, LSEQ 65,536 above its checkpoint (held at 0xFFFF_0000: log 171) and the
counts of retirements recorded and acknowledged, and goes on to the journal. JOURNAL_RECOVERY completes in step 7 and goes
on to the image, with the worktop cleared after a cold reset; of a journal with no transaction it counts nothing and the
home groups stay; a transaction with its mark and a record that holds is copied home and counted in REDONE; one without a
mark is counted in ROLLED, its home groups as they were; one whose record does not hold is counted in ROLLED and CRC_LOST,
its home groups as they were before it, and voids the guarantee of its region's pot. -/
def Obligations.ParametersAndJournal : Prop :=
  ∀ (c : CellEnv) (s : State),
    (s.dev.sys.boot = .larder → Completes (.parameterLoad c) s (fun d =>
      let x := (paramsRead s.dev c.finds).store
      let zc := loadedGroup x 0x80
      let xc := loadedGroup x 0x81
      let net := loadedGroup x 0x87
      let bus := loadedGroup x 0x8B
      d.sys.boot = .journal ∧
      d.time.zcOffset = BitVec.ofNat 15 zc ∧ d.time.zcPhase = BitVec.ofNat 2 (zc / 2 ^ 16) ∧
      d.time.zcMode = BitVec.ofNat 2 (zc / 2 ^ 18) ∧ d.time.compK = BitVec.ofNat 16 xc ∧
      d.time.compT0 = BitVec.ofNat 16 (xc / 2 ^ 16) ∧ d.time.compD = BitVec.ofNat 32 (xc / 2 ^ 32) ∧
      d.line.cfg = BitVec.ofNat 32 (loadedGroup x 0x86) ∧ d.line.params.netId = BitVec.ofNat 16 net ∧
      d.line.params.addr = BitVec.ofNat 12 (net / 2 ^ 16) ∧ d.line.params.cvStart = BitVec.ofNat 3 (net / 2 ^ 32) ∧
      d.line.params.cvSlot = BitVec.ofNat 3 (net / 2 ^ 36) ∧ d.line.params.cvLead = BitVec.ofNat 2 (net / 2 ^ 40) ∧
      d.line.params.relay = net.testBit 42 ∧ d.line.params.tmRefresh = BitVec.ofNat 8 (net / 2 ^ 48) ∧
      d.line.key = x.group 0x88 ++ x.group 0x89 ∧
      d.line.lseq = BitVec.ofNat 32 (min 0xFFFF0000 (leNat ((x.group 0x8A).take 4) + 65536)) ∧
      d.bus.mac = BitVec.ofNat 7 bus ∧ d.bus.baud = BitVec.ofNat 3 (bus / 2 ^ 8) ∧
      d.bus.maxMaster = BitVec.ofNat 7 (bus / 2 ^ 16) ∧ d.bus.maxInfo = BitVec.ofNat 4 (bus / 2 ^ 24) ∧
      d.bus.devInst = BitVec.ofNat 22 (bus / 2 ^ 32) ∧ d.bus.busEn = bus.testBit 63 ∧
      d.sys.recorded = BitVec.ofNat 32 (leNat ((x.group 0x100).take 4)) ∧
      d.sys.acked = BitVec.ofNat 32 (leNat (((x.group 0x100).drop 4).take 4)))) ∧
    (s.dev.sys.boot = .journal → Completes (.journalRecovery c) s (fun d =>
      d.sys.boot = .select ∧ d.sys.progress = 3 ∧
      (if s.dev.sys.lastKind = .cold then d.cycle.worktop = [] else d.cycle.worktop = s.dev.cycle.worktop) ∧
      (c.finds = [] →
        (s.dev.store.queue = [] →
          d.store.redone = 0 ∧ d.store.rolled = 0 ∧ d.store.crcLost = 0 ∧ d.store.home = s.dev.store.home) ∧
        (∀ t, c.worn = [] → s.dev.store.queue = [.txn t] → t.done < t.writes →
          let n := recordLength t.groups.length
          let holds := ({ s.dev.store with queue := [] } : StoreState).recordHolds t
          (t.marked = false → d.store.redone = 0 ∧ d.store.rolled = 1 ∧ d.store.crcLost = 0 ∧
            d.store.home = s.dev.store.home) ∧
          (t.marked = true → holds = true →
            d.store.redone = 1 ∧ d.store.rolled = 0 ∧ d.store.crcLost = 0 ∧
            d.store.home = (t.groups.drop (t.done - n - 1)).foldl
              (fun m p => Mem.writeBytes larderByte m (8 * p.1) p.2) s.dev.store.home) ∧
          (t.marked = true → holds = false →
            d.store.redone = 0 ∧ d.store.rolled = 1 ∧ d.store.crcLost = 1 ∧
            d.store.home = t.old.foldl (fun m p => Mem.writeBytes larderByte m (8 * p.1) p.2) s.dev.store.home ∧
            (∀ p : Fin 16, t.owner = p.val → d.void.getLsbD p = true))))))

/-- R197, R268, R269, R279: whatever the cells show, IMAGE_ACCEPTANCE tries the bank that comes first; an image that passes
is taken for step 10 and its bank becomes ACTIVE; where it fails the other bank waits for the second attempt, if it can be
tried and BOOT_FALLBACK is 1, or else the cause stands; a second attempt that passes counts as a fallback, and one that
fails leaves its cause. With no bank at all the outcome is NO_IMAGE, or HALF_WRITTEN where one is WRITING, found at step 1
(DEDUCED, log 104). RETRY runs this again from a start-up tollgate. -/
def Obligations.AcceptanceAndRetry : Prop :=
  ∀ (e : AcceptEnv) (s : State),
    let refused := fun (c : Nat) (d : Dev) => d.sys.boot = .boundary ∧ d.sys.outcome = some { image := none, cause := c } ∧
      d.store.bankA.mode ≠ .active ∧ d.store.bankB.mode ≠ .active
    let taken := fun (b : Bool) (m : Image) (second : Bool) (d : Dev) => d.sys.boot = .boundary ∧ d.sys.fallback = second ∧
      d.sys.outcome = some { image := some m, cause := 0 } ∧ (d.store.bank b).mode = .active ∧ d.store.record = some b
    (∀ x, s.dev.sys.boot = .select →
      x = acceptRead { s.dev with store := { s.dev.store with recordBad := s.dev.store.recordBad || e.recordBad } } e →
      (∀ b, x.store.firstBank = some b → Completes (.imageAcceptance e) s (fun d =>
        match (x.attempt b true).2 with
        | (some m, _) => taken b m false d
        | (none, c) => if x.store.usable (!b) = true ∧ leNat (x.store.param 0x85) % 256 = 1 then d.sys.boot = .second (!b)
                       else refused c d)) ∧
      (x.store.firstBank = none → Completes (.imageAcceptance e) s (fun d => d.sys.vfyStep = 1 ∧
        refused (if s.dev.store.bankA.mode = .writing ∨ s.dev.store.bankB.mode = .writing then 2 else 1) d))) ∧
    (∀ b x, s.dev.sys.boot = .second b → x = acceptRead s.dev e → Completes (.imageAcceptance e) s (fun d =>
      match (x.attempt b true).2 with
      | (some m, _) => taken b m true d
      | (none, c) => refused c d)) ∧
    (Logged s.dev → s.dev.sys.mode = .tollgate → s.dev.sys.boot = .done → s.dev.sys.tollCause ≠ 9 →
      Becomes .retry s { s.dev with sys := { s.dev.sys with
        boot := .select, progress := 3, aCause := 0xFF, bCause := 0xFF } })

/-- R35, R71, R272, R282: a host's write of SYS.PD_REQ takes its low 16 bits, a Hob's too unless a host's was applied
at the same boundary; GUAR_ACK.RETIRE makes ACKED equal to RECORDED, so that RETIRE_PEND clears; a host read of
SYS.BOOT clears ATTN.BOOT alone; 65,536 milestones in RUN return AUTO to 0. -/
def Obligations.AcknowledgementsAndRequests : Prop :=
  (∀ s : State, Logged s.dev →
    (∀ v : Word, Becomes (.pdReqWrite v true) s { s.dev with power := { s.dev.power with
        req := v.setWidth 16, hostWrote := true } } ∧
      (s.dev.power.hostWrote = false →
        Becomes (.pdReqWrite v false) s { s.dev with power := { s.dev.power with req := v.setWidth 16 } })) ∧
    (s.dev.sys.acked < s.dev.sys.recorded →
      Completes .guarAckRetire s (fun d => d.sys.acked = s.dev.sys.recorded ∧ d.retirePend = false))) ∧
  (∀ s : State, Logged s.dev →
    Becomes .bootRead s { s.dev with seat := { s.dev.seat with attnBoot := false } } ∧
    (s.dev.sys.mode = .run → s.dev.sys.runMs + 65536 ≤ s.dev.ms →
      Becomes .tollAutoClear s { s.dev with sys := { s.dev.sys with tollAuto := 0 } }))

/-! ## Time -/

/-- R38, R42, R58: an accepted crossing is stamped, to 1/65,536 of a waymark, with the period that it ends; a source that has missed its crossing
leaves the lock in HOLDOVER, and 250 milestones there leave it FREE. -/
def Obligations.CrossingsAndLock : Prop :=
  ∀ s : State, Logged s.dev →
    (∀ (i : Fin 3) (at' stamp high last : Nat), (s.dev.time.zc[i]).last = some last → 400000 ≤ high →
      stamp = s.dev.time.zcStamp at' → last < stamp →
      (s.dev.time.zc[i]).mains ≤ 2 * (stamp - last) → (i.val = 0 ∨ s.dev.time.zcMode = 1) →
      Completes (.zcCrossing i at' high) s (fun d => (d.time.zc[i]).last = some stamp ∧
        (s.dev.time.msStart ≤ at' → 0 < s.dev.time.msLen → stamp ≤ at' ∧ at' < stamp + s.dev.time.msLen / 2 ^ 24 + 2) ∧
        (d.time.zc[i]).period = stamp - last ∧ (d.time.zc[i]).accepted = (s.dev.time.zc[i]).accepted + 1 ∧
        ∀ j : Fin 3, j ≠ i → d.time.zc[j] = s.dev.time.zc[j])) ∧
    (∀ i : Fin 3, s.dev.time.lock = .locked → s.dev.time.source.input = some i.val → s.dev.time.zcMode ≠ 1 →
      Completes (.zcTimeout i) s (fun d => d.time.lock = .holdover ∧ d.time.source = .timeBase ∧
        d.time.cntLoss = satInc s.dev.time.cntLoss)) ∧
    (s.dev.time.lock = .holdover → 250 ≤ s.dev.time.holdMs →
      Becomes .holdoverExpiry s { s.dev with time := { s.dev.time with
        lock := .free, source := .timeBase, aligned := false, target := none, holdMs := 0, sourceMove := false } })

/-- R31, R50, R53, R266: a failed crystal moves the time base to the RC oscillator, is counted and logged once; one
that has agreed for 4,096 periods takes over at the next boundary; one that has not within 2.0 s has failed. At the boundary
of every sixteenth milestone the rate correction is minus the error D − K × (T − T0)² of the crystal, T in 0.01 °C, K in 10⁻⁴
ppb per square of that; at every 256th the die temperature that pots see is rounded to whole °C, ties to even. -/
def Obligations.CrystalAndTemperature : Prop :=
  (∀ s : State, Logged s.dev → s.dev.time.xtalFail = false →
    let failed := withEntry { s.dev with time := { s.dev.time with
      xtalFail := true, onXtal := false, cntXtal := satInc s.dev.time.cntXtal } } 0x0F 0 0 0 0
    Becomes .xtalFail s failed ∧
    (s.dev.time.onXtal = false →
      Becomes .xtalSwitchover s { s.dev with sys := { s.dev.sys with xtalAgree := true } } ∧
      (s.dev.sys.xtalAgree = false → Becomes .xtalStartTimeout s failed))) ∧
  (∀ (temp : Int) (s : State), Logged s.dev → s.dev.time.wm = 0 →
    (s.dev.ms % 16 = 0 →
      Becomes (.xtalComp temp) s { s.dev with time := { s.dev.time with
        dieTemp := temp
        rate := -(s.dev.time.compD.toInt - ((s.dev.time.compK.toNat : Int) * (temp - s.dev.time.compT0.toInt) *
          (temp - s.dev.time.compT0.toInt)).fdiv 10000) } }) ∧
    (s.dev.ms % 256 = 0 →
      Becomes (.dieTempRefresh temp) s { s.dev with time := { s.dev.time with
        dieTemp := temp, dieShown := divRoundEven temp 100 } }))

/-- R25, R55, R56: a read of TIME.MS_LO latches MS_HI and WM for its accessor, a read of TIME.SI_LO its SI_HI, and no
other accessor's latch changes; on the junction a write of TIME.SI_OFS_HI puts the offset held into effect, with
SI_VALID, and every multiple of 65,536 its network number is written to larder group 0x0082; 50 milestones after the
last beacon with LOCKED 1 BEACON clears. -/
def Obligations.TimeReadAndKept : Prop :=
  (∀ s : State, Logged s.dev →
    (∀ (who : Fin 17) (frac : BitVec 16),
      Becomes (.timeMsLoRead who frac) s { s.dev with time := { s.dev.time with
        latchHi := s.dev.time.latchHi.set who ((s.dev.time.count >>> 32).setWidth 16)
        latchWm := s.dev.time.latchWm.set who (BitVec.ofNat 32 (frac.toNat + s.dev.time.wm * 65536)) } } ∧
      Becomes (.timeSiLoRead who frac) s { s.dev with time := { s.dev.time with
        latchSi := s.dev.time.latchSi.set who (BitVec.ofNat 32 (s.dev.siAt frac / 4294967296)) } }) ∧
    (∀ hi : Word, s.dev.sys.role = 3 → s.dev.sys.clash = false →
      Becomes (.siOfsWrite hi) s { s.dev with time := { s.dev.time with
        siOfs := hi ++ s.dev.time.siOfsLoHeld, siValid := true } })) ∧
  (∀ s : State, Logged s.dev →
    (s.dev.junction = true → s.dev.time.netValid = true → s.dev.netMs % 65536 = 0 →
      s.dev.store.failed.contains 0x82 = false →
      Completes .netCheckpoint s (fun d => d.store.group 0x82 = leBytes 6 s.dev.netMs ++ [0, 0])) ∧
    (50 ≤ s.dev.time.beaconAge → Completes .beaconTimeout s (fun d => d.time.beacon = false)))

/-! ## The control cycle, modes and pots -/

/-- R124: a waymark boundary other than a milestone boundary begins the next waymark, and the milestone count stays;
at the end of the milestone, with no reset pending or due, the milestone that begins has waymark 0 and the next count.
-/
def Obligations.BoundariesCount : Prop :=
  ∀ (p : PatrolEnv) (e : ResetEnv) (s : State),
    (s.dev.time.wm < 255 → Completes (.waymarkBoundary p e) s (fun d =>
      d.time.wm = s.dev.time.wm + 1 ∧ d.time.count = s.dev.time.count ∧
      d.time.now = s.dev.time.msStart + (s.dev.time.wm + 1) * s.dev.time.msLen / 256)) ∧
    (s.dev.time.wm = 255 → s.dev.sys.pendResets = [] → s.dev.tollAutoDue = false → s.dev.sys.zeroNext = false →
      Completes (.waymarkBoundary p e) s (fun d =>
        d.time.wm = 0 ∧ d.time.count = s.dev.time.count + 1 ∧ d.time.now = s.dev.time.msStart + s.dev.time.msLen))

/-- R122, R157, R160, R161 and Table 5.7: in READY every mode command is accepted and waits for the boundary, in RUN
only HALT, in HALT only the RUN commands; a refused one, and every one in TOLLGATE, sets RESULT alone. With AUTORUN
set, no command pending, the domains of class ON usable and the network number valid, a boundary after the entry to
READY enters RUN, warm after a warm reset, with OFS the low byte of the network offset. A pot command for a declared
pot other than the Hob is taken in RUN and waits for the milestone boundary, a host's before the Hob's; any other only
sets its RESULT. -/
def Obligations.ModeAndPotCommandsJudged : Prop :=
  (∀ s : State, Logged s.dev →
    Becomes .runWarm s { s.dev with sys := modeAnswer s.dev.sys .runWarm (s.dev.sys.mode == .ready || s.dev.sys.mode == .halt) } ∧
    Becomes .runCold s { s.dev with sys := modeAnswer s.dev.sys .runCold (s.dev.sys.mode == .ready || s.dev.sys.mode == .halt) } ∧
    Becomes .halt s { s.dev with sys := modeAnswer s.dev.sys .halt (s.dev.sys.mode == .ready || s.dev.sys.mode == .run) }) ∧
  (∀ s : State, s.dev.sys.mode = .ready → s.dev.image.autorun = true → s.dev.sys.modePend = none → s.dev.time.wm = 0 →
    s.dev.time.netValid = true → s.dev.onUsable = true → s.dev.sys.readyMs < s.dev.ms →
    Completes .autorun s (fun d => d.sys.mode = .run ∧ d.sys.start = (if s.dev.sys.lastKind = .warm then 2 else 1) ∧
      d.sys.voidHob = false ∧ d.cycle.ofs = s.dev.time.netOfs.setWidth 8)) ∧
  (∀ (p : Fin 16) (host : Bool) (s : State), Logged s.dev →
    Becomes (.potStop p host) s { s.dev with cycle := potAnswer s.dev p .stop host } ∧
    Becomes (.potWarm p host) s { s.dev with cycle := potAnswer s.dev p .warm host } ∧
    Becomes (.potCold p host) s { s.dev with cycle := potAnswer s.dev p .cold host })

/-- R148, R153, R154, R545 (Table 18.16): outside TOLLGATE a write changes one word of one entry of the force table,
and FCLR.ALL disables every entry and changes nothing else of it. A privileged host's write of STORE.ARG0, STORE.ARG1
or BUS.ATTN_EN takes effect and changes nothing else; without a session the same write is counted in HOST_DENIED; an
unprivileged pot's is counted against the pot. -/
def Obligations.RegisterAndForceWrites : Prop :=
  (∀ s : State, Logged s.dev → s.dev.sys.mode ≠ .tollgate →
    (∀ (i : Fin 256) (v : Word),
      Becomes (.forceTableWrite i true v) s { s.dev with cycle := { s.dev.cycle with
        force := s.dev.cycle.force.set i { s.dev.cycle.force[i] with value := v } } } ∧
      Becomes (.forceTableWrite i false v) s { s.dev with cycle := { s.dev.cycle with
        force := s.dev.cycle.force.set i { s.dev.cycle.force[i] with
          channel := v.extractLsb' 0 10, elem := v.extractLsb' 10 6, output := v.getLsbD 16, en := v.getLsbD 17 } } }) ∧
    Completes .forceClearAll s (fun d => ∀ i : Fin 256, d.cycle.force[i] = { s.dev.cycle.force[i] with en := false })) ∧
  (∀ (v : Word) (s : State), Logged s.dev →
    Becomes (.registerWrite .host 0x40004 v) s { s.dev with store := { s.dev.store with arg0 := v } } ∧
    Becomes (.registerWrite .host 0x40008 v) s { s.dev with store := { s.dev.store with arg1 := v } } ∧
    Becomes (.registerWrite .host 0x8000C v) s { s.dev with seat := { s.dev.seat with attnEn := v.extractLsb' 1 4 } } ∧
    (s.dev.sys.provEn = false → Becomes (.registerWrite .guest 0x8000C v) s
      { s.dev with lane := { s.dev.lane with hostDenied := satInc s.dev.lane.hostDenied } }) ∧
    (∀ p : Fin 16, p ≠ 0 → Completes (.registerWrite (.pot p) 0x8000C v) s (fun d =>
      d.seat.attnEn = s.dev.seat.attnEn ∧ (d.cycle.pots[p]).denied = satInc (s.dev.cycle.pots[p]).denied)))

/-! ## Lanes -/

/-- R86 to R92: a failure of a working physical lane is counted; one that serves a logical lane waits for its
exchange, with its cause, and one that serves none is retired at once, with the retirement recorded; SELFTEST fails
only a lane with no open window. LANE.XCHG with GO asks for the exchange of a mapped lane whose carriageway has a
spare, and LANE_EXCHANGE gives a failed lane with no open window the spare of its carriageway and retires the physical
lane that failed. -/
def Obligations.LanesFailAndExchange : Prop :=
  (∀ (k : Fin 48) (s : State), (s.dev.lane.phys[k]).retired = false →
    (s.dev.lane.logical k.val = none →
      Completes (.selftest k false) s (fun d => LaneRetired s.dev d k 1) ∧
      Completes (.laneStall k) s (fun d => LaneRetired s.dev d k 2) ∧
      Completes (.laneParity k) s (fun d => LaneRetired s.dev d k 3)) ∧
    (∀ i, s.dev.lane.logical k.val = some i → (∀ c, (i, c) ∉ s.dev.lane.failing) →
      Completes (.laneStall k) s (fun d => LaneWaits s.dev d k i 2) ∧
      Completes (.laneParity k) s (fun d => LaneWaits s.dev d k i 3) ∧
      (s.dev.laneOpen i = false → Completes (.selftest k false) s (fun d => LaneWaits s.dev d k i 1)))) ∧
  (∀ s : State,
    (∀ (v : Word) (i : Fin 44) (k sp : Nat), Logged s.dev → v.extractLsb' 0 6 = BitVec.ofNat 6 i.val → v.getLsbD 8 = true →
      s.dev.lane.map[i] = some k → s.dev.lane.spare[i.val / 11]? = some (some sp) →
      Becomes (.laneXchg v) s { s.dev with lane := { s.dev.lane with planned := some i.val } }) ∧
    (∀ (i : Fin 44) (c k sp : Nat), s.dev.lane.failing = [(i.val, c)] → s.dev.laneOpen i.val = false → k < 48 →
      s.dev.lane.map[i] = some k → s.dev.lane.spare[i.val / 11]? = some (some sp) → s.dev.lane.planned = none →
      Completes .laneExchange s (fun d => d.lane.map[i] = some sp ∧ d.lane.spare[i.val / 11]? = some none ∧
        d.lane.failing = [] ∧ (d.lane.phys[k]?.map (·.retired)) = some true)))

/-! ## Rhamet: constants, stack and locals -/

/-- Table 7.3 and SELECT of Table 7.8: NOP leaves the stack; PUSH.I8 and PUSH.I16 sign-extend, the others push 32
bits; DROP, DUP, SWAP, OVER, ROT, PICK and SELECT rearrange the cells; LD.L pushes a local, ST.L pops into one, and
TEE.L writes one and keeps the cell. No other local, and nothing but the window of the task, changes. -/
def Obligations.StackAndLocals : Prop :=
  ((∀ (s : State) (t : Fin 64) (w : Window) (fr : Frame) (rest : List Frame), Runs s t 0 w fr rest →
    exec (.rhNop t) s = .next (withWindow s t (stepped w fr rest 0 1 fr.stack))) ∧
  (∀ v, Pushes (.rhPushI8 · v) 1 1 (fun _ _ _ => v.signExtend 32)) ∧
  (∀ v, Pushes (.rhPushI16 · v) 2 1 (fun _ _ _ => v.signExtend 32)) ∧
  (∀ v, Pushes (.rhPushI32 · v) 4 1 (fun _ _ _ => v)) ∧
  (∀ v, Pushes (.rhPushU32 · v) 4 1 (fun _ _ _ => v)) ∧
  (∀ v, Pushes (.rhPushQ · v) 4 1 (fun _ _ _ => v)) ∧
  (∀ v, Pushes (.rhPushF · v) 4 1 (fun _ _ _ => v))) ∧
  ((∀ a, Rearranges .rhDrop 1 [a] []) ∧
  (∀ a, Rearranges .rhDup 1 [a] [a, a]) ∧
  (∀ a b, Rearranges .rhSwap 1 [b, a] [a, b]) ∧
  (∀ a b, Rearranges .rhOver 1 [b, a] [a, b, a]) ∧
  (∀ a b c, Rearranges .rhRot 2 [c, b, a] [a, c, b]) ∧
  (∀ (k : BitVec 8) (s : State) (t : Fin 64) (w : Window) (fr : Frame) (rest : List Frame) (v : Word),
    Runs s t 1 w fr rest → fr.stack[k.toNat]? = some v →
    exec (.rhPick t k) s = .next (withWindow s t (stepped w fr rest 1 2 (v :: fr.stack)))) ∧
  (∀ a b c, Rearranges .rhSelect 1 [c, b, a] [if c ≠ 0 then a else b])) ∧
  ((∀ (i : BitVec 8) (s : State) (t : Fin 64) (w : Window) (fr : Frame) (rest : List Frame) (v : Word),
    Runs s t 1 w fr rest → fr.locals[i.toNat]? = some v →
    exec (.rhLdL t i) s = .next (withWindow s t (stepped w fr rest 1 1 (v :: fr.stack)))) ∧
  (∀ (i : BitVec 8) (s : State) (t : Fin 64) (w : Window) (fr : Frame) (rest : List Frame) (v : Word) (st : List Word),
    Runs s t 1 w fr rest → fr.stack = v :: st → i.toNat < fr.locals.length →
    exec (.rhStL t i) s =
      .next (withWindow s t (stepped w { fr with locals := fr.locals.set i.toNat v } rest 1 1 st)) ∧
    exec (.rhTeeL t i) s =
      .next (withWindow s t (stepped w { fr with locals := fr.locals.set i.toNat v } rest 1 1 (v :: st)))))

/-! ## Rhamet: arithmetic, logic and conversion -/

/-- Tables 7.4 and 7.6 (R173): every integer instruction, comparison and bit operation gives the result of its row,
with its fault counted; the comparisons push 1 or 0, with a NaN operand only NE holding; shift and rotate counts are
taken modulo 32. Nothing but the window of the task changes. -/
def Obligations.IntegerAndLogicResults : Prop :=
  (Binary .rhAddI 0 1 (fun a b => sure (a + b)) ∧ Binary .rhSubI 0 1 (fun a b => sure (a - b)) ∧
  Binary .rhMulI 0 3 (fun a b => sure (a * b)) ∧
  Binary .rhDivI 0 8 (fun a b => unlessZero b
    (BitVec.ofInt 32 (a.toInt.tdiv b.toInt), decide (a = 0x80000000#32 ∧ b = 0xFFFFFFFF#32))) ∧
  Binary .rhRemI 0 8 (fun a b => unlessZero b (sure (BitVec.ofInt 32 (a.toInt.tmod b.toInt)))) ∧
  Binary .rhAddsI 0 2 (fun a b => sure (heldI (a.toInt + b.toInt))) ∧
  Binary .rhSubsI 0 2 (fun a b => sure (heldI (a.toInt - b.toInt))) ∧
  Binary .rhMulsI 0 4 (fun a b => sure (heldI (a.toInt * b.toInt))) ∧
  Binary .rhMinI 0 1 (fun a b => sure (if a.toInt ≤ b.toInt then a else b)) ∧
  Binary .rhMaxI 0 1 (fun a b => sure (if a.toInt ≤ b.toInt then b else a)) ∧
  Binary .rhAddU 0 1 (fun a b => sure (a + b)) ∧ Binary .rhSubU 0 1 (fun a b => sure (a - b)) ∧
  Binary .rhMulU 0 3 (fun a b => sure (a * b)) ∧
  Binary .rhDivU 0 8 (fun a b => unlessZero b (sure (a / b))) ∧
  Binary .rhRemU 0 8 (fun a b => unlessZero b (sure (a % b))) ∧
  Binary .rhAddsU 0 2 (fun a b => sure (heldU ((a.toNat : Int) + b.toNat))) ∧
  Binary .rhSubsU 0 2 (fun a b => sure (heldU ((a.toNat : Int) - b.toNat))) ∧
  Binary .rhMulsU 0 4 (fun a b => sure (heldU ((a.toNat : Int) * b.toNat))) ∧
  Binary .rhMinU 0 1 (fun a b => sure (if a ≤ b then a else b)) ∧
  Binary .rhMaxU 0 1 (fun a b => sure (if a ≤ b then b else a)) ∧
  Unary .rhNegI 1 (fun a => sure (-a)) ∧ Unary .rhAbsI 1 (fun a => sure (if a.toInt < 0 then -a else a)) ∧
  Unary .rhNegsI 1 (fun a => sure (heldI (-a.toInt))) ∧
  Unary .rhAbssI 1 (fun a => sure (heldI (if a.toInt < 0 then -a.toInt else a.toInt)))) ∧
  ((∀ c, Binary (.rhCmpI · c) 1 1 (fun a b => sure (truth (condHolds c a.toInt b.toInt)))) ∧
  (∀ c, Binary (.rhCmpU · c) 1 1 (fun a b => sure (truth (condHolds c a.toNat b.toNat)))) ∧
  (∀ c, Binary (.rhCmpQ · c) 1 1 (fun a b => sure (truth (condHolds c a.toInt b.toInt)))) ∧
  (∀ c, Binary (.rhCmpF · c) 1 2 (fun a b => sure (truth (condHoldsF c a b)))) ∧
  Binary .rhAnd 0 1 (fun a b => sure (a &&& b)) ∧ Binary .rhOr 0 1 (fun a b => sure (a ||| b)) ∧
  Binary .rhXor 0 1 (fun a b => sure (a ^^^ b)) ∧
  Binary .rhShlI 0 1 (fun a n => sure (a <<< (n.toNat % 32))) ∧
  Binary .rhShlU 0 1 (fun a n => sure (a <<< (n.toNat % 32))) ∧
  Binary .rhShrI 0 1 (fun a n => sure (a.sshiftRight (n.toNat % 32))) ∧
  Binary .rhShrU 0 1 (fun a n => sure (a >>> (n.toNat % 32))) ∧
  Binary .rhRotl 0 1 (fun a n => sure ((a <<< (n.toNat % 32)) ||| (a >>> (32 - n.toNat % 32)))) ∧
  Binary .rhRotr 0 1 (fun a n => sure ((a >>> (n.toNat % 32)) ||| (a <<< (32 - n.toNat % 32)))) ∧
  Unary .rhNot 1 (fun a => sure (a ^^^ 0xFFFFFFFF#32)) ∧
  Unary .rhClz 3 (fun a => sure (BitVec.ofNat 32 (((upTo 32).takeWhile (fun k => !a.getLsbD (31 - k))).length))) ∧
  Unary .rhPopc 3 (fun a => sure (BitVec.ofNat 32 (((upTo 32).filter (fun k => a.getLsbD k)).length))) ∧
  Unary .rhEqz 1 (fun a => sure (truth (a = 0))))

/-- Tables 7.5 and 7.7 (R173): q16.16 saturates and rounds to nearest, ties to even; NEG.F inverts and ABS.F clears
the sign bit, but a NaN gives the one NaN; the reinterpretations keep every bit and the conversions of integers and
q16.16 give the row's value; the other f32 instructions and conversions give what the model's IEEE 754 operations
give. -/
def Obligations.FractionAndConversionResults : Prop :=
  (Binary .rhAddQ 0 1 (fun a b => sure (heldI (a.toInt + b.toInt))) ∧
  Binary .rhSubQ 0 1 (fun a b => sure (heldI (a.toInt - b.toInt))) ∧
  Binary .rhMulQ 0 4 (fun a b => sure (heldI (divRoundEven (a.toInt * b.toInt) 65536))) ∧
  Binary .rhDivQ 0 10 (fun a b => unlessZero b (sure (heldI
    (divRoundEven (a.toInt * 65536 * b.toInt.sign) b.toInt.natAbs)))) ∧
  Binary .rhMinQ 0 1 (fun a b => sure (if a.toInt ≤ b.toInt then a else b)) ∧
  Binary .rhMaxQ 0 1 (fun a b => sure (if a.toInt ≤ b.toInt then b else a)) ∧
  Binary .rhAddF 0 3 (fun a b => sure (fAdd a b)) ∧ Binary .rhSubF 0 3 (fun a b => sure (fAdd a (b ^^^ 0x80000000#32))) ∧
  Binary .rhMulF 0 3 (fun a b => sure (fMul a b)) ∧ Binary .rhDivF 0 10 (fun a b => sure (fDiv a b)) ∧
  Binary .rhMinF 0 2 (fun a b => sure (fMin a b)) ∧ Binary .rhMaxF 0 2 (fun a b => sure (fMax a b)) ∧
  Unary .rhNegQ 1 (fun a => sure (heldI (-a.toInt))) ∧
  Unary .rhAbsQ 1 (fun a => sure (heldI (if a.toInt < 0 then -a.toInt else a.toInt))) ∧
  Unary .rhNegF 1 (fun a => sure (if isNaN a then 0x7FC00000 else a ^^^ 0x80000000#32)) ∧
  Unary .rhAbsF 1 (fun a => sure (if isNaN a then 0x7FC00000 else a &&& 0x7FFFFFFF#32)) ∧
  Unary .rhSqrtF 12 (fun a => sure (fSqrt a)) ∧ Unary .rhFloorF 2 (fun a => sure (fToWhole .floor a)) ∧
  Unary .rhCeilF 2 (fun a => sure (fToWhole .ceil a)) ∧ Unary .rhRoundF 2 (fun a => sure (fToWhole .even a)) ∧
  Unary .rhTruncF 2 (fun a => sure (fToWhole .trunc a))) ∧
  (Unary .rhI2u 1 sure ∧ Unary .rhU2i 1 sure ∧ Unary .rhFBits 1 sure ∧ Unary .rhFFrom 1 sure ∧ Unary .rhQBits 1 sure ∧
  Unary .rhQFrom 1 sure ∧
  Unary .rhI2f 2 (fun a => sure (fOfScaled false a.toInt 0)) ∧ Unary .rhU2f 2 (fun a => sure (fOfScaled false a.toNat 0)) ∧
  Unary .rhQ2f 2 (fun a => sure (fOfScaled false a.toInt (-16))) ∧
  Unary .rhF2i 3 (fun a => if isNaN a then (0, true) else sure (f2i a).1) ∧
  Unary .rhF2u 3 (fun a => if isNaN a then (0, true) else sure (f2u a).1) ∧
  Unary .rhF2q 3 (fun a => if isNaN a then (0, true) else sure (f2q a).1) ∧
  Unary .rhI2q 1 (fun a => sure (heldI (a.toInt * 65536))) ∧
  Unary .rhU2q 1 (fun a => sure (heldI ((a.toNat : Int) * 65536))) ∧
  Unary .rhQ2i 1 (fun a => sure (BitVec.ofInt 32 (a.toInt.tdiv 65536))))

/-- R204, on the model's f32 operations: a NaN operand gives a NaN, and every result that is a NaN is 0x7FC0_0000. -/
def Obligations.OneNaN : Prop :=
  (∀ f ∈ [fAdd, fSub, fMul, fDiv, fMin, fMax], ∀ a b : Word,
    (isNaN a ∨ isNaN b → isNaN (f a b)) ∧ (isNaN (f a b) → f a b = 0x7FC00000)) ∧
  (∀ f ∈ [fNeg, fAbs, fSqrt, fToWhole .floor, fToWhole .ceil, fToWhole .even, fToWhole .trunc], ∀ a : Word,
    (isNaN a → isNaN (f a)) ∧ (isNaN (f a) → f a = 0x7FC00000))

/-! ## Rhamet: control -/

/-- Table 7.8 and R174, R175: BR is always taken, BRZ where the operand is 0, BRNZ where it is not; a taken branch
goes forward from the next instruction, and every loop whose body it leaves is counted anew on its next entry. LOOP
counts, pops one cell, and goes back to the head while the cell is not 0 and the count is below MAX; otherwise the
loop is left. -/
def Obligations.BranchesAndLoops : Prop :=
  ((∀ (ofs : BitVec 16) (s : State) (t : Fin 64) (w : Window) (fr : Frame) (rest : List Frame), Runs s t 2 w fr rest →
    exec (.rhBr t ofs) s = .next (withWindow s t
      { w with units := w.units + 1, frames := jumped { fr with pc := fr.pc + 3 } (fr.pc + 3 + ofs.toNat) :: rest })) ∧
  (∀ (ofs : BitVec 16) (s : State) (t : Fin 64) (w : Window) (fr : Frame) (rest : List Frame) (a : Word) (st : List Word),
    Runs s t 2 w fr rest → fr.stack = a :: st →
    exec (.rhBrz t ofs) s = .next (withWindow s t
      (if a = 0 then { w with units := w.units + 1,
                              frames := jumped { fr with pc := fr.pc + 3, stack := st } (fr.pc + 3 + ofs.toNat) :: rest }
       else stepped w fr rest 2 1 st)) ∧
    exec (.rhBrnz t ofs) s = .next (withWindow s t
      (if a = 0 then stepped w fr rest 2 1 st
       else { w with units := w.units + 1,
                     frames := jumped { fr with pc := fr.pc + 3, stack := st } (fr.pc + 3 + ofs.toNat) :: rest })))) ∧
  (∀ (mx back : BitVec 16) (s : State) (t : Fin 64) (w : Window) (fr : Frame) (rest : List Frame) (a : Word) (st : List Word),
    Runs s t 4 w fr rest → fr.stack = a :: st →
    exec (.rhLoop t mx back) s = .next (withWindow s t { w with
      units := w.units + 2
      frames :=
        (if a ≠ 0 ∧ loopCount fr fr.pc + 1 < mx.toNat then
          { fr with stack := st, pc := fr.pc - back.toNat
                    loops := (fr.pc, loopCount fr fr.pc + 1) :: fr.loops.filter (fun l => l.1 ≠ fr.pc) }
        else { fr with stack := st, pc := fr.pc + 5, loops := fr.loops.filter (fun l => l.1 ≠ fr.pc) }) :: rest }))

/-- R170 to R172, R208: CALL makes a frame at the start of the function with an empty stack and the arguments as its
first locals, the deepest one local 0, every other local 0; RET puts the returning frame's cells on the caller's stack
in the same order, and at depth 1 finishes the release. -/
def Obligations.CallsAndReturns : Prop :=
  (∀ (n : BitVec 16) (g : FnDecl) (s : State) (t : Fin 64) (w : Window) (fr : Frame) (rest : List Frame) (args st : List Word),
    Runs s t 2 w fr rest → s.dev.image.fns[n.toNat]? = some g → fr.stack = args.reverse ++ st →
    args.length = g.args.length →
    exec (.rhCall t n) s = .next (withWindow s t { w with
      units := w.units + 4
      frames := { fn := n.toNat, pc := 0, stack := [], locals := args ++ List.replicate (g.nlocals - args.length) 0,
                  loops := [] } :: { fr with pc := fr.pc + 3, stack := st } :: rest })) ∧
  (∀ (s : State) (t : Fin 64) (w : Window) (fr : Frame) (rest : List Frame), Runs s t 0 w fr rest →
    (∀ caller more, rest = caller :: more →
      exec (.rhRet t) s = .next (withWindow s t { w with
        units := w.units + 2, frames := { caller with stack := fr.stack ++ caller.stack } :: more })) ∧
    (rest = [] → exec (.rhRet t) s = .next (withWindow s t { w with
      units := w.units + 2, frames := [], status := .finished })))

/-! ## Rhamet: the worktop and the constants -/

/-- Table 7.9, R101, R102, R105, R179, R180, R209: for a pot other than the Hob an access of `n` bytes at `a` lies in
its window where it is aligned and ends at or before the window's end, and is counted from the window's first byte;
for the Hob the window is the whole worktop. A load gives the bytes that the task sees, little-endian and extended as
its row says, or 0 with one memory fault counted; a store stages the low bytes of its value, or is discarded with one
memory fault counted, and the worktop stays as it is until the commit, while the task sees its staged bytes there; a
constant load gives the bytes of the pot's block, or 0 with one constant fault counted, and a pantry word of them with an
uncorrectable error ends the release (log 63). -/
def Obligations.MemoryAccesses : Prop :=
  (∀ (d : Dev) (p a n x : Nat),
    (d.winAddr p a n = some x ↔
      a % n = 0 ∧
      (if p = 0 then a + n ≤ 1048576 ∧ x = a
       else a + n ≤ 4096 * (d.image.window p).pages ∧ x = 4096 * (d.image.window p).base + a))) ∧
  (∀ (w : Window) (x n a : Nat) (v : Word),
    (w.storeLE x n v).byteAt a =
      if x ≤ a ∧ a < x + n then BitVec.ofNat 8 (v.toNat / 256 ^ (a - x)) else w.byteAt a) ∧
  (Loads .rhLd8u 0 1 (fun v => BitVec.ofNat 32 v) ∧ Loads .rhLd8s 0 1 (fun v => (BitVec.ofNat 8 v).signExtend 32) ∧
  Loads .rhLd16u 0 2 (fun v => BitVec.ofNat 32 v) ∧ Loads .rhLd16s 0 2 (fun v => (BitVec.ofNat 16 v).signExtend 32) ∧
  (∀ ty, Loads (.rhLd32 · ty) 1 4 (fun v => BitVec.ofNat 32 v))) ∧
  (Stores .rhSt8 1 ∧ Stores .rhSt16 2 ∧ Stores .rhSt32 4) ∧
  (ConstLoads .rhLdc8u 0 1 ∧ ConstLoads .rhLdc16u 0 2 ∧ (∀ ty, ConstLoads (.rhLdc32 · ty) 1 4))

/-! ## Rhamet: inputs, outputs, captures, time and registers -/

/-- R210 and R211: IN, INST and PREV push the latched value, status and kept value; EDGE.R and EDGE.F push the bits
that rose and fell; OUT stages a value, the last one executed standing, and OUTGET pushes it, or the image as latched.
R212: CAP.N and CAP.X push the entries delivered and the further ones; CAP.CP stores sixteen slots of two words, the
time in the low 63 bits and the direction in bit 31 of the second, slots beyond the count holding 0, each word checked
on its own. -/
def Obligations.ElementsAndCaptures : Prop :=
  ((∀ ch el ty, Pushes (.rhIn · ch el ty) 4 2 (fun _ w _ => (w.latch.input (64 * ch.toNat + el.toNat)).value)) ∧
  (∀ ch el, Pushes (.rhInst · ch el) 4 2
    (fun _ w _ => BitVec.ofNat 32 (w.latch.input (64 * ch.toNat + el.toNat)).status)) ∧
  (∀ ch el ty, Pushes (.rhPrev · ch el ty) 4 2 (fun _ w _ => (w.latch.input (64 * ch.toNat + el.toNat)).prev)) ∧
  (∀ ch el, Pushes (.rhEdgeR · ch el) 4 3 (fun _ w _ =>
    ~~~(w.latch.input (64 * ch.toNat + el.toNat)).prev &&& (w.latch.input (64 * ch.toNat + el.toNat)).value)) ∧
  (∀ ch el, Pushes (.rhEdgeF · ch el) 4 3 (fun _ w _ =>
    (w.latch.input (64 * ch.toNat + el.toNat)).prev &&& ~~~(w.latch.input (64 * ch.toNat + el.toNat)).value)) ∧
  (∀ ch el ty, PopsTo (.rhOut · ch el ty) 4 2 (fun g v => { g with outs := mapPut g.outs (64 * ch.toNat + el.toNat) v })) ∧
  (∀ ch el ty, Pushes (.rhOutget · ch el ty) 4 2 (fun _ w _ =>
    (mapFind w.staged.outs (64 * ch.toNat + el.toNat)).getD (mapGet w.latch.outs (64 * ch.toNat + el.toNat))))) ∧
  ((∀ ch, Pushes (.rhCapN · ch) 2 2 (fun _ w _ => BitVec.ofNat 32 (w.latch.cap ch.toNat).entries.length)) ∧
  (∀ ch, Pushes (.rhCapX · ch) 2 2 (fun _ w _ => BitVec.ofNat 32 (w.latch.cap ch.toNat).further)) ∧
  (∀ (ch : BitVec 10) (s : State) (t : Fin 64) (w : Window) (fr : Frame) (rest : List Frame) (a : Word) (st : List Word),
    Runs s t 2 w fr rest → fr.stack = a :: st → (w.latch.cap ch.toNat).entries.length ≤ 16 →
    exec (.rhCapCp t ch) s = .next (withWindow s t
      { stepped w fr rest 2 12 st with staged := (s.dev.winStoreWords (s.dev.potOf t) a
        ((w.latch.cap ch.toNat).entries.flatMap (fun e =>
            [BitVec.ofNat 32 e.si, BitVec.ofNat 32 (e.si / 4294967296 % 2147483648 + (if e.rise then 2147483648 else 0))]) ++
          List.replicate (32 - 2 * (w.latch.cap ch.toNat).entries.length) 0) w).staged })))

/-- R213 (Table 7.10), R220 and SELF: TIME pushes the value latched for its selector, REG.RD the register as latched;
REG.WR stages a write, the last one to a register standing; SELF pushes the task, the pot or the entry that runs.
R214: T.START stores the four words of a timer record, the latched time, DURATION and BASE; T.EXP and T.LEFT load one,
each word checked on its own, and push whether DURATION has elapsed and what is left of it. -/
def Obligations.TimeAndTimers : Prop :=
  ((∀ sel, Pushes (.rhTime · sel) 1 1 (fun _ w _ => latchedTime w.latch sel)) ∧
  (∀ a, Pushes (.rhRegRd · a) 4 2 (fun _ w _ => mapGet w.latch.regs a.toNat)) ∧
  (∀ a, PopsTo (.rhRegWr · a) 4 2 (fun g v => { g with regs := mapPut g.regs a.toNat v })) ∧
  (∀ (s : State) (t : Fin 64) (w : Window) (fr : Frame) (rest : List Frame), Runs s t 1 w fr rest →
    exec (.rhSelf t .task) s = .next (withWindow s t (stepped w fr rest 1 1 (BitVec.ofNat 32 t.val :: fr.stack))) ∧
    exec (.rhSelf t .pot) s =
      .next (withWindow s t (stepped w fr rest 1 1 (BitVec.ofNat 32 (s.dev.potOf t) :: fr.stack))) ∧
    exec (.rhSelf t .entry) s = .next (withWindow s t (stepped w fr rest 1 1
      ((match w.entry with | .cold => 0 | .warm => 1 | .cyclic => 2) :: fr.stack))))) ∧
  ((∀ (ms : Bool) (s : State) (t : Fin 64) (w : Window) (fr : Frame) (rest : List Frame) (dur a : Word) (st : List Word),
    Runs s t 1 w fr rest → fr.stack = dur :: a :: st →
    exec (.rhTStart t ms) s = .next (withWindow s t
      { stepped w fr rest 1 6 st with staged := (s.dev.winStoreWords (s.dev.potOf t) a
        [BitVec.ofNat 32 (latchedBase w.latch ms), BitVec.ofNat 32 (latchedBase w.latch ms / 4294967296), dur,
          if ms then 1 else 0] w).staged })) ∧
  (∀ (s : State) (t : Fin 64) (w : Window) (fr : Frame) (rest : List Frame) (a : Word) (st : List Word),
    Runs s t 0 w fr rest → fr.stack = a :: st →
    let r := s.dev.timerRecord (s.dev.potOf t) a w
    exec (.rhTExp t) s = .next (withWindow s t
      { stepped w fr rest 0 5 (truth (r.2.2 ≤ r.2.1) :: st) with staged := r.1.staged }) ∧
    exec (.rhTLeft t) s = .next (withWindow s t
      { stepped w fr rest 0 6 (BitVec.ofNat 32 (r.2.2 - r.2.1) :: st) with staged := r.1.staged })))

/-! ## Rhamet: hatches, larder, scripts and the face -/

/-- R215: H.RD pushes a word of the latched copy, or the writer's own latest staged word, bytes at or above LENGTH
reading 0; H.WR stages a word, the last one standing; H.GEN pushes the generation. R216, R217: L.RD pushes the task's
own staged half, or the half as it stood at the release where its check byte shows nothing and the group is not lost;
a lost group reads 0; L.WR stages a half while at most 512 groups are staged, and a 513th is discarded with its
region's OVERFLOW; L.STAT pushes the latched status. -/
def Obligations.HatchesAndLarder : Prop :=
  ((∀ (h : BitVec 6) (wd : BitVec 4) (ty : RhType) (x : HatchDecl) (s : State) (t : Fin 64) (w : Window) (fr : Frame)
      (rest : List Frame), Runs s t 2 w fr rest → s.dev.image.hatch h.toNat = some x →
    exec (.rhHRd t h wd ty) s = .next (withWindow s t (stepped w fr rest 2 2
      (maskWord x.length wd.toNat
        (if x.writer = t.val ∧ (mapFind w.staged.hatch (h.toNat, wd.toNat)).isSome then
          (mapFind w.staged.hatch (h.toNat, wd.toNat)).getD 0
        else BitVec.ofNat 32 (leNat (((w.latch.hatch h.toNat).bytes.drop (4 * wd.toNat)).take 4))) :: fr.stack)))) ∧
  (∀ h wd ty, PopsTo (.rhHWr · h wd ty) 2 2 (fun g v => { g with hatch := mapPut g.hatch (h.toNat, wd.toNat) v })) ∧
  (∀ h, Pushes (.rhHGen · h) 1 1 (fun _ w _ => (w.latch.hatch h.toNat).gen))) ∧
  ((∀ (r : BitVec 6) (half : Bool) (g : BitVec 15) (ty : RhType) (e : EccFind) (v : Word) (s : State) (t : Fin 64) (w : Window)
      (fr : Frame) (rest : List Frame), Runs s t 4 w fr rest → Logged s.dev →
    mapFind w.staged.larder (r.toNat, g.toNat, if half then 1 else 0) = some v →
    exec (.rhLRd t r half g ty e) s = .next (withWindow s t (stepped w fr rest 4 6 (v :: fr.stack)))) ∧
  (∀ (r : BitVec 6) (half : Bool) (g : BitVec 15) (ty : RhType) (s : State) (t : Fin 64) (w : Window)
      (fr : Frame) (rest : List Frame), Runs s t 4 w fr rest → Logged s.dev →
    mapFind w.staged.larder (r.toNat, g.toNat, if half then 1 else 0) = none →
    s.dev.store.lost.contains (s.dev.regionGroup r.toNat g.toNat) = false →
    s.dev.store.failed.contains (s.dev.regionGroup r.toNat g.toNat) = false →
    exec (.rhLRd t r half g ty .clean) s = .next (withWindow s t (stepped w fr rest 4 6
      (BitVec.ofNat 32 (leNat (Mem.readBytes larderByte w.latch.larder
        (8 * s.dev.regionGroup r.toNat g.toNat + if half then 4 else 0) 4)) :: fr.stack)))) ∧
  (∀ (r : BitVec 6) (half : Bool) (g : BitVec 15) (ty : RhType) (s : State) (t : Fin 64) (w : Window) (fr : Frame)
      (rest : List Frame) (v : Word) (st : List Word), Runs s t 4 w fr rest → fr.stack = v :: st →
    w.staged.groupsOf.length < 512 →
    exec (.rhLWr t r half g ty) s = .next (withWindow s t { stepped w fr rest 4 6 st with
      staged := { w.staged with larder := mapPut w.staged.larder (r.toNat, g.toNat, if half then 1 else 0) v } })) ∧
  (∀ (r : BitVec 6) (half : Bool) (g : BitVec 15) (ty : RhType) (s : State) (t : Fin 64) (w : Window) (fr : Frame)
      (rest : List Frame) (v : Word) (st : List Word), Runs s t 4 w fr rest → fr.stack = v :: st →
    512 ≤ w.staged.groupsOf.length → (r.toNat, g.toNat) ∉ w.staged.groupsOf →
    exec (.rhLWr t r half g ty) s = .next (withWindow s t { stepped w fr rest 4 6 st with
      staged := { w.staged with overflow := r.toNat :: w.staged.overflow } })) ∧
  (∀ (r : BitVec 6) (half : Bool) (g : BitVec 15) (ty : RhType) (s : State) (t : Fin 64) (w : Window)
      (fr : Frame) (rest : List Frame), Runs s t 4 w fr rest → Logged s.dev →
    mapFind w.staged.larder (r.toNat, g.toNat, if half then 1 else 0) = none →
    s.dev.store.lost.contains (s.dev.regionGroup r.toNat g.toNat) = true →
    Completes (.rhLRd t r half g ty .clean) s
      (fun d => d.cycle.tasks[t].window = some (stepped w fr rest 4 6 (0 :: fr.stack)))) ∧
  (∀ r, Pushes (.rhLStat · r) 1 2 (fun _ w _ => mapGet w.latch.larStat r.toNat)))

/-- R218, R219 and Table 7.12: S.RUN and S.STOP stage a start and an abort, the last one of a slot standing; S.PAR
stages a parameter; F.RECT, F.ABORT and F.STEN are staged in the order executed; S.STAT and F.STAT push the latched
status. -/
def Obligations.ScriptsAndFaceStaged : Prop :=
  (∀ n, Stages (.rhSRun · n) 1 2 (fun g => { g with runs := mapPut g.runs n.toNat true })) ∧
  (∀ n, Stages (.rhSStop · n) 1 2 (fun g => { g with runs := mapPut g.runs n.toNat false })) ∧
  (∀ n k, PopsTo (.rhSPar · n k) 2 2 (fun g v => { g with params := mapPut g.params (n.toNat, k.toNat) v })) ∧
  (∀ n, Pushes (.rhSStat · n) 1 2 (fun _ w _ => mapGet w.latch.slots n.toNat)) ∧
  (∀ r, PopsTo (.rhFRect · r) 1 4 (fun g a => { g with fRects := g.fRects ++ [(r.toNat, a.toNat)] })) ∧
  (∀ r, Stages (.rhFAbort · r) 1 2 (fun g => { g with fAborts := g.fAborts ++ [r.toNat] })) ∧
  (∀ k, Stages (.rhFSten · k) 2 4 (fun g => { g with fStens := g.fStens ++ [k.toNat] })) ∧
  (∀ r, Pushes (.rhFStat · r) 1 2 (fun _ w _ => mapGet w.latch.faceStat r.toNat))

/-! ## The pantry and the larder -/

/-- R229, R231, R233 and Table 8.4, the commands of the host: ERASE of a switch's candidate answers WRONG_STATE (5); else, while
another command runs, each answers BUSY (2); otherwise ERASE and WRITE begin and leave the bank WRITING, but for an EMPTY bank
under ERASE, SEAL and SWITCH begin their checks, TXN_BEGIN opens a transaction on
a journaled region, TXN_WRITE stages groups of STORE.BUF into it, and PROVISION queues the four groups of its slot.
That ATTN.STORE rises with a refusal is log 21. -/
def Obligations.StoreCommandsJudged : Prop :=
  ∀ (b priv : Bool) (s : State), Logged s.dev →
    let d := s.dev
    let st := d.store
    let x := st.bank b
    (st.busy = none → st.candidate b = true → Becomes (.erase b) s (storeAnswer d 1 5)) ∧
    (st.isBusy = true →
      (st.busy.isSome = true ∨ st.candidate b = false → Becomes (.erase b) s (storeAnswer d 1 2)) ∧ Becomes (.storeWrite b) s (storeAnswer d 2 2) ∧
      Becomes (.storeSeal b) s (storeAnswer d 3 2) ∧ Becomes (.bankSwitchTo b) s (storeAnswer d 4 2) ∧
      Becomes .txnBegin s (storeAnswer d 6 2) ∧ Becomes .txnWrite s (storeAnswer d 7 2) ∧
      Becomes .txnCommit s (storeAnswer d 8 2) ∧ Becomes (.provision priv) s (storeAnswer d 9 2)) ∧
    (st.isBusy = false →
      (x.mode ≠ .active → st.candidate b = false → Becomes (.erase b) s { d with store :=
        { (st.setBank b { x with mode := if x.mode = .empty then .empty else .writing }) with
          busy := some (.erase b), progress := 127, op := 1 } }) ∧
      (x.mode = .empty ∨ x.mode = .writing → st.arg0.toNat % 4 = 0 → st.arg1.toNat % 4 = 0 → 4 ≤ st.arg1.toNat →
        st.arg1.toNat ≤ 256 → st.arg0.toNat + st.arg1.toNat ≤ 1048576 →
        Becomes (.storeWrite b) s { d with store := { (st.setBank b { x with mode := .writing }) with
          busy := some (.write b st.arg0.toNat (st.bufBytes.take st.arg1.toNat)), op := 2 } }) ∧
      (x.mode = .writing →
        Becomes (.storeSeal b) s { d with store := { st with busy := some (.seal b), progress := 127, op := 3 } }) ∧
      (x.mode = .complete → d.sys.mode ≠ .tollgate → st.sw = .idle → st.arg1.toNat < 2 ^ 19 →
        st.arg1.getLsbD 18 = true ∨ d.image.generation < x.generation →
        Becomes (.bankSwitchTo b) s { d with store := { st with
          sw := .verifying b st.arg0.toNat (st.arg1.toNat % 2 ^ 16) (st.arg1.getLsbD 16) (st.arg1.getLsbD 17)
          progress := 127, op := 4 } }) ∧
      (∀ reg, st.arg0.toNat < 64 → d.image.region st.arg0.toNat = some reg → reg.journaled = true → st.txn = none →
        Becomes .txnBegin s (storeDone { d with store := { st with
          txn := some { region := st.arg0.toNat, groups := [] } } } 6)) ∧
      (∀ t reg, st.txn = some t → d.image.region t.region = some reg → 1 ≤ st.arg1.toNat → st.arg1.toNat ≤ 32 →
        st.arg0.toNat < 2 ^ 15 → st.arg0.toNat + st.arg1.toNat ≤ reg.groups → t.groups.length + st.arg1.toNat ≤ 512 →
        Becomes .txnWrite s (storeDone { d with store := { st with txn := some { t with
          groups := (upTo st.arg1.toNat).foldl (fun gs k =>
            setGroup gs (st.arg0.toNat + k) ((st.bufBytes.drop (8 * k)).take 8)) t.groups } } } 7)) ∧
      (∀ first, st.arg0.toNat < 2 → first = 4 * st.arg0.toNat → d.sys.provEn = true →
        priv = true ∨ (∀ k < 4, ∀ y ∈ st.group (first + k), y = 0) → (∀ k < 4, first + k ∉ st.failed) →
        Completes (.provision priv) s (fun e => e.store.busy = some (.provision 4) ∧ e.store.op = 9 ∧
          e.store.queue = st.queue ++ (upTo 4).map (fun k =>
            .imm (first + k) ((st.bufBytes.drop (8 * k)).take 8) true))))

/-- R224, R231, R232, R234 and Table 8.4, the ends of the commands: ERASE leaves its bank empty, WRITE has put its
bytes, SEAL marks the bank COMPLETE where its checks hold and answers BAD_IMAGE (7) otherwise, and each sets RESULT,
clears BUSY and is a commit point where it succeeds. ABORT ends an ERASE, whose bank is WRITING, a WRITE, of which the words done stay, a
SEAL, a switch or a host transaction with ABORTED (0xB). -/
def Obligations.StoreCommandsEnd : Prop :=
  ∀ (b : Bool) (s : State), Logged s.dev →
    let d := s.dev
    let st := d.store
    let x := st.bank b
    (st.busy = some (.erase b) →
      Becomes .eraseComplete s (commitPoint { d with store := { (st.setBank b Bank.blank) with progress := 100 } } 1) ∧
      (∀ n, Becomes (.storeAbort n) s (storeAnswer
        { d with store := { (st.setBank b { x with mode := .writing }) with busy := none } } 1 0xB))) ∧
    (∀ ofs bs, st.busy = some (.write b ofs bs) →
      Becomes .storeWriteComplete s (commitPoint { d with store := st.setBank b (x.put ofs bs) } 2) ∧
      (∀ n, Becomes (.storeAbort n) s (storeAnswer
        { d with store := { (st.setBank b (x.put ofs (bs.take (4 * n)))) with busy := none } } 2 0xB))) ∧
    (st.busy = some (.seal b) →
      (x.sealOk = true → Becomes .sealComplete s (commitPoint { d with store :=
        { (st.setBank b { x with mode := .complete }) with progress := 100 } } 3)) ∧
      (x.sealOk = false → Becomes .sealComplete s (storeAnswer { d with store := { st with busy := none } } 3 7)) ∧
      (∀ n, Becomes (.storeAbort n) s (storeAnswer { d with store := { st with busy := none } } 3 0xB))) ∧
    (st.busy = none → st.sw ≠ .idle → ∀ n,
      Becomes (.storeAbort n) s (storeAnswer { d with store := { st with sw := .idle } } 4 0xB)) ∧
    (st.busy = none → st.sw = .idle → st.txn.isSome = true → ∀ n,
      Becomes (.storeAbort n) s (storeAnswer { d with store := { st with txn := none } } 6 0xB))

/-- R233, R234, R236: a candidate that fails its checks ends the switch with VERIFY_FAILED (0xA) and its cause; one
that passes is armed for the boundary asked for where that lies ahead, TOO_LATE (9) is answered where it does not, and
WRONG_STATE (5) where the network number that it is asked for in is not known. At step 5 of the armed boundary the
candidate becomes ACTIVE, the bank record names it and its image takes over. -/
def Obligations.SwitchVerifiedAndMade : Prop :=
  ∀ (b : Bool) (s : State),
    (∀ at' warm net asap, s.dev.store.sw = .verifying b at' warm net asap → Completes .switchVerified s (fun d =>
      match (s.dev.attempt b false).2 with
      | (none, c) => d.store.sw = .idle ∧ d.store.result = 0xA ∧ d.store.vfyCause = BitVec.ofNat 8 c
      | (some m, _) =>
        match s.dev.switchAt m at' net asap with
        | none => d.store.sw = .idle ∧ d.store.result = 5
        | some t =>
          let ahead := (t + 2 ^ 32 - s.dev.ms % 2 ^ 32) % 2 ^ 32
          if ahead = 0 ∨ 2 ^ 31 ≤ ahead then
            d.store.sw = .idle ∧ d.store.result = 9
          else d.store.sw = .armed b t warm m ∧ d.store.result = 1 ∧ d.store.swAt = BitVec.ofNat 32 t)) ∧
    (∀ t warm m, s.dev.store.sw = .armed b t warm m → t = s.dev.ms % 2 ^ 32 →
      Completes .bankSwitch s (fun d => d.image = m ∧ d.store.sw = .idle ∧ d.store.record = some b ∧
        (d.store.bank b).mode = .active ∧ (d.store.bank (!b)).mode ≠ .active))

/-- R241, R242, R244, R247, R248, R253: the write at the front of the larder's queue reaches its home group and counts in the
wear of its block; one that cannot be read back moves to the next spare group, which the group keeps, with the same row of
the remap table in both its copies and nothing else changed; with no spare left the group is failed and nothing is
written. A journaled transaction makes its next group write: a group of its record, its mark or a copy home. R231, R251: a
host transaction is queued by TXN_COMMIT as one journaled transaction with the next sequence number and place. At every 65,536th milestone the wear counters are written back,
each as its own group (the layout is log 23). -/
def Obligations.LarderWritesLand : Prop :=
  ∀ s : State,
    (∀ g bs rest, s.dev.store.queue = .imm g bs false :: rest → bs.length = 8 →
      Completes (.larderWriteComplete true) s (fun d =>
        d.store.home = Mem.writeBytes larderByte s.dev.store.home (8 * g) bs ∧
        d.store.wearOf (g / 64) = s.dev.store.wearOf (g / 64) + 1) ∧
      (s.dev.store.spares = 0 → Completes (.larderWriteComplete false) s (fun d =>
        g ∈ d.store.failed ∧ d.store.noSpare = true ∧ d.store.home = s.dev.store.home)) ∧
      (s.dev.store.spares ≠ 0 → Memory.wf larderByte s.dev.store.home = true →
        Completes (.larderWriteComplete false) s (fun d =>
          let k := 2048 - s.dev.store.spares
          d.store.cells g = bs ∧ d.store.spares = s.dev.store.spares - 1 ∧ d.store.remap = (g, k) :: s.dev.store.remap ∧
          (g < 0x200 ∨ 0x600 ≤ g → d.store.cells (0x200 + k / 4) = d.store.remapGroup (k / 4) ∧
            d.store.cells (0x400 + k / 4) = d.store.remapGroup (k / 4)) ∧
          ∀ a, a / 8 ≠ g → a / 8 ≠ 0x200 + k / 4 → a / 8 ≠ 0x400 + k / 4 →
            Mem.read larderByte d.store.home a = Mem.read larderByte s.dev.store.home a))) ∧
    (∀ t rest, s.dev.store.queue = .txn t :: rest → t.done + 1 < t.writes → Completes (.larderWriteComplete true) s (fun d =>
      d.store.home = Mem.writeBytes larderByte s.dev.store.home (8 * t.next.1) t.next.2 ∧
      d.store.wearOf (t.next.1 / 64) = s.dev.store.wearOf (t.next.1 / 64) + 1 ∧
      d.store.queue.head? = some (.txn { t with
        done := t.done + 1, old := if t.marked then t.old ++ [(t.next.1, s.dev.store.cells t.next.1)] else t.old }))) ∧
    (∀ t reg gs, s.dev.store.isBusy = false → s.dev.store.txn = some t → s.dev.store.failed = [] → t.groups ≠ [] → Logged s.dev →
      s.dev.image.region t.region = some reg → gs = t.groups.map (fun p => (reg.base + p.1, p.2)) →
      Becomes .txnCommit s { s.dev with store := { s.dev.store with
        txn := none, op := 8, busy := some .commit, hostLost := false
        queue := s.dev.store.queue ++ [.txn { owner := reg.owner, seq := s.dev.store.journalSeq, place := s.dev.store.journalAt
                                              groups := gs, done := 0, host := true, old := [] }]
        journalSeq := (s.dev.store.journalSeq + 1) % 2 ^ 32
        journalAt := (s.dev.store.journalAt + recordLength t.groups.length + 1) % 2048
        lost := s.dev.store.lost.filter (fun g => !(gs.any (fun p => p.1 == g))) } }) ∧
    (s.dev.ms % 65536 = 0 → s.dev.ms ≠ 0 → s.dev.store.failed = [] →
      Completes .wearWriteback s (fun d => ∀ blk < 480, d.store.group (0xC00 + blk) =
        leBytes 8 (s.dev.store.wearOf blk)))

/-! ## The converters and the sensing front ends -/

/-- R309 to R312, R306, the steps of a script: SAMPLE and AVERAGE convert on the ticks that the slot owns and leave
ring entries, WAIT moves the cursor, REPEAT goes back COUNT times, MARK leaves a marker, END ends the run, and GSAMPLE
converts the hold of its group's trigger; each goes on to the next step and nothing else changes. -/
def Obligations.ScriptStepsRun : Prop :=
  ∀ (n : Fin 16) (r : ScriptRun) (sc : Script) (st : ScriptStep) (s : State), Logged s.dev → AtStep s.dev n r sc st →
    let d := s.dev
    let x := d.mando.slots[n]
    let own := fun k => d.ownTicks (n.val / 4) (n.val % 4) k r.cursor
    (st.op = 0 → Becomes (.scriptEnd n) s (withSlot d n { x with run := some { r with ended := some r.last } })) ∧
    (∀ (vs : List SampleIn) ts t count, st.op = 1 → d.slotOnline n.val = true → count = stepValue r st 1 65535 →
      ts = own (count - r.taken) → vs.length = ts.length → ts.getLast? = some t →
      Becomes (.scriptSample n vs) s (withSlot d n { x with
        run := some (if r.taken + ts.length = count then nextStep sc (behind d n { r with taken := 0 } t)
          else behind d n { r with taken := r.taken + ts.length } t)
        pend := x.pend ++ (List.zip ts vs).map (fun p => entryAt d n p.1 (sampleWord r (d.sampleOf (n.val / 4) p.1 p.2))) })) ∧
    (∀ (vs : List SampleIn) ts t a all, st.op = 2 → d.slotOnline n.val = true →
      a = (if st.param then stepValue r st 0 10 else st.value % 16) → ts = own (2 ^ a - r.taken) → vs.length = ts.length →
      ts.getLast? = some t → all = r.held ++ (List.zip ts vs).map (fun p => d.sampleOf (n.val / 4) p.1 p.2) →
      (r.taken + ts.length = 2 ^ a → Becomes (.scriptAverage n vs) s (withSlot d n { x with
        run := some (nextStep sc (behind d n { r with taken := 0, held := [] } t))
        pend := x.pend ++ [entryAt d n t (ringWord (averageOf a (all.map (·.value))).1 r.step (all.any (·.gap))
          (averageOf a (all.map (·.value))).2 false r.number)] })) ∧
      (r.taken + ts.length ≠ 2 ^ a → Becomes (.scriptAverage n vs) s (withSlot d n { x with
        run := some (behind d n { r with taken := r.taken + ts.length, held := all } t) }))) ∧
    (st.op = 3 → d.slotOnline n.val = true → Becomes (.scriptWait n) s (withSlot d n { x with run := some (nextStep sc
      { r with cursor := d.tickNorm (n.val / 4) { r.cursor with
          j := r.cursor.j + stepValue r st 1 16777215 } }) })) ∧
    (∀ count done, st.op = 4 → st.param = false → count = st.value / 2 ^ 16 % 2 ^ 16 →
      done = (mapFind r.repeats r.step).getD 0 →
      Becomes (.scriptRepeat n) s (withSlot d n { x with run := some (
        if done < count then { r with step := st.value % 32, repeats := mapPut r.repeats r.step (done + 1) }
        else nextStep sc { r with repeats := r.repeats.filter (fun p => p.1 ≠ r.step) }) })) ∧
    (∀ t, st.op = 5 → t = d.cursorOf n.val r → d.begun t = true → Becomes (.scriptMark n) s (withSlot d n { x with
      run := some (nextStep sc { r with cursor := t, last := d.tickAt (n.val / 4) t })
      pend := x.pend ++ [entryAt d n t (ringWord ((r.params.getD (st.value % 16) 0).toNat % 65536) r.step false false
        true r.number)] })) ∧
    (∀ (v : SampleIn) h t, st.op = 7 → d.slotOnline n.val = true → r.waiting = some h → d.holdTick n.val h r = some t →
      Becomes (.scriptGsample n v) s (withSlot d n { x with
        run := some (nextStep sc { behind d n r t with waiting := none })
        pend := x.pend ++ [entryAt d n t (sampleWord r (d.sampleOf (n.val / 4) t v))] }))

/-- R310, R314, R306: a start that waits begins the run at its tick, or is ignored and counted where a run is in
progress; an abort ends the run and drops its entries from its instant on; FIRE triggers its group, of which every
waiting member takes the hold, unless an earlier hold is not yet converted, which MISSED counts. -/
def Obligations.ScriptsStartAbortAndFire : Prop :=
  ∀ (n : Fin 16) (s : State), Logged s.dev →
    let d := s.dev
    let x := d.mando.slots[n]
    (∀ t, x.starting = some t → x.run = none → Becomes (.scriptStart n) s (withSlot d n { x with
      starting := none, mode := .running, dba := false, runNo := x.runNo + 1
      run := some { cursor := t, step := 0, repeats := [], params := x.par.toList, number := x.runNo % 256,
                    last := d.tickAt (n.val / 4) t, waiting := none, ended := none, taken := 0, held := [] } })) ∧
    (∀ t r, x.starting = some t → x.run = some r → r.ended = none →
      Becomes (.scriptStart n) s (withSlot d n { x with starting := none, ignored := satInc x.ignored })) ∧
    (∀ h r, x.aborting = some h → x.run = some r → r.ended = none →
      Becomes (.scriptAbort n) s (withSlot d n { x with
        armed := false, starting := none, aborting := none, run := none, mode := .aborted, dba := false
        pend := x.pend.filter (fun e => e.instant < h) })) ∧
    (∀ r sc st t, AtStep d n r sc st → st.op = 6 → t = d.cursorOf n.val r → d.begun t = true →
      let g := d.mando.groups[st.value % 4]'(Nat.mod_lt _ (by decide))
      let h := d.tickAt (n.val / 4) t
      g.used = true → Completes (.scriptFire n) s (fun e =>
        e.mando.slots[n] = { x with run := some (nextStep sc { r with cursor := t, last := h }) } ∧
        (if ∃ m : Fin 16, g.members.testBit m.val = true ∧ d.holds m.val (st.value % 4) = true then
          e.mando.groups[st.value % 4]'(Nat.mod_lt _ (by decide)) = { g with missed := satInc g.missed }
         else
          (e.mando.groups[st.value % 4]'(Nat.mod_lt _ (by decide))).fires = satInc g.fires ∧
          ∀ m : Fin 16, m ≠ n → (e.mando.slots[m]).run =
            if g.members.testBit m.val = true ∧ d.waitsFor m.val (st.value % 4) h = true then
              ((d.mando.slots[m]).run).map (fun q => { q with waiting := some h })
            else (d.mando.slots[m]).run)))

/-- R292, R294, R295: where the calibration interval has expired the spare takes the position that is next; the slice it frees
takes the coefficients of an accepted calibration and becomes the spare, a failed one is counted and repeated, and the third in a
row retires the slice with cause 1; a slice that stalls at its tick is retired with cause 2, and the spare takes its position. -/
def Obligations.SlicesExchanged : Prop :=
  ∀ (k : Fin 4) (s : State),
    let c := s.dev.mando.conv[k]
    s.dev.convUsable k.val = true → c.failed = false →
    (∀ (sp old : Fin 9) (r : CalEnv), c.freed = none → c.idleCal = none → c.spare = some sp.val → c.atPos c.next = some old.val →
      c.expiry < s.dev.wmStart (s.dev.time.wm + 1) → Completes (.calibrationRotation k r) s (fun d =>
        let e := d.mando.conv[k]
        (e.slices[sp]).duty = .active ∧ (e.slices[sp]).pos = c.next ∧ (e.slices[old]).duty = .idle ∧ e.freed = some old.val ∧
        e.next = (c.next + 1) % c.w ∧ e.exchanges = satInc c.exchanges ∧
        e.expiry = c.expiry + c.interval.toNat * 1000000)) ∧
    (∀ (f : Fin 9) (r : CalEnv), c.freed = some f.val → (c.slices[f]).duty = .idle →
      (Placed c → Accepted r.result → Completes (.calibrationRotation k r) s (fun d =>
        let e := d.mando.conv[k]
        (e.slices[f]).duty = .spare ∧ (e.slices[f]).attempts = 0 ∧ (e.slices[f]).fails = (c.slices[f]).fails ∧
        (e.slices[f]).coef = { offset := r.result.offset, gain := r.result.gain, skew := r.result.skew } ∧ e.freed = none)) ∧
      (¬Accepted r.result → (c.slices[f]).attempts.toNat < 2 → Completes (.calibrationRotation k r) s (fun d =>
        d.mando.conv[k] = { c with slices := c.slices.set f { c.slices[f] with
          attempts := (c.slices[f]).attempts + 1, fails := satInc (c.slices[f]).fails } })) ∧
      (¬Accepted r.result → 2 ≤ (c.slices[f]).attempts.toNat → Completes (.calibrationRotation k r) s (fun d =>
        let e := d.mando.conv[k]
        (e.slices[f]).duty = .retired ∧ (e.slices[f]).cause = 1 ∧ (e.slices[f]).fails = satInc (c.slices[f]).fails ∧
        e.freed = none ∧ d.sys.recorded = BitVec.ofNat 32 (s.dev.sys.recorded.toNat + 1)))) ∧
    (∀ (sp j : Fin 9) (at' : Nat), Placed c → c.spare = some sp.val → (c.slices[j]).duty = .active →
      s.dev.tickPosition k.val at' = some (c.slices[j]).pos → Completes (.sliceStall k j at') s (fun d =>
      let e := d.mando.conv[k]
      (e.slices[sp]).duty = .active ∧ (e.slices[sp]).pos = (c.slices[j]).pos ∧ (e.slices[j]).duty = .retired ∧
      (e.slices[j]).cause = 2 ∧ (e.slices[j]).fails = satInc (c.slices[j]).fails ∧
      d.sys.recorded = BitVec.ofNat 32 (s.dev.sys.recorded.toNat + 1)))

/-- R300, R304, R332: a crossing that is enabled, owned and powered asserts where its input passes the threshold, is counted and
captured, and deasserts with a capture where the input is back beyond the hysteresis; a digital input whose new level has stood for FILTER's count of samples changes, with its element and
a capture entry. -/
def Obligations.CrossingsAndInputsCaptured : Prop :=
  ∀ (s : State) (stamp : Nat),
    (∀ (i : Fin 16) (level : Nat), s.dev.cxArmed i.val = true → AssertsAt (s.dev.mando.cx[i]) level →
      Completes (.crossingAssert i stamp level) s (fun d =>
      d.mando.cx[i] = { s.dev.mando.cx[i] with state := true, asserts := satInc (s.dev.mando.cx[i]).asserts } ∧
      Captured s.dev d (0x010 + i.val) (stamp / 1000) true)) ∧
    (∀ (i : Fin 16) (level : Nat), (s.dev.mando.cx[i]).state = true → DeassertsAt (s.dev.mando.cx[i]) level →
      Completes (.crossingDeassert i stamp level) s (fun d =>
      d.mando = { s.dev.mando with cx := s.dev.mando.cx.set i { s.dev.mando.cx[i] with state := false } } ∧
      Captured s.dev d (0x010 + i.val) (stamp / 1000) false)) ∧
    (∀ (i : Fin 8) (level : Bool) (run : Nat), 4 ^ (s.dev.sense.di[i]).filter.toNat ≤ run →
      (s.dev.sense.di[i]).level ≠ level → Completes (.diLevelChange i level stamp run) s (fun d =>
        d.sense = { s.dev.sense with di := s.dev.sense.di.set i { s.dev.sense.di[i] with level := level } } ∧
        mapFind d.cycle.inputs (elemKey i.val 0) = some (truth ((level ^^ (s.dev.sense.di[i]).inv) = true)) ∧
        Captured s.dev d i.val stamp (level ^^ (s.dev.sense.di[i]).inv)))

/-- R321, R322: at waymark 4 each reading of the sequence is the mean of the last 16 of its 20 samples. R337, R338: in
RUN each due I²C transaction leaves how it ended, a failed write stands for the read that follows, after a STUCK with
SDA low the next is SKIPPED (5), and a clock held low ends a transaction with TIMEOUT (4), counted; a write that succeeds puts the
address and every byte of WR between START and STOP. -/
def Obligations.ReadingsAndTransactions : Prop :=
  ∀ s : State, Logged s.dev →
    let d := s.dev
    (∀ vs : List (List Int), d.image.sensing = true → d.convUsable 3 = true → d.convFailed 3 = false → d.time.wm = 4 →
      vs.length = (senseOrder d.image.senseCfg).length → (∀ l ∈ vs, l.length = 20) →
      Completes (.senseSequence vs) s (fun e => ∃ r, e.sense = { d.sense with taken := some r } ∧
        r.range = d.sense.lightRange ∧ r.at' = d.scriptInstant ∧
        ∀ (i : Nat) k l, (senseOrder d.image.senseCfg)[i]? = some k → vs[i]? = some l →
          readingOf r k = (averageOf 4 (l.drop 4)).1)) ∧
    (∀ (x : Fin 8) (e : I2cEnd), d.sys.mode = .run →
      (8 ≤ d.time.wm → d.time.wm < 120 → d.i2cWrites = [x.val] → Completes (.i2cWritePhase [e]) s (fun f =>
        (f.sense.i2c[x]).writeFail = (if e.code = 0 then none else some e.code) ∧
        (e.code = 0 → ∀ c, d.image.i2c x.val = some c → byteAt c 3 ≤ 4 → (f.sense.i2c[x]).wire =
          .start :: .tx (BitVec.ofNat 8 (2 * byteAt c 1)) :: ((c.drop 4).take (byteAt c 3)).map I2cSym.tx ++ [.stop]))) ∧
      (∀ y : Fin 8, x ≠ y → 8 ≤ d.time.wm → d.time.wm < 120 → d.i2cWrites = [x.val, y.val] → e.code = 3 → e.sdaLow = true →
        ∀ e2, Completes (.i2cWritePhase [e, e2]) s (fun f => (f.sense.i2c[x]).writeFail = some 3 ∧
          (f.sense.i2c[y]).writeFail = some 5 ∧ f.sense.stuck = satInc d.sense.stuck)) ∧
      (128 ≤ d.time.wm → d.time.wm < 248 → d.i2cReads = [x.val] →
        ((d.sense.i2c[x]).writeFail = none → Completes (.i2cReadPhase [e]) s (fun f =>
          (f.sense.i2c[x]).outcome = some (e.code, e.data))) ∧
        (∀ c, (d.sense.i2c[x]).writeFail = some c → Completes (.i2cReadPhase [e]) s (fun f =>
          (f.sense.i2c[x]).outcome = some (c, []) ∧ (f.sense.i2c[x]).writeFail = none))) ∧
      (∀ (bytes : Nat) c h, d.image.i2c x.val = some c → h = { code := 4, bytes, sdaLow := false, data := [] } →
        (x.val ∈ d.i2cWrites → Becomes (.i2cTimeout x false bytes) s { d with sense := { d.sense with
          timeout := satInc d.sense.timeout
          i2c := d.sense.i2c.set x { d.sense.i2c[x] with
            wire := i2cWire c false h, fast := byteAt c 2 = 1, writeFail := some 4 } } }) ∧
        (x.val ∈ d.i2cReads → Becomes (.i2cTimeout x true bytes) s { d with sense := { d.sense with
          timeout := satInc d.sense.timeout
          i2c := d.sense.i2c.set x { d.sense.i2c[x] with
            wire := i2cWire c true h, fast := byteAt c 2 = 1, outcome := some (4, []) } } })))

/-! ## The Hefen Line -/

/-- R346, R368, R375, R379: a written LINE.PHY_CFG takes effect at a milestone boundary with no frame in progress; a
carrier outside a frame known to last is stamped with the noise level; the band of R379 follows its level; a tone
preamble with a LEN of 1 to 32 starts a reception where none lasts, and one stronger by 8.00 dB captures the receiver before the last
symbol of the frame received. R365: a carrier preamble 128 waymarks ± 150 µs behind burst 0 of a robust frame is its second header. -/
def Obligations.LineMediumFollowed : Prop :=
  ∀ s : State, Logged s.dev →
    let d := s.dev
    let l := d.line
    (∀ w, l.cfgPend = some w → d.time.wm = 0 → l.tx = none → l.rx = none →
      Becomes .phyCfgApply s { d with line := { l with cfg := w, cfgPend := none } }) ∧
    (d.rxReady = true →
      (∀ at' noise, l.busyUntil ≤ at' →
        Becomes (.carrierDetect at' noise) s { d with line := { l with noise := noise, carrierAt := some at' } }) ∧
      Becomes .bandInUse s { d with line := { l with bandUse := true } } ∧
      Becomes .bandNotInUse s { d with line := { l with bandUse := false } } ∧
      (∀ p : PreambleEnv, p.tone = true → 1 ≤ p.toneLen → p.toneLen ≤ 32 → l.tx = none →
        let inputs := l.combine p.inputs
        let level := rssiOf inputs p.inputs
        let heard := fun (x : LineState) => { x with
          rx := some { mode := .tone, tmid := 0, len := p.toneLen, codes := [], classB := false, inputs, rssi := level
                       start := p.first, mark := p.mark, copy := false, other := none }
          carrierAt := none, busyUntil := max x.busyUntil (p.first + (24 + 4 * p.toneLen) * 1000000) }
        (l.rx = none → Becomes (.preambleDetect p) s { d with line := heard l }) ∧
        (∀ r, l.rx = some r → d.rxEnds r ≤ p.first → Becomes (.preambleDetect p) s { d with line := heard l }) ∧
        (∀ r, l.rx = some r → p.first < d.rxLast r →
          (r.rssi + 32 ≤ level →
            Becomes (.preambleDetect p) s { d with line := heard { l with captured := satInc l.captured } }) ∧
          (level < r.rssi + 32 → Becomes (.preambleDetect p) s d))) ∧
      (∀ (p : PreambleEnv) r, p.tone = false → l.tx = none → l.rx = some r → r.mode = .rob4 ∨ r.mode = .rob6 → r.copy = false →
        r.other = none → ((p.first : Int) - (d.plusWm r.start 128 : Int)).natAbs ≤ 150000 →
        Becomes (.preambleDetect p) s { d with line := { l with
          rx := some { r with other := some (p.first, (headerBanner r.inputs p.header).isSome) } } }))

/-- R369, R373, R376, R384: at a frame start other than the first, with no repeat and no convoy frame due, the node
sends the queued frame whose turn it is, under the next LSEQ, sealed, or holds it back and counts TX_DEFER where the
medium is busy; at its last burst's end the frame is counted and its ACK awaited. -/
def Obligations.FramesSent : Prop :=
  ∀ (k : Fin 8) (rnd : Nat) (s : State),
    let d := s.dev
    (∀ c, k ≠ 0 → d.time.wm = 32 * k.val → d.rxReady = true → d.lineSilent = false → d.line.rep = none →
      d.dueConvoy k.val = none → d.dueQueued k.val rnd = some c →
      (d.busyAt (d.wmStart (32 * k.val)) = false → Completes (.frameStart k rnd none) s (fun e =>
        let lseq := (d.line.lseq.toNat + 1) % 2 ^ 32
        e.line.lseq = BitVec.ofNat 32 lseq ∧ e.line.queue = d.line.queue.filter (fun q => q ≠ c.frame) ∧
        ∃ t, e.line.tx = some t ∧ t.frame = d.onAir c.frame ∧ t.lseq = lseq ∧
          t.bytes = d.macBytes { c with frame := d.onAir c.frame } lseq ∧
          t.first = d.wmStart (32 * k.val) + (18 + 23 * c.slot) * 10000 / 3 + 50000)) ∧
      (d.busyAt (d.wmStart (32 * k.val)) = true → Completes (.frameStart k rnd none) s (fun e =>
        e.line = { d.line with txDefer := satInc d.line.txDefer }))) ∧
    (∀ t, Logged d → d.line.tx = some t → Becomes .frameSent s { d with line := { d.line with
      tx := none, ownEnd := some t.ends, txFrames := satInc d.line.txFrames
      awaits := d.line.awaits ++ (if t.frame.ackreq then
        [{ lseq := t.lseq, deadline := t.ackBy, frame := t.frame }] else []) } })

/-- R387 to R391, R398, R400: what an accepted unicast frame does. ACK confirms the frame awaited; MAP_ASK is answered
with the tone map of its SNR; MAP_OFFER becomes the map towards its sender; the junction enters a joining member and
answers; JOIN_ACC joins the member or reports ADDR_CLASH; PROBE reports the reply to an own probe and is returned
otherwise. -/
def Obligations.UnicastFramesTakeEffect : Prop :=
  ∀ (e : RxEnd) (f : RxFrame) (s : State) (d1 : Dev) (m : Mac),
    (∀ a, s.dev.receive 3 e = (d1, some (f, m)) → m.body.length = 4 →
      d1.line.awaits.find? (fun a => a.lseq == leNat m.body && a.frame.ldst == m.lsrc) = some a →
      Completes (.ackFrame e) s (fun z => z.line = { d1.line with
        awaits := d1.line.awaits.filter (fun b => b.lseq ≠ leNat m.body) })) ∧
    (∀ q, s.dev.receive 4 e = (d1, some (f, m)) → 10 ≤ mapOn (codesFromSnr f.snr) →
      q = toNeighbour d1 5 1 .rob4 m.lsrc (BitVec.ofNat 8 d1.line.freeTmid ::
        leBytes 10 ((codesFromSnr f.snr).reverse.foldl (fun v c => 4 * v + c) 0)) → Fits d1 q →
      Completes (.mapAsk e) s (fun z => z.line.queue = queued d1 q ∧ ∀ n ∈ z.line.neigh, n.addr = m.lsrc →
        n.issued = some { tmid := d1.line.freeTmid, codes := codesFromSnr f.snr })) ∧
    (s.dev.receive 5 e = (d1, some (f, m)) → m.body.length = 11 → (offeredMap m.body).tmid ≠ 0 →
      10 ≤ mapOn (offeredMap m.body).codes → Completes (.mapOffer e) s (fun z => z.line = { d1.line with
        neigh := d1.line.neigh.map (fun n => if n.addr = m.lsrc then
          { n with mapTo := some (offeredMap m.body), mapAt := s.dev.si, step := 1 } else n) })) ∧
    (s.dev.receive 6 e = (d1, some (f, m)) → m.body.length = 12 → byteAt m.body 11 = 0 → s.dev.junction = true → m.sr = none →
      (∀ x ∈ s.dev.line.members, x.addr = m.osrc → x.uid = leAt m.body 0 8) →
      frameNs .rob4 map0.codes s.dev.classB 33 s.dev.time.msLen ≤ 1000000000 →
      Completes (.joinReq e) s (fun z =>
        z.line.members = { addr := m.osrc, uid := leAt m.body 0 8, path := [], hop := byteAt m.body 9, heard := s.dev.ms } ::
          d1.line.members.filter (fun x => x.addr ≠ m.osrc) ∧
        ∃ q ∈ z.line.queue, q.ftype = 7 ∧ q.fdst = m.osrc ∧ q.ldst = m.osrc ∧ q.body = leBytes 8 (leAt m.body 0 8) ++ [0])) ∧
    (s.dev.receive 7 e = (d1, some (f, m)) → m.body.length = 9 → leAt m.body 0 8 = Config.uid.toNat →
      (byteAt m.body 8 = 0 → Completes (.joinAcc e) s (fun z =>
        z.line = { d1.line with joined := true, addrClash := false })) ∧
      (byteAt m.body 8 = 1 → Completes (.joinAcc e) s (fun z => z.line = { d1.line with addrClash := true }))) ∧
    (s.dev.receive 11 e = (d1, some (f, m)) →
      (s.dev.line.probe = 1 → s.dev.line.probeDst = m.lsrc → Completes (.probe e) s (fun z => z.line = { d1.line with
        probe := 2, probeMargin := BitVec.ofInt 8 (s.dev.line.margin f), probeRssi := BitVec.ofNat 16 f.rssi })) ∧
      (∀ q, s.dev.line.probe ≠ 1 → q = { toNeighbour d1 11 1 .tone m.lsrc [] with due := f.ends + 2000000 } → Fits d1 q →
        Completes (.probe e) s (fun z => z.line = { d1.line with
          eseq := d1.line.eseq + 1, queue := queued d1 q })))

/-- R55, R394, R396, R407, R409, R432, what an accepted beacon, broadcast or TUNNEL frame does. A beacon gives a
member the network offset; a TIME frame its SI offset; a courier contribution waits for step 7 and a convoy
contribution for the milestone it is stamped for; a tunnelled request is answered through the tunnel, and a close from
the junction frees the seat. -/
def Obligations.NetworkFramesTakeEffect : Prop :=
  ∀ (e : RxEnd) (f : RxFrame) (env : SeatEnv) (s : State) (d1 : Dev) (m : Mac),
    let d := s.dev
    (∀ b x d0, d.received e = (d0, some f) → d.line.key.all (· == 0) = false → parseBeacon f.bytes = some b →
      b.netId = d.line.params.netId.toNat →
      ccmOpen d.line.key (beaconNonce (f.bytes.take (f.bytes.length - 8))) (f.bytes.take (f.bytes.length - 8)) []
        (f.bytes.drop (f.bytes.length - 8)) = some x →
      d.junction = false → Completes (.beacon e) s (fun z =>
        z.time.netValid = true ∧ z.time.junctionAge = 0 ∧
        z.time.netOfs = BitVec.ofInt 48 ((b.ms : Int) -
          ((d.ms : Int) + divRoundUp (d.senderStart b f - (d.time.msStart : Int)) (max d.time.msLen 1))) ∧
        (b.locked = true → z.time.beacon = true ∧ z.time.beaconAge = 0))) ∧
    (∀ own, d.receive 2 e = (d1, some (f, m)) → m.body.length = 14 → d.junction = false → d.time.netValid = true →
      d.time.starts[(d.ms + 2 ^ 48 - (leAt m.body 0 6 + 2 ^ 48 - d.time.netOfs.toNat) % 2 ^ 48) % 2 ^ 48]? = some own →
      Completes (.timeFrame e) s (fun z => z.time.siValid = true ∧
        z.time.siOfs = BitVec.ofInt 64 ((leAt m.body 6 8 : Int) - ((own / 1000 : Nat) : Int)))) ∧
    (∀ x, d.receive 8 e = (d1, some (f, m)) → d.image.group (byteAt m.body 0) = some x → x.convoy = false →
      x.elemsOf m.osrc ≠ [] → m.body.length = 3 + 4 * (x.elemsOf m.osrc).length →
      Completes (.courier e) s (fun z => z.line.courierIn = d1.line.courierIn ++
        [(byteAt m.body 0, m.osrc, leAt m.body 1 2, wordsOf (m.body.drop 3))])) ∧
    (∀ (g : BitVec 8) x vs, d.receive 9 e = (d1, some (f, m)) → d.image.group g.toNat = some x → x.convoy = true →
      vs.length = 4 * (x.elemsOf m.osrc).length → m.body = leBytes 2 (x.nextDue d1.netMs % 65536) ++ g :: vs →
      Completes (.convoy e) s (fun z => z.line = { d1.line with
        convoyIn := d1.line.convoyIn ++ [(g.toNat, m.osrc, x.nextDue d1.netMs, wordsOf vs)] })) ∧
    (∀ ch : BitVec 8, d.receive 10 e = (d1, some (f, m)) → m.osrc = 0 →
      (∀ inner cmd q, m.body = ch :: 1 :: inner → parseRequest inner = some (cmd, q) →
        let out := d1.seatAny (.remote ch.toNat) cmd q env
        Completes (.tunnel e env) s (fun z => z.line = (out.2.sendTunnel 0 ch.toNat 2 out.1.bytes).line ∧
          z.seat.holder = out.2.seat.holder ∧ z.seat.priv = out.2.seat.priv)) ∧
      (m.body = [ch, 3] → d1.seat.holder = .remote ch.toNat → Completes (.tunnel e env) s (fun z =>
        z.seat.holder = .free ∧ z.seat.priv = false)))

/-- R387, R390, R391, R398, R400, R407, what the Line does in time and by command: a frame not acknowledged goes one
step down the ladder, or after the fourth is dropped with its link; an aged tone map is asked for again; a JOIN_REQ is
repeated every 64 milestones; PROBE_GO sends a probe, which 16 milestones without a reply end with NONE; JCLR frees a
member's entry; a producer that is silent for STALE_N periods leaves its elements STALE. -/
def Obligations.LineTimesOut : Prop :=
  ∀ s : State, Logged s.dev →
    let d := s.dev
    let l := d.line
    (∀ (lseq : Nat) a, l.awaits.find? (fun a => a.lseq == lseq) = some a → a.deadline ≤ d.time.now →
      (4 ≤ a.frame.step → l.parent ≠ some a.frame.ldst → Becomes (.ackTimeout lseq) s { d with line := { l with
        awaits := l.awaits.filter (fun b => b.lseq ≠ lseq), ackFail := satInc l.ackFail
        neigh := l.neigh.map (fun n => if n.addr = a.frame.ldst then { n with mapTo := none } else n)
        routes := l.routes.filter (fun r => r.next ≠ a.frame.ldst) } }) ∧
      (a.frame.step < 4 → Fits d { a.frame with step := a.frame.step + 1, slot := none } →
        Becomes (.ackTimeout lseq) s { d with line := { l with
          awaits := l.awaits.filter (fun b => b.lseq ≠ lseq)
          queue := queued d { a.frame with step := a.frame.step + 1, slot := none } } })) ∧
    (∀ (n : BitVec 12) x, l.neighbour n.toNat = some x → x.mapTo.isSome = true → x.mapAt + l.refreshUs ≤ d.si →
      Fits d (toNeighbour d 4 1 .rob4 n.toNat []) → Becomes (.mapRefresh n) s { d with line := { l with
        eseq := l.eseq + 1, queue := queued d (toNeighbour d 4 1 .rob4 n.toNat []) } }) ∧
    (d.junction = false → l.joined = false → d.lineSilent = false → l.joinNext ≤ d.ms → l.joinNext ≠ 0 →
      Completes .joinRetry s (fun e => e.line.joinNext = d.ms + 64 ∧
        (∀ p, l.parent = some p → frameNs .rob4 map0.codes d.classB 36 d.time.msLen ≤ 1000000000 →
          ∃ q ∈ e.line.queue, q.ftype = 6 ∧ q.fdst = 0 ∧ q.ldst = p ∧ q.body.take 8 = leBytes 8 Config.uid.toNat))) ∧
    (∀ dst : BitVec 12, Fits d (toNeighbour d 11 1 .tone dst.toNat []) →
      Becomes (.probeGo dst) s { d with line := { l with
        eseq := l.eseq + 1, queue := queued d (toNeighbour d 11 1 .tone dst.toNat [])
        probe := 1, probeDst := dst.toNat, probeAt := d.ms } }) ∧
    (l.probe = 1 → l.probeAt + 16 ≤ d.ms → Becomes .probeTimeout s { d with line := { l with probe := 3 } }) ∧
    (∀ a : BitVec 12, d.junction = true → Becomes (.jclr a) s { d with line := { l with
      members := l.members.filter (fun m => m.addr ≠ a.toNat) } }) ∧
    (∀ (g : BitVec 8) (p : BitVec 12) x, d.image.group g.toNat = some x → x.convoy = false → p.toNat ≠ d.addr →
      (pairFind l.lastFrom (g.toNat, p.toNat)).getD 0 + x.staleN * 2 ^ x.e ≤ d.ms →
      Completes (.courierStale g p) s (fun e => e.cycle.inputs = d.cycle.inputs ∧
        ∀ k, k ∈ e.cycle.stale ↔ k ∈ d.cycle.stale ∨
          ∃ i ∈ x.elemsOf p.toNat, k = elemKey (0x100 + g.toNat) i))

/-! ## The host seat and the tunnel port -/

/-- R412, R413, R415, R419, R423, R260 and Table 14.3: IDENTIFY is answered with its 16 bytes; a TAKE of the free seat
by the local host is granted where HOSTSEL allows it (keeping its response is log 43) and DENIED where it does not;
RELEASE frees the seat and ends the session; RESET by the holder orders its reset; CS_N high before the last bit
discards the frame; 3,000 milestones of silence free the seat of a remote holder. -/
def Obligations.SeatTakenAndLeft : Prop :=
  ∀ (r : SeatReq) (s : State), Logged s.dev →
    let d := s.dev
    (d.pd 1 = true → r.crcOk = true → Completes (.identify r) s (fun e => e.seat.last = some (answerTo r 0
      (leBytes 4 0x48160001 ++ leBytes 8 Config.uid.toNat ++ [d.sys.progress.setWidth 8] ++
        leBytes 1 (d.sys.mode.code + 4 * d.sys.role.toNat + 16 * d.sys.hostSel.toNat) ++
        leBytes 1 (d.seat.holder.code + 4 * b2n d.seat.priv + 8 * b2n d.seat.estr +
          16 * b2n (d.seat.holder == .spi)) ++ [0])) ∧ e.seat.holder = d.seat.holder)) ∧
    (Heeded d r → d.seat.holder = .free → d.seat.estr = false →
      (d.sys.hostSel.getLsbD 0 = true → Becomes (.take r) s { d with seat := { d.seat with
        holder := .spi, heard := d.ms, e := r.seq + 1
        stored := some { crc := r.crc 0x02, resp := answerTo r 0 [] }, last := some (answerTo r 0 []) } }) ∧
      (d.sys.hostSel.getLsbD 0 = false → Becomes (.take r) s { d with seat := { d.seat with
        last := some (answerTo r 2 []) } })) ∧
    (NextOfHolder d r → Completes (.release r) s (fun e =>
      e.seat.holder = .free ∧ e.seat.priv = false ∧ e.seat.last = some (answerTo r 0 []))) ∧
    (Heeded d r → d.seat.holder = .spi → ∀ k : Fin 2, r.payload = [BitVec.ofNat 8 (k.val + 1)] →
      Becomes (.seatReset r) s { d with
        sys := { d.sys with pendResets := d.sys.pendResets ++
          [{ source := 4 + k.val, kind := if k.val = 0 then .warm else .cold, faultPd := 0 }] }
        seat := { d.seat with heard := d.ms, last := some (answerTo r 0 []) } }) ∧
    Becomes .csNEarlyRise s d ∧
    (∀ ch, d.seat.holder = .remote ch → d.seat.heard + 3000 ≤ d.ms → Completes .seatIdleFree s (fun e =>
      e.seat.holder = .free ∧ e.seat.priv = false ∧ e.seat.idleFree = satInc d.seat.idleFree))

/-- R271, R416 to R420, for the commands that SEQ guards: without PD1 nothing is answered; a bad CRC is answered BAD_CRC (3) and counted, start-up BUSY
(1) with the progress, an estranged seat ESTRANGED (5), a host that does not hold the seat DENIED (2), a repeat of the
last request with its stored response, and any other unexpected SEQ BAD_SEQ (4), which estranges the seat. None of
these performs the command. That ESTRANGED is judged before the holder is log 46. -/
def Obligations.RequestsGuardedBySequence : Prop :=
  ∀ (r : SeatReq) (env : SeatEnv) (s : State) (p : Nat × Instr), Logged s.dev →
    p ∈ [(0x03, .release r), (0x10, .seatRead r env), (0x11, .seatWrite r env), (0x20, .challenge r env), (0x21, .respond r env),
      (0x22, .close r)] →
    let d := s.dev
    let h := if d.seat.holder = .spi then { d.seat with heard := d.ms } else d.seat
    (d.pd 1 = false → Becomes p.2 s d) ∧
    (d.pd 1 = true → r.crcOk = false → Becomes p.2 s { d with seat := { h with
      badCrc := satInc h.badCrc, last := some (answerTo r 3 []) } }) ∧
    (d.pd 1 = true → r.crcOk = true → d.sys.boot ≠ .done → Becomes p.2 s { d with seat := { h with
      last := some (answerTo r 1 [d.sys.progress.setWidth 8]) } }) ∧
    (Heeded d r →
      (d.seat.estr = true → Becomes p.2 s { d with seat := { h with last := some (answerTo r 5 []) } }) ∧
      (d.seat.estr = false → d.seat.holder ≠ .spi →
        Becomes p.2 s { d with seat := { d.seat with last := some (answerTo r 2 []) } }) ∧
      (d.seat.estr = false → d.seat.holder = .spi → r.seq ≠ d.seat.e →
        (∀ x, d.seat.stored = some x → r.seq + 1 = d.seat.e → x.crc = r.crc p.1 →
          Becomes p.2 s { d with seat := { h with last := some x.resp } }) ∧
        ((∀ x, d.seat.stored = some x → r.seq + 1 = d.seat.e → x.crc ≠ r.crc p.1) → Becomes p.2 s { d with seat := { h with
          badSeq := satInc h.badSeq, estr := true, last := some (answerTo r 4 []) } })))

/-- R421, R422, R424, R425, R106: the holder reads a register as its view shows it, and with a session the worktop;
without one the worktop is DENIED. Its writes are accepted in order for step 1 of the next boundary; register writes
without a session or PROV_EN are DENIED and counted word by word, and the pantry is never written here. -/
def Obligations.SeatReadsAndWrites : Prop :=
  ∀ (r : SeatReq) (env : SeatEnv) (s : State), Logged s.dev → NextOfHolder s.dev r →
    let d := heardDev s.dev
    let a := r.addr.toNat
    (a < 0x100000 → a % 4 = 0 → r.len = 4 → a ∉ [0x48, 0x10010, 0x10028] →
      Becomes (.seatRead r env) s (answered d 0x10 r 0 (leBytes 4 (d.hostRead d.seat.priv env.frac a).toNat))) ∧
    (0x100000 ≤ a → 1 ≤ r.len.toNat → r.len.toNat ≤ 1024 → a + r.len.toNat ≤ 0x200000 →
      (d.seat.priv = true → Becomes (.seatRead r env) s (answered d 0x10 r 0
        ((upTo r.len.toNat).map (fun i => Mem.read zeroByte d.cycle.worktop (a - 0x100000 + i))))) ∧
      (d.seat.priv = false → Becomes (.seatRead r env) s (answered d 0x10 r 2 []))) ∧
    (a < 0x100000 → a % 4 = 0 → r.payload.length = 4 →
      (d.seat.priv = true → d.sys.mode ≠ .tollgate → Becomes (.seatWrite r env) s (answered { d with cycle := { d.cycle with
        hostQ := d.cycle.hostQ ++ [.reg a (BitVec.ofNat 32 (leNat r.payload)) true d.sys.recorded env.words] } } 0x11 r 0 [])) ∧
      (d.seat.priv = false → d.sys.provEn = false → Becomes (.seatWrite r env) s (answered { d with lane := { d.lane with
        hostDenied := satInc d.lane.hostDenied } } 0x11 r 2 []))) ∧
    (0x100000 ≤ a → 1 ≤ r.payload.length → r.payload.length ≤ 1024 → a + r.payload.length ≤ 0x200000 → d.seat.priv = true →
      (d.sys.mode ≠ .tollgate → Becomes (.seatWrite r env) s (answered { d with cycle := { d.cycle with
        hostQ := d.cycle.hostQ ++ [.worktop (a - 0x100000) r.payload] } } 0x11 r 0 [])) ∧
      (d.sys.mode = .tollgate → Becomes (.seatWrite r env) s (answered d 0x11 r 6 []))) ∧
    (0x200000 ≤ a → a < 0x400000 → Becomes (.seatWrite r env) s (answered d 0x11 r 2 []))

/-- R426 to R428, the next request of the local holder, whatever the check bytes of the key's groups show: CHALLENGE
completes with a random nonce, or is DENIED with a host key of all 0 or in the lockout; the next RESPOND within 256
milestones with the MAC of the key, the UID, the nonce and the path completes and opens the session, and every other
RESPOND is DENIED, counted in AUTH_FAIL and towards the lockout, which the fourth in a row begins and after which the run
starts afresh (DEDUCED, log 44); CLOSE completes and ends the session. -/
def Obligations.SessionsOpened : Prop :=
  ∀ (r : SeatReq) (env : SeatEnv) (s : State), Logged s.dev → NextOfHolder s.dev r →
    let d := heardDev s.dev
    let key := keyAsRead d env
    let locked := 4 ≤ d.seat.failRun ∧ d.ms < d.seat.failAt + 4096
    let run := if 4 ≤ d.seat.failRun ∧ ¬ locked then 0 else d.seat.failRun
    let right := ∃ n at', s.dev.seat.nonce = some (n, at') ∧ d.ms < at' + 256 ∧
      r.payload = hmacSha256 key ([0x48, 0x46, 0x4E, 0x53] ++ leBytes 8 Config.uid.toNat ++ n ++ [0])
    ((∃ x ∈ key, x ≠ 0) → ¬ locked → AnswersWith (.challenge r env) env s (answered { d with seat := { d.seat with
      nonce := some (leBytes 32 env.nonce.toNat, d.ms) } } 0x20 r 0 (leBytes 32 env.nonce.toNat))) ∧
    ((∀ x ∈ key, x = 0) ∨ locked → AnswersWith (.challenge r env) env s (answered d 0x20 r 2 [])) ∧
    (right → AnswersWith (.respond r env) env s
      (answered { d with seat := { d.seat with priv := true, failRun := 0 } } 0x21 r 0 [])) ∧
    (¬ right → AnswersWith (.respond r env) env s (answered { d with seat := { d.seat with
      authFail := satInc d.seat.authFail, failRun := min 4 (run + 1)
      failAt := if run = 3 then d.ms else d.seat.failAt } } 0x21 r 2 [])) ∧
    Becomes (.close r) s (answered { d with seat := { d.seat with priv := false } } 0x22 r 0 [])

/-- R431 and Table 14.6, on the junction in RUN: TUN_OPEN opens a channel to a target that has none; TUN_SEND hands a
frame on, to the own seat for target 0, and is BUSY while a response is awaited; TUN_RECV gives the response that
waits, once; TUN_CLOSE closes the channel; a channel that is not open is DENIED. -/
def Obligations.TunnelsUsed : Prop :=
  ∀ (ch : Fin 8) (r : SeatReq) (env : SeatEnv) (s : State), Logged s.dev → TunnelCommand s.dev r ch →
    let d := s.dev
    (d.seat.tuns[ch] = none →
      ((∀ (i : Fin 8) x, d.seat.tuns[i] = some x → x.target ≠ r.addr.toNat % 2 ^ 12) → Becomes (.tunOpen r) s
        (withTunnel d ch (some { target := r.addr.toNat % 2 ^ 12, awaiting := false, rx := none }) (answerTo r 0 []))) ∧
      (∀ c ∈ [.tunSend r env, .tunRecv r, .tunClose r],
        Becomes c s { d with seat := { d.seat with last := some (answerTo r 2 []) } })) ∧
    (∀ t, d.seat.tuns[ch] = some t →
      (t.awaiting = true → Becomes (.tunSend r env) s { d with seat := { d.seat with
        last := some (answerTo r 1 [d.sys.progress.setWidth 8]) } }) ∧
      (t.awaiting = false → t.target ≠ 0 → r.payload.length ≤ 137 → Completes (.tunSend r env) s (fun e =>
        e.seat.tuns = d.seat.tuns.set ch (some { t with awaiting := true }) ∧ e.seat.last = some (answerTo r 0 []) ∧
        e.line = (d.sendTunnel t.target ch.val 1 r.payload).line)) ∧
      (∀ cmd q, t.awaiting = false → t.target = 0 → r.payload.length ≤ 137 → parseRequest r.payload = some (cmd, q) →
        Completes (.tunSend r env) s (fun e => e.seat.last = some (answerTo r 0 []) ∧
          ∃ out : Response × Dev,
            out = ({ d with seat := { d.seat with tuns := d.seat.tuns.set ch (some { t with awaiting := true }) } } : Dev).seatAny
              (.remote ch.val) cmd q env ∧
            e.seat.tuns[ch] = some { t with awaiting := false, rx := some out.1.bytes } ∧
            e.seat.holder = out.2.seat.holder)) ∧
      (∀ b, t.rx = some b →
        Becomes (.tunRecv r) s (withTunnel d ch (some { t with rx := none }) (answerTo r 0 b))) ∧
      (t.target ≠ 0 → Completes (.tunClose r) s (fun e =>
        e.seat.tuns = d.seat.tuns.set ch none ∧ e.seat.last = some (answerTo r 0 []))))

/-! ## The building bus -/

/-- R435, R436, R541 and Table 14.7, frames of the link's own: the token lets the node send what waits and goes on to
the next station; a poll is answered with Reply To Poll For Master and a Test_Request with Test_Response; a station
that replies to a poll becomes the next and gets the token. What the master machine does beyond R435 is clause 9 of
the standard it names (log 26). -/
def Obligations.TokenPassed : Prop :=
  ∀ (src dst : BitVec 8) (data : List Byte) (s : State), Logged s.dev → s.dev.bus.active = true →
    let b := s.dev.bus
    let got := { b with framesRx := satInc b.framesRx, outbox := [] }
    (dst.toNat = b.mac.toNat → b.replies = [] → b.tokens < 49 → b.next ≠ b.mac →
      (b.order = [] → Becomes (.token dst) s { s.dev with bus := { got with
        sole := false, retries := 0, run := .passToken, tokens := b.tokens + 1
        sent := [{ ftype := 0, dst := b.next.toNat, data := [] }] } }) ∧
      (∀ i : Fin 4, b.order = [i.val] → (b.txq[i]).ftype = 6 → (b.txq[i]).len.toNat ≤ 501 → (b.txq[i]).peer.toNat ≤ 127 →
        b.maxInfo ≠ 0 → Becomes (.token dst) s { s.dev with bus := { got with
          sole := false, retries := 0, run := .passToken, tokens := b.tokens + 1, order := []
          txq := b.txq.set i { b.txq[i] with full := false }
          sent := [{ ftype := 6, dst := (b.txq[i]).peer.toNat, data := (b.txq[i]).octets },
            { ftype := 0, dst := b.next.toNat, data := [] }] } })) ∧
    (dst.toNat ≠ b.mac.toNat → b.run ≠ .listen → Becomes (.token dst) s { s.dev with bus := { got with
      sent := [], run := .idle } }) ∧
    (dst.toNat = b.mac.toNat → b.run = .idle →
      Becomes (.pollForMaster src dst) s { s.dev with bus := { got with
        sent := [{ ftype := 2, dst := src.toNat, data := [] }] } } ∧
      Becomes (.testRequest src dst data) s { s.dev with bus := { got with
        sent := [{ ftype := 4, dst := src.toNat, data }] } }) ∧
    (dst.toNat = b.mac.toNat → b.run = .pollMaster → src.toNat < 128 →
      Becomes (.replyToPollForMaster src dst) s { s.dev with bus := { got with
        sole := false, next := src.setWidth 7, poll := b.mac, tokens := 0, retries := 0, run := .passToken
        sent := [{ ftype := 0, dst := src.toNat, data := [] }] } }) ∧
    (dst.toNat = b.mac.toNat → b.run = .waitReply → b.tokens < 49 → b.sole = false → b.next ≠ b.mac →
      ∀ c ∈ [.testResponse dst, .replyPostponed dst], Becomes c s { s.dev with bus := { got with
        retries := 0, run := .passToken, tokens := b.tokens + 1
        sent := [{ ftype := 0, dst := b.next.toNat, data := [] }] } })

/-- R433, R435, R436, R541, R542: a data frame fills the lowest free receive slot or is dropped and counted, and one
that expects a reply is answered Reply Postponed; other frame types are discarded and counted, CRC errors counted; a
lost token is counted and a new one sought by polls (log 26); a submitted slot waits its turn. -/
def Obligations.BusFramesQueued : Prop :=
  ∀ (src dst : BitVec 8) (data : List Byte) (s : State), Logged s.dev → s.dev.bus.active = true →
    let b := s.dev.bus
    let got := { b with framesRx := satInc b.framesRx, sent := [], outbox := [] }
    (dst.toNat = b.mac.toNat → b.run = .idle →
      (∀ i : Fin 4, (b.rxq[i]).full = false → (∀ j : Fin 4, j < i → (b.rxq[j]).full = true) →
        Becomes (.bacnetDataExpectingReply src dst data) s { s.dev with bus := { got with
          rxq := b.rxq.set i (receivedSlot b 5 src data), rxSeq := b.rxSeq + 1
          sent := [{ ftype := 7, dst := src.toNat, data := [] }] } } ∧
        Becomes (.bacnetDataNotExpectingReply src dst data) s { s.dev with bus := { got with
          rxq := b.rxq.set i (receivedSlot b 6 src data), rxSeq := b.rxSeq + 1 } }) ∧
      ((∀ i : Fin 4, (b.rxq[i]).full = true) →
        Becomes (.bacnetDataNotExpectingReply src dst data) s { s.dev with bus := { got with drop := satInc b.drop } })) ∧
    (b.run = .idle → Becomes .unsupportedFrame s { s.dev with bus := { got with drop := satInc b.drop } }) ∧
    Becomes .crcErr s { s.dev with bus := { b with crcErr := satInc b.crcErr, sent := [], outbox := [] } } ∧
    (b.run = .idle ∨ b.run = .listen → Becomes .noTokenTimeout s { s.dev with bus := { b with
      tokenLost := satInc b.tokenLost, run := .pollMaster, retries := 0, poll := b.after b.mac, next := b.mac, tokens := 0
      outbox := [], sent := [{ ftype := 1, dst := (b.after b.mac).toNat, data := [] }] } }) ∧
    (b.run = .passToken → b.retries = 0 → Becomes .tUsageTimeout s { s.dev with bus := { b with
      retries := 1, outbox := [], sent := [{ ftype := 0, dst := b.next.toNat, data := [] }] } }) ∧
    (∀ i : Fin 4, (b.txq[i]).full = false → b.run ≠ .useToken → Becomes (.txSlotSubmit i) s { s.dev with bus := { b with
      txq := b.txq.set i { b.txq[i] with full := true }, order := b.order ++ [i.val] } })

/-- R438 to R442, the services, whose answers wait for the token: property reads answer with the value or the error of
each property; a write to an Analog Value with a finite number is staged for its hatch, any other refused; Who-Is and
Who-Has are answered where they mean this device; SubscribeCOV enters a subscription, which its lifetime ends. -/
def Obligations.BusServicesAnswered : Prop :=
  ∀ (mac invoke : BitVec 8) (s : State), Logged s.dev → s.dev.bus.active = true → s.dev.bus.run ≠ .useToken →
    let d := s.dev
    let b := d.bus
    (∀ r, Becomes (.readProperty mac invoke r) s (saying d mac.toNat
      (match d.readProp r with
       | .value v => .readAck invoke.toNat r v
       | .error e => .error invoke.toNat .readProperty e))) ∧
    (∀ specs, Becomes (.readPropertyMultiple mac invoke specs) s (saying d mac.toNat (.readMultiAck invoke.toNat
      ((specs.flatMap d.multiRefs).map (fun r => (r, d.readProp r)))))) ∧
    (∀ (o : BusObject) (type inst : Nat), d.busObj type inst = some o → type ≠ 8 →
      (∀ w : Word, o.type = 2 → o.outHatch ≠ 0xFF →
        (w &&& 0x7F800000#32 ≠ 0x7F800000#32 →
          Becomes (.writeProperty mac invoke { type, inst, prop := .presentValue } (.real w)) s { d with bus := { b with
            writes := b.writes ++ [{ mac := mac.toNat, invoke := invoke.toNat, hatch := o.outHatch, word := o.outWord,
                                     value := w }] } }) ∧
        (w &&& 0x7F800000#32 = 0x7F800000#32 →
          Becomes (.writeProperty mac invoke { type, inst, prop := .presentValue } (.real w)) s
            (saying d mac.toNat (.error invoke.toNat .writeProperty .valueOutOfRange)))) ∧
      (∀ v, o.outHatch = 0xFF → Becomes (.writeProperty mac invoke { type, inst, prop := .presentValue } v) s
        (saying d mac.toNat (.error invoke.toNat .writeProperty .writeAccessDenied))) ∧
      (∀ process lifetime : Nat, b.subs = [] → lifetime ≤ 28800 →
        Becomes (.subscribeCov mac invoke process type inst lifetime false) s (saying { d with bus := { b with
          subs := [{ mac := mac.toNat, process, type, inst
                     ends := if lifetime = 0 then none else some (d.si + lifetime * 1000000)
                     value := d.busWord o, fault := d.busFault o }] } } mac.toNat
          (.simpleAck invoke.toNat .subscribeCov)))) ∧
    Becomes (.whoIs none) s (saying d 255 (.iAm b.devInst.toNat)) ∧
    (∀ lo hi : Nat, Becomes (.whoIs (some (lo, hi))) s
      (if lo ≤ b.devInst.toNat ∧ b.devInst.toNat ≤ hi then saying d 255 (.iAm b.devInst.toNat) else d)) ∧
    (∀ p, d.image.busPayload = some p → Becomes (.whoHas (.byId 8 b.devInst.toNat)) s
      (saying d 255 (.iHave 8 b.devInst.toNat (unpad (p.take 16))))) ∧
    Becomes .covLifetimeExpiry s { d with bus := { b with
      subs := b.subs.filter (fun x => x.ends.all (fun e => d.si < e)) } }

/-! ## Motor units, fans, actuators and the face -/

/-- R456, R466 to R468, R470 and Table 15.8: overcurrent, a DC link out of its limits and the driver's fault pin trip
a unit; ALIGN_T ends the alignment in DRIVE with the flux on the axis; STILL_T in LOW is a standstill; a command lost
is counted and its return noted; edges of the command pin are stamped. -/
def Obligations.MotorEventsTakeEffect : Prop :=
  ∀ (u : Fin 2) (s : State), Logged s.dev → s.dev.whiskUsed u.val = true → s.dev.pd 13 = true →
    let d := s.dev
    let w := d.whisk[u]
    (w.latched = false →
      Becomes (.overcurrent u) s (withUnit d u (tripped w 3)) ∧
      (w.run ≠ .off → Becomes (.dcVoltage u) s (withUnit d u (tripped w 4))) ∧
      Becomes (.drvFault u) s (withUnit d u { tripped w 2 with flt := true })) ∧
    (w.run = .align → Becomes (.alignComplete u) s (withUnit d u { w with
      run := .drive, psa := parF (d.image.whiskPar u.val) 0x10, psb := 0, ramp := 0, idRef := 0, integ := 0, dpsi := true
      dT := 0 })) ∧
    (w.est = .low → Becomes (.standstillTimeout u) s (withUnit d u { w with
      est := .standstill, rotation := 0, speed := 0, lowRun := 0 })) ∧
    (w.lost = false → w.source ≠ 0 → Becomes (.cmdLoss u) s (withUnit d u { w with
      lost := true, losses := satInc w.losses })) ∧
    Becomes (.cmdRegained u) s (withUnit d u { w with lost := false }) ∧
    (∀ rise stamp, Becomes (.speedCommandEdge u rise stamp) s (withUnit d u { w with edges := (stamp, rise) :: w.edges }))

/-- R448 to R451, R454, R458, R468, R469, R471: a decision of a unit that drives takes the vector of Table 15.4 for
its comparators and sector, and zero torque above the current limit; one without its converter trips it; MODE OFF with
every cause gone releases a latched unit. An estimate is the speed of 64 decisions, delivered in its element. -/
def Obligations.MotorDecisionsAndEstimates : Prop :=
  ∀ (u : Fin 2) (x : WhiskSample) (s : State), s.dev.whiskUsed u.val = true → s.dev.pd 13 = true →
    let d := s.dev
    let w := d.whisk[u]
    let c := d.image.whiskPar u.val
    let mode := whiskModeOf (d.presented (0x058 + u.val) 0)
    let conv := d.convUsable u.val = true ∧ d.convFailed u.val = false
    (w.latched = false → ¬ conv → Completes (.decision u x) s (fun e =>
      (e.whisk[u]).run = .tripped ∧ (e.whisk[u]).cause = 5 ∧ (e.whisk[u]).trips = satInc w.trips ∧
      (e.whisk[u]).vector = 0)) ∧
    (w.latched = true → conv → mode = .off → (d.routedCx u.val) = none → x.fltHigh = true →
      Completes (.decision u x) s (fun e => (e.whisk[u]).latched = false ∧ (e.whisk[u]).run = .off ∧
        (e.whisk[u]).vector = 0)) ∧
    (w.latched = false → conv → w.run = .drive → mode = w.mode → (w.estimator c x).overRun < 4 →
      (w.estimator c x).vdcRun < 80 → Completes (.decision u x) s (fun e =>
        let v := e.whisk[u]
        v.run = .drive ∧ v.decisions = w.decisions + 1 ∧
        v.vector = switchVector v.dpsi (if condF .gt v.current (parF c 0x14) then 0 else v.dT) (sectorOf v.theta) w.vector)) ∧
    (∀ now : Nat, conv → 64 ≤ w.decisions → Completes (.estimate u now) s (fun e =>
      let v := e.whisk[u]
      v.decisions = 0 ∧ v.angle = 0 ∧ v.rpmPrev = w.rpm ∧
      v.omega = fDiv (fDiv (fMul w.angle fPi) (fN 180)) (fMul (fN 64) fT) ∧
      v.rpm = fDiv (fMul v.omega (fN 60)) (fMul (fMul (fN 2) fPi) (parN c 0 1)) ∧
      mapFind e.cycle.inputs (elemKey (0x058 + u.val) 3) = some v.speed))

/-- R264, R484 to R492, R498, R499: a kick ends with its last waymark; accepted tach edges are kept, and their absence is
TACH_LOST, counted; a write of FAN.CAPTURE asks for a baseline of each fan named. Once TSTRAP is latched, SYS_SHDN asserts at
the fourth comparison above its trip point, with its cause, and releases at the fourth below its release point; before that a
comparison changes nothing but the resistance that is shown. At the end of its reversal pause a pair moves towards its target where that is farther than the dead band; at the end of an over-travel
it stands at that end; at the end of homing its position is known. -/
def Obligations.FansAndActuators : Prop :=
  (∀ s : State,
    let d := s.dev
    (∀ f : Fin 6, Logged d →
      ((d.fan.fans[f]).kick = some 1 → Becomes (.kickEnd f) s { d with fan := { d.fan with
        fans := d.fan.fans.set f { d.fan.fans[f] with kick := none } } }) ∧
      (∀ stamp e more, d.pd 14 = true → (d.fan.fans[f]).edges = e :: more → e + 16 ≤ stamp / 1000 →
        Becomes (.tachEdge f stamp) s { d with fan := { d.fan with fans := d.fan.fans.set f { d.fan.fans[f] with
          edges := stamp / 1000 :: e :: more.take 62, edged := true, quiet := 0 } } }) ∧
      (d.pd 14 = true → d.image.owner (0x040 + f.val) < 16 → (d.fan.fans[f]).tachLost = false →
        256 * fan16 (d.image.tableOf (0x040 + f.val)) 0x12 ≤ (d.fan.fans[f]).quiet →
        Becomes (.tachLost f) s { d with fan := { d.fan with fans := d.fan.fans.set f { d.fan.fans[f] with
          tachLost := true, tachLosses := satInc (d.fan.fans[f]).tachLosses } } })) ∧
    (∀ go : BitVec 6, Completes (.fanCapture go) s (fun e => ∀ f : Fin 6,
      e.fan.fans[f] = if go.getLsbD f.val then { d.fan.fans[f] with capture := true } else d.fan.fans[f])) ∧
    (∀ (die : Int) (ohm : Nat), d.sys.strapped = true → d.fan.shdnFirst = false → 50 ≤ ohm → ohm ≤ 200000 →
      (7000 + 500 * (d.sys.tstrap.toNat : Int) < die → d.fan.shdn = false →
        Completes (.shdnCompare die ohm) s (fun e => e.fan.ohm = BitVec.ofNat 18 ohm ∧
          (if 3 ≤ d.fan.hotRun then
            e.fan.shdn = true ∧ e.fan.shdnCause = 2 ∧ e.fan.shdnCount = satInc d.fan.shdnCount
          else e.fan.shdn = false ∧ e.fan.hotRun = d.fan.hotRun + 1))) ∧
      (die ≤ 6200 + 500 * (d.sys.tstrap.toNat : Int) → shdnRelease.getD d.sys.tstrap.toNat 0 ≤ ohm → d.fan.shdn = true →
        Completes (.shdnCompare die ohm) s (fun e =>
          if 3 ≤ d.fan.coolRun then e.fan.shdn = false
          else e.fan.shdn = true ∧ e.fan.coolRun = d.fan.coolRun + 1))) ∧
    (∀ (die : Int) (ohm : Nat), d.sys.strapped = false → 50 ≤ ohm → ohm ≤ 200000 →
      Completes (.shdnCompare die ohm) s (fun e => e.fan = { d.fan with ohm := BitVec.ofNat 18 ohm }))) ∧
  (∀ (k : Fin 4) (s : State), s.dev.pd 14 = true → s.dev.image.paired (2 * k.val) = true →
    let d := s.dev
    let p := d.fan.pairs[k]
    let c := d.image.tableOf (0x050 + 2 * k.val)
    let t := d.pairTarget k.val
    (p.homing = none → p.unknown = false →
      (p.motion = .paused → p.left ≤ 1 → Completes (.reversalPauseEnd k) s (fun e =>
        e.fan.pairs[k] = { p with left := 0, runOn := none, motion :=
          (if p.position c + leAt c 8 2 < t then .opening else if t + leAt c 8 2 < p.position c then .closing else .rest) })) ∧
      (∀ r, p.runOn = some r → r ≤ d.wmMicros →
        (p.motion = .opening → p.position c = 10000 → t = 10000 → Completes (.overtravelEnd k) s (fun e =>
          e.fan.pairs[k] = { p with travel := pairRun c, motion := .rest, runOn := none } ∧
          e.fan.doPin[2 * k.val]'(by omega) = false)) ∧
        (p.motion = .closing → p.position c = 0 → t = 0 → Completes (.overtravelEnd k) s (fun e =>
          e.fan.pairs[k] = { p with travel := 0, motion := .rest, runOn := none } ∧
          e.fan.doPin[2 * k.val + 1]'(by omega) = false)))) ∧
    (∀ up r, p.homing = some up → p.runOn = some r → r ≤ d.wmMicros → Completes (.homingComplete k) s (fun e =>
      (e.fan.pairs[k]).homing = none ∧ (e.fan.pairs[k]).unknown = false ∧
      (e.fan.pairs[k]).travel = (if up then pairRun c else 0))))

/-- R508, R509, R515, R523 to R526, R529: a frame takes ON and the permit and moves DARK to VREV_RISE and LIT to
ANODE_FALL; an operation completes with all its pixels together; a flush clears the energies and writes both halves of
the counters; a pass starts in LIT or waits for it. The steps of a stencil set the ink, fill, draw a mask, digits and
arrows, inside their region. -/
def Obligations.FaceDrawn : Prop :=
  ∀ s : State, Logged s.dev →
    let d := s.dev
    let f := d.face
    (∀ (k : Nat) heads fv, d.pd 15 = true → d.image.facePot < 16 → leAt d.image.faceCfg 2 2 ≠ 0 →
      f.frameEnd ≤ k * leAt d.image.faceCfg 2 2 →
      let on := d.presented 0x060 0 ≠ 0 ∧ f.permit = true
      Completes (.faceFrameStart k heads fv) s (fun e =>
        e.face.frameEnd = (k + 1) * leAt d.image.faceCfg 2 2 ∧
        (f.run = .dark → e.face.run = if on then .vrevRise else .dark) ∧
        (f.run = .lit → e.face.run = if on then .lit else .anodeFall))) ∧
    (∀ (p : Fin 16) o, d.pd 15 = true → f.ops.find? (fun x => x.pot == p.val && x.left == some 1) = some o →
      Completes (.faceOperationComplete p) s (fun e => e.face.ops = f.ops.erase o ∧ e.face.opsDone = satInc f.opsDone ∧
        e.face.scan = (f.draw (d.opWhole o).pixels).scan)) ∧
    (d.pd 15 = true → d.image.facePot < 16 → d.time.count.toNat % 256 = 0 → d.time.wm = 0 → d.store.failed = [] →
      Completes .stressFlush s (fun e => e.face.energy = [] ∧ e.store.queue.length = d.store.queue.length + 2)) ∧
    (d.image.faceCfg.getD 0x20 0 = 1 → d.pd 15 = true → d.image.facePot < 16 →
      (f.run = .lit → f.fvRun = none → Becomes .fvPassStart s { d with face := { f with
        fvRun := some 0, fvDue := false, fvOpen := 0, fvShort := 0 } }) ∧
      (f.run ≠ .lit → Becomes .fvPassStart s { d with face := { f with fvDue := true } })) ∧
    (∀ (r : Fin 16) o k b x g op, AtStencil d r o k b x g op →
      let at' := fun (i : Nat) => (b.getD (8 + 8 * x.step + i) 0).toNat
      let arg := at' 6 + 256 * at' 7
      let par := x.params.getD (arg % 4) 0
      let area := areaPixels (at' 1) (at' 1 + at' 3) (at' 2) (at' 2 + at' 4)
      (op = 0 → Becomes (.stencilEnd r) s (withOps d
        [{ o with run := some { x with step := (b.getD 1 0).toNat } }])) ∧
      (op = 1 → Becomes (.stencilInk r) s (withOps d
        [{ o with run := some { x with
            step := x.step + 1, ink := (if at' 5 % 2 = 1 then min par 4095 else arg % 4096) } }])) ∧
      (op = 2 → Becomes (.stencilFill r) s (withOps d [drew o x g (area.map (fun q => (q, x.ink)))])) ∧
      (op = 3 → Becomes (.stencilMask r) s (withOps d [drew o x g ((area.zipIdx.filter (fun q =>
        (b.getD (arg + q.2 / 8) 0).getLsbD (q.2 % 8))).map (fun q => (q.1, x.ink)))])) ∧
      (op = 4 → Becomes (.stencilDigits r) s (withOps d [drew o x g ((upTo (at' 3)).flatMap (fun i =>
        glyphPixels (at' 1 + 4 * i) (at' 2) 3 x.ink (cellRows par (at' 3) i)))])) ∧
      (op = 5 → Becomes (.stencilArrow r) s (withOps d [drew o x g
        (glyphPixels (at' 1) (at' 2) 5 x.ink (arrowRows.getD (arg % 4) []))])))
end

