-- ==== Sys2Proof/Laws/Bits.lean ====
section
/-! SUPPORT. Byte order (R1): bytes written and read back. -/

namespace Sys2Proof.Laws

open Sys2Proof.Machine

/-- A number is written in as many bytes as asked for. -/
@[simp] theorem leBytes_length (n v : Nat) : (leBytes n v).length = n := by
  induction n generalizing v with
  | zero => rfl
  | succ n ih => simp [leBytes, ih]

/-- The bytes of a number spell it, as far as they reach. -/
theorem leNat_leBytes (n v : Nat) : leNat (leBytes n v) = v % 256 ^ n := by
  induction n generalizing v with
  | zero => simp [leBytes, leNat, Nat.mod_one]
  | succ n ih =>
    show (BitVec.ofNat 8 v).toNat + 256 * leNat (leBytes n (v / 256)) = _
    rw [ih, BitVec.toNat_ofNat]
    exact (Nat.pow_succ' ▸ Nat.mod_mul (x := v) (a := 256) (b := 256 ^ n)).symm

/-- The first bytes of a payload spell the number that was written there. -/
theorem leAt_leBytes (n v : Nat) (r : List Byte) : leAt (leBytes n v ++ r) 0 n = v % 256 ^ n := by
  have h : ((leBytes n v ++ r).take n) = leBytes n v := by
    rw [List.take_append_of_le_length (by simp), List.take_of_length_le (by simp)]
  simp only [leAt, List.drop_zero, h, leNat_leBytes]

/-- A byte of a payload stands where it stood when more follows. -/
theorem byteAt_append (l r : List Byte) (i : Nat) (h : i < l.length) : byteAt (l ++ r) i = byteAt l i := by
  simp only [byteAt, List.getD_eq_getElem?_getD, List.getElem?_append_left h]

/-- A number of a payload stands where it stood when more follows. -/
theorem leAt_append (l r : List Byte) (i n : Nat) (h : i + n ≤ l.length) : leAt (l ++ r) i n = leAt l i n := by
  simp only [leAt]
  rw [List.drop_append_of_le_length (by omega), List.take_append_of_le_length (by simp; omega)]

end Sys2Proof.Laws
end

