-- ==== Sys2Proof/Laws/Crypto.lean ====
section
/-! SUPPORT. AES-128-CCM opens what it sealed (Table 0.6, R382). -/

namespace Sys2Proof.Laws

open Sys2Proof.Machine

/-- AES-128 gives 16 octets wherever its last round key has 16. -/
theorem aesEncrypt_length (ks : List (List Nat)) (blk : List Nat) (hk : (ks.getD 10 []).length = 16) :
    (aesEncrypt ks blk).length = 16 := by
  simp only [aesEncrypt, xorNats, aesShiftRows, List.length_zipWith, List.length_map, List.length_range, hk]
  rfl

/-- A key stream block of CCM has 16 octets. -/
theorem ccmStream_length (ks : List (List Nat)) (nonce : List Byte) (i : Nat) (hk : (ks.getD 10 []).length = 16) :
    (ccmStream ks nonce i).length = 16 := by
  simp only [ccmStream, natBytes, List.length_map, aesEncrypt_length ks _ hk]

/-- CBC-MAC gives 16 octets. -/
theorem cbcMac_length (ks : List (List Nat)) (m : List Byte) (hk : (ks.getD 10 []).length = 16) :
    (cbcMac ks m).length = 16 := by
  have h : ∀ (l : List (List Byte)) (x : List Nat), x.length = 16 →
      (l.foldl (fun x b => aesEncrypt ks (xorNats x (byteNats b))) x).length = 16 := by
    intro l
    induction l with
    | nil => exact fun x hx => hx
    | cons b l ih => exact fun x _ => ih _ (aesEncrypt_length ks _ hk)
  exact h _ _ (by simp)

/-- Octets under the exclusive or with a long enough key, twice, are themselves. -/
theorem xorBytes_xorBytes (m k : List Byte) (h : m.length ≤ k.length) : xorBytes (xorBytes m k) k = m := by
  induction m generalizing k with
  | nil => simp [xorBytes]
  | cons b m ih =>
    cases k with
    | nil => simp at h
    | cons c k =>
      have := ih k (by simpa using h)
      simp only [xorBytes, List.zipWith_cons_cons, List.cons.injEq] at this ⊢
      exact ⟨by rw [BitVec.xor_assoc, BitVec.xor_self, BitVec.xor_zero], this⟩

/-- A message of 1 to 16 octets is enciphered under one block of the key stream. -/
theorem ccmCrypt_block (ks : List (List Nat)) (nonce msg : List Byte) (h0 : msg ≠ []) (h : msg.length ≤ 16) :
    ccmCrypt ks nonce msg = xorBytes msg (ccmStream ks nonce 1) := by
  obtain ⟨b, l, rfl⟩ := List.exists_cons_of_ne_nil h0
  have hd : (b :: l).drop 16 = [] := List.drop_eq_nil_of_le h
  have ht : (b :: l).take 16 = b :: l := List.take_of_length_le h
  have hc : chunksOf 16 (b :: l).length (b :: l) = [b :: l] := by
    show (if (b :: l).isEmpty then [] else (b :: l).take 16 :: chunksOf 16 l.length ((b :: l).drop 16)) = _
    rw [hd, ht]
    cases l <;> rfl
  unfold ccmCrypt
  rw [hc]
  rfl

/-- CCM opens a message of 1 to 16 octets that it sealed under the same key, nonce and header. -/
theorem ccmOpen_ccmSeal (key nonce aad msg : List Byte) (hk : ((aesRoundKeys key).getD 10 []).length = 16)
    (h0 : msg ≠ []) (h : msg.length ≤ 16) :
    ccmOpen key nonce aad (ccmSeal key nonce aad msg).1 (ccmSeal key nonce aad msg).2 = some msg := by
  have hs := ccmStream_length (aesRoundKeys key) nonce 1 hk
  have hx : (xorBytes msg (ccmStream (aesRoundKeys key) nonce 1)).length = msg.length := by
    simp only [xorBytes, List.length_zipWith, hs]; omega
  have hne : xorBytes msg (ccmStream (aesRoundKeys key) nonce 1) ≠ [] := by
    intro he
    rw [he] at hx
    exact h0 (List.length_eq_zero_iff.mp hx.symm)
  have hm : ccmCrypt (aesRoundKeys key) nonce (ccmCrypt (aesRoundKeys key) nonce msg) = msg := by
    rw [ccmCrypt_block _ _ msg h0 h, ccmCrypt_block _ _ _ hne (by omega), xorBytes_xorBytes _ _ (by omega)]
  simp only [ccmOpen, ccmSeal, hm, if_true]

/-- What CCM seals is as long as the message, for 1 to 16 octets, and the integrity code has 8 octets. -/
theorem ccmSeal_length (key nonce aad msg : List Byte) (hk : ((aesRoundKeys key).getD 10 []).length = 16)
    (h0 : msg ≠ []) (h : msg.length ≤ 16) :
    (ccmSeal key nonce aad msg).1.length = msg.length ∧ (ccmSeal key nonce aad msg).2.length = 8 := by
  constructor
  · simp only [ccmSeal]
    rw [ccmCrypt_block _ _ _ h0 h]
    simp only [xorBytes, List.length_zipWith, ccmStream_length _ _ _ hk]; omega
  · simp only [ccmSeal, xorBytes, ccmTag, natBytes, List.length_zipWith, List.length_map, List.length_take,
      cbcMac_length _ _ hk, ccmStream_length _ _ _ hk]
    rfl

end Sys2Proof.Laws
end

