-- ==== Sys2Proof/Laws/Larder.lean ====
section
/-! SUPPORT. What writes to the larder's cells leave as they are, and what the queued writes of a transaction do, said once
(R246 to R250, R253). -/

namespace Sys2Proof.Laws

open Sys2Proof.Machine

/-- Counting a write changes the wear counts, their mark and the events that wait. -/
theorem countWear_keeps (d : Dev) (g : Nat) : d.countWear g = { d with store := { d.store with
    wear := (d.countWear g).store.wear, wearMark := (d.countWear g).store.wearMark, logPend := (d.countWear g).store.logPend } } := by
  by_cases h : (decide (8000000000 < d.store.wearOf (g / 64) + 1) && !d.store.wearMark) = true
  · simp only [Dev.countWear, h, if_true]; rfl
  · simp only [Dev.countWear, h]; rfl

/-- A write to the cells changes those of its group beside. -/
theorem cellWrite_keeps (d : Dev) (g : Nat) (b : List Byte) : d.cellWrite g b = { d with store := { d.store with
    wear := (d.countWear g).store.wear, wearMark := (d.countWear g).store.wearMark, logPend := (d.countWear g).store.logPend
    home := Mem.writeBytes larderByte d.store.home (8 * g) b } } := by
  rw [Dev.cellWrite, countWear_keeps]
  rfl

/-- A group written home whose read-back holds: its cells, what the count changes, whether it is lost, and what a lost write of a
host leaves for its command. -/
theorem writeHome_sound (d : Dev) (g : Nat) (b : List Byte) (host : Bool) :
    ∃ lost result hostLost, d.writeHome g b true host = { d with store := { d.store with
      wear := (d.countWear g).store.wear, wearMark := (d.countWear g).store.wearMark, logPend := (d.countWear g).store.logPend
      home := Mem.writeBytes larderByte d.store.home (8 * g) b, lost, result, hostLost } } := by
  have e : d.writeHome g b true host = (d.cellWrite g b).onStore (fun s =>
      if s.failed.contains g then s.hostLoss host else { s with lost := s.lost.filter (· != g) }) := by
    simp [Dev.writeHome]
  rw [e, cellWrite_keeps]
  dsimp only [Dev.onStore, StoreState.hostLoss]
  split
  · cases host <;> exact ⟨_, _, _, rfl⟩
  · exact ⟨_, _, _, rfl⟩

/-- Once its mark is written, the last `n` writes of a transaction alone in the queue copy the groups that are left home, in their
order; the recovery's counts, SYS and the cycle stay. -/
theorem landMany_copies (n : Nat) (t : JournalTxn) (d : Dev) (hn : t.writes - t.done = n) (hle : t.done ≤ t.writes)
    (hm : t.marked = true) (hq : d.store.queue = if n = 0 then [] else [.txn t]) :
    (Dev.landMany [] n d).store.home = (t.groups.drop (t.done - recordLength t.groups.length - 1)).foldl
        (fun m p => Mem.writeBytes larderByte m (8 * p.1) p.2) d.store.home ∧
      (Dev.landMany [] n d).store.queue = [] ∧ (Dev.landMany [] n d).store.redone = d.store.redone ∧
      (Dev.landMany [] n d).store.rolled = d.store.rolled ∧ (Dev.landMany [] n d).store.crcLost = d.store.crcLost ∧
      (Dev.landMany [] n d).cycle = d.cycle ∧ (Dev.landMany [] n d).sys = d.sys := by
  induction n generalizing t d with
  | zero =>
    have hw : t.writes = recordLength t.groups.length + 1 + t.groups.length := rfl
    dsimp only [Dev.landMany]
    rw [List.drop_eq_nil_of_le (by omega)]
    exact ⟨rfl, hq, rfl, rfl, rfl, rfl, rfl⟩
  | succ n ih =>
    simp only [Nat.succ_ne_zero, if_false] at hq
    have hmk : recordLength t.groups.length < t.done := by simpa [JournalTxn.marked] using hm
    have hw : t.writes = recordLength t.groups.length + 1 + t.groups.length := rfl
    have hidx : t.done - recordLength t.groups.length - 1 < t.groups.length := by omega
    have hnext : t.next = t.groups[t.done - recordLength t.groups.length - 1] := by
      unfold JournalTxn.next
      rw [if_neg (by omega), if_neg (by omega), List.getD_eq_getElem?_getD, List.getElem?_eq_getElem hidx]
      rfl
    have hlf : d.landFront true = (d.onStore fun s => { s with queue := if n = 0 then [] else [.txn (t.step d.store)] }).writeHome
        t.next.1 t.next.2 true (t.host && t.marked) := by
      have hz : (if t.writes ≤ t.done + 1 then [] else [LarderWrite.txn (t.step d.store)]) =
          if n = 0 then [] else [.txn (t.step d.store)] := by
        by_cases h : n = 0
        · rw [if_pos h, if_pos (by omega)]
        · rw [if_neg h, if_neg (by omega)]
      simp only [Dev.landFront, hq, hz]
      rw [if_neg (by simp; omega)]
    obtain ⟨lost, result, hostLost, h⟩ := writeHome_sound
      (d.onStore fun s => { s with queue := if n = 0 then [] else [.txn (t.step d.store)] }) t.next.1 t.next.2 (t.host && t.marked)
    simp only [Dev.landMany, List.contains_nil, Bool.not_false, hlf]
    generalize Dev.writeHome _ _ _ _ _ = e at h
    obtain ⟨i1, i2, i3, i4, i5, i6, i7⟩ := ih (t.step d.store) e (by show t.writes - (t.done + 1) = n; omega)
      (by show t.done + 1 ≤ t.writes; omega) (by simp [JournalTxn.marked, JournalTxn.step]; omega) (by rw [h]; rfl)
    subst h
    refine ⟨i1.trans ?_, i2, i3, i4, i5, i6, i7⟩
    rw [List.drop_eq_getElem_cons hidx, List.foldl_cons, hnext]
    show List.foldl _ _ (List.drop (t.done + 1 - recordLength t.groups.length - 1) t.groups) = _
    rw [show t.done + 1 - recordLength t.groups.length - 1 = t.done - recordLength t.groups.length - 1 + 1 by omega]
    rfl

end Sys2Proof.Laws
end

