-- ==== Sys2Proof/Laws/LineDecode.lean ====
section
/-! SUPPORT. A carrier frame whose symbols arrive undisturbed decodes to the payload that was coded into them (R354 to R357, R363,
R364, R366), for payloads of one Reed–Solomon codeword in DBPSK on every carrier. -/

namespace Sys2Proof.Laws

open Sys2Proof.Machine

/-! ## Bits and bytes -/

/-- As many bits are unpacked as asked for. -/
@[simp] theorem unpackBits_length (n v : Nat) : (unpackBits n v).length = n := by
  induction n generalizing v with
  | zero => rfl
  | succ n ih => simp [unpackBits, ih]

/-- Unpacked bits packed again. -/
theorem packBits_unpackBits (n v : Nat) : packBits (unpackBits n v) = v % 2 ^ n := by
  induction n generalizing v with
  | zero => simp [unpackBits, packBits, Nat.mod_one]
  | succ n ih =>
    have h : b2n (v % 2 == 1) = v % 2 := by
      rcases Nat.mod_two_eq_zero_or_one v with h | h <;> simp [b2n, h]
    simp only [unpackBits, packBits, ih, h]
    exact (Nat.pow_succ' ▸ Nat.mod_mul (x := v) (a := 2) (b := 2 ^ n)).symm

/-- Packed bits unpacked again. -/
theorem unpackBits_packBits (l : List Bool) : unpackBits l.length (packBits l) = l := by
  induction l with
  | nil => rfl
  | cons b l ih =>
    have h1 : (b2n b + 2 * packBits l) % 2 = b2n b := by cases b <;> simp [b2n]
    have h2 : (b2n b + 2 * packBits l) / 2 = packBits l := by cases b <;> simp [b2n]; omega
    simp only [List.length_cons, unpackBits, packBits, h1, h2, ih]
    cases b <;> rfl

/-- `n` bits are below 2 to the power of n. -/
theorem packBits_lt (l : List Bool) : packBits l < 2 ^ l.length := by
  induction l with
  | nil => simp [packBits]
  | cons b l ih =>
    have : b2n b ≤ 1 := by cases b <;> simp [b2n]
    simp only [packBits, List.length_cons, Nat.pow_succ]
    omega

/-- A list that is one piece. -/
theorem cut_one {α : Type} (n : Nat) (l : List α) (h0 : l ≠ []) (h : l.length < n) : cut n l = [l] := by
  obtain ⟨a, t, rfl⟩ := List.exists_cons_of_ne_nil h0
  simp only [cut, Nat.div_eq_of_lt h, chunksOf, List.isEmpty_cons, List.take_of_length_le (Nat.le_of_lt h), Bool.false_eq_true,
    if_false]

/-- Pieces of eight bits, byte by byte. -/
theorem chunksOf_bits (bs : List Byte) (f : Nat) (h : bs.length ≤ f) :
    chunksOf 8 f (bitsOfBytes bs) = bs.map (fun b => unpackBits 8 b.toNat) := by
  induction bs generalizing f with
  | nil => cases f <;> rfl
  | cons b bs ih =>
    cases f with
    | zero => simp at h
    | succ f =>
      have hb : bitsOfBytes (b :: bs) = unpackBits 8 b.toNat ++ bitsOfBytes bs := rfl
      have hl : (unpackBits 8 b.toNat).length = 8 := unpackBits_length _ _
      have hne : (unpackBits 8 b.toNat ++ bitsOfBytes bs).isEmpty = false := rfl
      rw [hb, chunksOf, hne, List.take_left' hl, List.drop_left' hl, ih f (by simpa using h)]
      rfl

/-- Every byte has eight bits. -/
@[simp] theorem bitsOfBytes_length (bs : List Byte) : (bitsOfBytes bs).length = 8 * bs.length := by
  induction bs with
  | nil => rfl
  | cons b bs ih =>
    show (unpackBits 8 b.toNat ++ bitsOfBytes bs).length = _
    simp only [List.length_append, unpackBits_length, ih, List.length_cons]
    omega

/-- Bytes taken apart and put together. -/
theorem bytesOfBits_bitsOfBytes (bs : List Byte) : bytesOfBits (bitsOfBytes bs) = bs := by
  have h := chunksOf_bits bs ((bitsOfBytes bs).length / 8 + 1) (by simp)
  simp only [bytesOfBits, cut, h, List.map_map]
  conv_rhs => rw [← List.map_id bs]
  refine List.map_congr_left fun b _ => ?_
  simp [packBits_unpackBits, Nat.mod_eq_of_lt b.isLt]

/-- Bits of whole bytes put together and taken apart. -/
theorem bitsOfBytes_bytesOfBits (l : List Bool) (n : Nat) (h : l.length = 8 * n) : bitsOfBytes (bytesOfBits l) = l := by
  have go : ∀ (n f : Nat) (l : List Bool), l.length = 8 * n → n ≤ f →
      bitsOfBytes ((chunksOf 8 f l).map (fun c => BitVec.ofNat 8 (packBits c))) = l := by
    intro n
    induction n with
    | zero =>
      intro f l h _
      have : l = [] := List.length_eq_zero_iff.mp (by omega)
      subst this
      cases f <;> rfl
    | succ n ih =>
      intro f l h hf
      obtain ⟨f, rfl⟩ : ∃ g, f = g + 1 := ⟨f - 1, by omega⟩
      have hne : l.isEmpty = false := by
        cases l with
        | nil => simp at h
        | cons a t => rfl
      have ht : (l.take 8).length = 8 := by simp; omega
      rw [chunksOf, hne]
      show unpackBits 8 (BitVec.ofNat 8 (packBits (l.take 8))).toNat ++ bitsOfBytes _ = _
      rw [ih f (l.drop 8) (by simp; omega) (by omega), BitVec.toNat_ofNat,
        Nat.mod_eq_of_lt (by have := packBits_lt (l.take 8); rwa [ht] at this)]
      have := unpackBits_packBits (l.take 8)
      rw [ht] at this
      rw [this, List.take_append_drop]
  exact go n _ l h (by omega)

/-! ## The scrambler and the codes -/

/-- As many bits are scrambled as there are. -/
@[simp] theorem scramble_length (r : Nat) (l : List Bool) : (scramble r l).length = l.length := by
  induction l generalizing r with
  | nil => rfl
  | cons b l ih => simp [scramble, ih]

/-- Scrambling twice leaves a stream as it was (R354). -/
theorem scramble_scramble (r : Nat) (l : List Bool) : scramble r (scramble r l) = l := by
  induction l generalizing r with
  | nil => rfl
  | cons b l ih => simp [scramble, ih]

/-- Ga of R355 takes the present bit. -/
theorem convTap_present : ∀ (p : Fin 64) (b : Bool),
    (convTap 0o133 p.val != convTap 0o133 (p.val + 64 * b2n b)) = b ∧ (p.val + 64 * b2n b) / 2 < 64 := by decide +kernel

/-- Six zeros leave the register at 0. -/
theorem codedInput_tail : ∀ p : Fin 64,
    codedInput p.val (convEncode p.val (List.replicate 6 false)) = some (List.replicate 6 false) := by decide +kernel

/-- A coded stream names its input (R355). -/
theorem codedInput_convEncode (l : List Bool) (p : Fin 64) :
    codedInput p.val (convEncode p.val (l ++ List.replicate 6 false)) = some (l ++ List.replicate 6 false) := by
  induction l generalizing p with
  | nil => exact codedInput_tail p
  | cons b l ih =>
    obtain ⟨h1, h2⟩ := convTap_present p b
    simp only [List.cons_append, convEncode, codedInput, h1, ih ⟨_, h2⟩, if_true, Option.map_some]

/-- A stream whose metrics have the right signs is decoded. -/
theorem decodeStream_clear (ms : List Rat) (l : List Bool) (h : ms.map (fun m => decide (0 < m)) = codedBits l) :
    decodeStream ms = l := by
  have := codedInput_convEncode l ⟨0, by omega⟩
  simp only [decodeStream, h, codedBits, this, List.length_append, List.length_replicate, Nat.add_sub_cancel]
  exact List.take_left

/-- The parity register keeps its 16 bytes. -/
theorem rsParity_length (b : List Byte) : (rsParity b).length = 16 := by
  have hg : ((rsGen 16).drop 1).length = 16 := by decide +kernel
  have go : ∀ (b : List Byte) (p : List Nat), p.length = 16 →
      (b.foldl (fun p x => rsStep ((rsGen 16).drop 1) p x.toNat) p).length = 16 := by
    intro b
    induction b with
    | nil => exact fun p h => h
    | cons x b ih =>
      intro p hp
      refine ih _ ?_
      cases p with
      | nil => simp at hp
      | cons y t =>
        simp only [rsStep, List.length_zipWith, List.length_append, List.length_map, hg]
        simp at hp ⊢
        omega
  simp only [rsParity, List.length_map]
  exact go b _ (by simp)

/-- A codeword as it was sent is one. -/
theorem rsData_clear (b : List Byte) : rsData (b ++ rsParity b) = some b := by
  have ht : (b ++ rsParity b).take ((b ++ rsParity b).length - 16) = b :=
    List.take_left' (by rw [List.length_append, rsParity_length, Nat.add_sub_cancel])
  have hd : (b ++ rsParity b).drop ((b ++ rsParity b).length - 16) = rsParity b :=
    List.drop_left' (by rw [List.length_append, rsParity_length, Nat.add_sub_cancel])
  generalize b ++ rsParity b = w at ht hd
  unfold rsData
  rw [ht, hd]
  exact if_pos rfl

/-- A codeword as it was sent is decoded. -/
theorem rsDecode_clear (b : List Byte) : rsDecode (b ++ rsParity b) = some b := by
  have h := rsData_clear b
  generalize b ++ rsParity b = w at h
  unfold rsDecode
  rw [h]

/-- The payload of one codeword that arrives undisturbed (R354, R366). -/
theorem openPayload_clear (p : List Byte) (h : p.length < 235) : openPayload p.length (bitsOfBytes (codewords p)) = some p := by
  have hc : (leBytes 4 (crc32 p)).length = 4 := leBytes_length _ _
  generalize hx : p ++ leBytes 4 (crc32 p) = plain
  have hpl : plain.length = p.length + 4 := by rw [← hx, List.length_append, hc]
  generalize hm : bytesOfBits (scramble 511 (bitsOfBytes plain)) = mixed
  have hb : bitsOfBytes mixed = scramble 511 (bitsOfBytes plain) := by
    rw [← hm]; exact bitsOfBytes_bytesOfBits _ plain.length (by simp)
  have hml : mixed.length = plain.length := by
    have := congrArg List.length hb
    rw [bitsOfBytes_length, scramble_length, bitsOfBytes_length] at this; omega
  have hne : mixed ≠ [] := by intro e; rw [e] at hml; simp at hml; omega
  have hw : codewords p = mixed ++ rsParity mixed := by
    simp only [codewords, hx, hm, cut_one 239 mixed hne (by omega), List.flatMap_cons, List.flatMap_nil, List.append_nil]
  have hcut : cut 255 (mixed ++ rsParity mixed) = [mixed ++ rsParity mixed] :=
    cut_one 255 _ (by simp [hne]) (by simp [rsParity_length]; omega)
  simp only [openPayload, hw, bytesOfBits_bitsOfBytes, hcut, allOf, rsDecode_clear, List.flatten_cons, List.flatten_nil,
    List.append_nil, hb, scramble_scramble]
  rw [← hx, List.take_left, List.drop_left, if_pos rfl]

/-! ## Symbols -/

/-- A symbol on input 0 with no sample zeroed whose 40 carriers show these bits. -/
def clearSym (bits : List Bool) : RxSym := { zeroed := [0], soft := [bits.map (fun b => [if b then 1 else -1])] }

/-- Input 0 alone, with an SNR of 0 dB everywhere. -/
def oneInput : Inputs := [(0, List.replicate 40 16)]

/-- The metric of a bit on such a symbol. -/
def clearMetric (b : Bool) : Rat := if b then 16 else -16

/-- The metrics of such a symbol in DBPSK. -/
theorem mapMetrics_clear (b0 bits : List Bool) (h : bits.length = 40) :
    mapMetrics oneInput map0.codes (clearSym b0) (clearSym bits) = bits.map clearMetric := by
  have hc : ∀ c, c < 40 → symMetric oneInput (clearSym b0) (clearSym bits) c 0 = clearMetric (bits.getD c false) := by
    intro c hc
    have hs : (1 : Rat) = 256 / ((256 - 0 : Nat) : Rat) := by norm_num
    have hg : (List.replicate 40 16).getD c 0 = 16 := by
      rw [List.getD_eq_getElem?_getD, List.getElem?_replicate]; simp [hc]
    have hb : (bits.map (fun b => ([if b then 1 else -1] : List Int))).getD c [] = [if bits.getD c false then 1 else -1] := by
      simp only [List.getD_eq_getElem?_getD, List.getElem?_map, List.getElem?_eq_getElem (h ▸ hc : c < bits.length)]
      rfl
    simp only [symMetric, oneInput, List.map_cons, List.map_nil, List.sum_cons, List.sum_nil, inputMetric, RxSym.erased, RxSym.scale,
      clearSym, List.getD_cons_zero, hg, hb, clearMetric]
    cases bits.getD c false <;> norm_num
  have hm : mapMetrics oneInput map0.codes (clearSym b0) (clearSym bits) =
      (upTo 40).map (fun c => symMetric oneInput (clearSym b0) (clearSym bits) c 0) := rfl
  rw [hm, List.map_congr_left (l := upTo 40) (fun c hm => hc c (List.mem_range.mp hm))]
  refine List.ext_getElem (by simp [upTo, h]) fun i h1 h2 => ?_
  simp only [upTo, List.getElem_map, List.getElem_range, List.getD_eq_getElem?_getD]
  rw [List.getElem?_eq_getElem (by simpa using h2)]
  rfl

/-- The metrics of a frame's symbols, the first of which stands before the payload. -/
theorem normalMetrics_clear (rows : List (List Bool)) (h : ∀ r ∈ rows, r.length = 40) :
    normalMetrics oneInput map0.codes (clearSym [] :: rows.map clearSym) =
      (cut 21 (rows.map (List.map clearMetric))).flatMap (deinterleave 0 40) := by
  have go : ∀ (rows : List (List Bool)) (b0 : List Bool), (∀ r ∈ rows, r.length = 40) →
      ((clearSym b0 :: rows.map clearSym).zip (rows.map clearSym)).map (fun p => mapMetrics oneInput map0.codes p.1 p.2) =
        rows.map (List.map clearMetric) := by
    intro rows
    induction rows with
    | nil => intro _ _; rfl
    | cons r rows ih =>
      intro b0 h
      simp only [List.map_cons, List.zip_cons_cons, ih r (fun x hx => h x (List.mem_cons_of_mem _ hx)),
        mapMetrics_clear b0 r (h r List.mem_cons_self)]
  have hb : mapBits map0.codes = 40 := rfl
  simp only [normalMetrics, List.tail_cons, go rows [] h, hb]

/-- A shift by `t` positions of 40 and back. -/
theorem sub_back (q t : Nat) (h : q < 40) : ((q + t) % 40 + 40 * 7 - t % 40) % 40 = q := by
  have : (q + t) % 40 = if q + t % 40 < 40 then q + t % 40 else q + t % 40 - 40 := by split <;> omega
  rw [this]
  split <;> omega

/-- A block that is interleaved over its symbols and back (R356). -/
theorem deinterleave_interleaved (blk : List Bool) (S : Nat) (h : blk.length = S * 40) :
    deinterleave (0 : Rat) 40 ((upTo S).map (fun s => (interleaved blk S 40 s).map clearMetric)) = blk.map clearMetric := by
  refine List.ext_getElem (by simp [deinterleave, upTo, h]) fun i h1 h2 => ?_
  have hi : i < S * 40 := by simpa [h] using h2
  have hS : 0 < S := by rcases Nat.eq_zero_or_pos S with e | e <;> [simp [e] at hi; exact e]
  have hs : i % S < S := Nat.mod_lt _ hS
  have hq : i / S < 40 := (Nat.div_lt_iff_lt_mul hS).mpr (by rw [Nat.mul_comm]; exact hi)
  have hp : (i / S + 7 * (i % S)) % 40 < 40 := Nat.mod_lt _ (by omega)
  have hback : ((i / S + 7 * (i % S)) % 40 + 40 * 7 - (7 * (i % S)) % 40) % 40 = i / S :=
    sub_back _ _ hq
  have hi' : i / S * S + i % S = i := by rw [Nat.mul_comm]; exact Nat.div_add_mod i S
  simp only [deinterleave, upTo, interleaved, List.length_map, List.length_range, List.getElem_map, List.getElem_range,
    List.getD_eq_getElem?_getD, List.getElem?_map, List.getElem?_range hs, Option.map_some, Option.getD_some,
    List.getElem?_range hp, hback, hi']
  rw [List.getElem?_eq_getElem (by simpa using h2)]
  rfl

/-- The rows of bits that a coded stream puts on the symbols of a frame in DBPSK (R356, R357). -/
def clearRows (coded : List Bool) : List (List Bool) :=
  (cut 840 coded).flatMap (fun blk => (upTo (blk.length / 40)).map (interleaved blk (blk.length / 40) 40))

/-- The rows give back the stream. -/
theorem rows_clear (n : Nat) (coded : List Bool) (h : coded.length = 40 * n) :
    (cut 21 ((clearRows coded).map (List.map clearMetric))).flatMap (deinterleave 0 40) = coded.map clearMetric ∧
      (∀ r ∈ clearRows coded, r.length = 40) := by
  have hrow : ∀ (blk : List Bool) (S s : Nat), (interleaved blk S 40 s).length = 40 := by
    intro blk S s; simp [interleaved, upTo]
  have go : ∀ (f n : Nat) (coded : List Bool), coded.length = 40 * n → n < 21 * f →
      let rows := (chunksOf 840 f coded).flatMap (fun blk => (upTo (blk.length / 40)).map (interleaved blk (blk.length / 40) 40))
      rows.length = n ∧
      (chunksOf 21 f (rows.map (List.map clearMetric))).flatMap (deinterleave 0 40) = coded.map clearMetric := by
    intro f
    induction f with
    | zero => intro n _ _ h; omega
    | succ f ih =>
      intro n coded h hn
      rcases Nat.eq_zero_or_pos n with rfl | hpos
      · have : coded = [] := List.length_eq_zero_iff.mp (by omega)
        subst this
        exact ⟨rfl, rfl⟩
      have hne : coded.isEmpty = false := by
        cases coded with
        | nil => simp at h; omega
        | cons a t => rfl
      have hblk : (coded.take 840).length = min n 21 * 40 := by simp; omega
      have hS : (coded.take 840).length / 40 = min n 21 := by rw [hblk]; omega
      have h1 := deinterleave_interleaved (coded.take 840) (min n 21) hblk
      generalize hr1 : (upTo (min n 21)).map (interleaved (coded.take 840) (min n 21) 40) = row1
      have hl1 : row1.length = min n 21 := by rw [← hr1]; simp [upTo]
      have hm1 : row1.map (List.map clearMetric) = (upTo (min n 21)).map
          (fun s => (interleaved (coded.take 840) (min n 21) 40 s).map clearMetric) := by
        rw [← hr1, List.map_map]; rfl
      rw [← hm1] at h1
      simp only [chunksOf, hne, Bool.false_eq_true, if_false, List.flatMap_cons, hS, hr1]
      rcases Nat.lt_or_ge 21 n with hbig | hsmall
      · obtain ⟨hrl, hrest⟩ := ih (n - 21) (coded.drop 840) (by simp; omega) (by omega)
        generalize (chunksOf 840 f (coded.drop 840)).flatMap
          (fun blk => (upTo (blk.length / 40)).map (interleaved blk (blk.length / 40) 40)) = rest at hrl hrest ⊢
        have hl : (row1.map (List.map clearMetric)).length = 21 := by simp [hl1]; omega
        have hne2 : ((row1 ++ rest).map (List.map clearMetric)).isEmpty = false := by
          rw [List.isEmpty_eq_false_iff]; intro e
          have := congrArg List.length e
          simp only [List.length_map, List.length_append, List.length_nil, hl1] at this; omega
        refine ⟨by simp [hl1, hrl]; omega, ?_⟩
        rw [if_neg (by rw [hne2]; exact Bool.false_ne_true)]
        simp only [List.flatMap_cons, List.map_append, List.take_left' hl, List.drop_left' hl, h1, hrest]
        rw [← List.map_append, List.take_append_drop]
      · have hd : coded.drop 840 = [] := List.drop_eq_nil_of_le (by omega)
        have hz : chunksOf 840 f ([] : List Bool) = [] := by cases f <;> rfl
        have hz2 : chunksOf 21 f ([] : List (List Rat)) = [] := by cases f <;> rfl
        have hne2 : (row1.map (List.map clearMetric)).isEmpty = false := by
          rw [List.isEmpty_eq_false_iff]; intro e
          have := congrArg List.length e
          simp only [List.length_map, List.length_nil, hl1] at this; omega
        have ht : (row1.map (List.map clearMetric)).take 21 = row1.map (List.map clearMetric) :=
          List.take_of_length_le (by simp [hl1])
        have hd2 : (row1.map (List.map clearMetric)).drop 21 = [] := List.drop_eq_nil_of_le (by simp [hl1])
        refine ⟨by simp [hd, hz, hl1]; omega, ?_⟩
        simp only [hd, hz, List.flatMap_nil, List.append_nil, hne2, Bool.false_eq_true, if_false, List.flatMap_cons, ht, hd2, hz2, h1,
          List.take_of_length_le (by omega : coded.length ≤ 840)]
  obtain ⟨hl, hd⟩ := go (n / 21 + 1) n coded h (by omega)
  have hc : coded.length / 840 + 1 = n / 21 + 1 := by rw [h]; omega
  refine ⟨?_, ?_⟩
  · simp only [clearRows, cut, hc, List.length_map, hl]
    exact hd
  · intro r hr
    simp only [clearRows, List.mem_flatMap, List.mem_map] at hr
    obtain ⟨_, _, _, _, rfl⟩ := hr
    exact hrow _ _ _

/-- The symbols of a frame that carries a payload in DBPSK, from the banner's last one on, as they arrive undisturbed. -/
def clearSyms (p : List Byte) : List RxSym :=
  clearSym [] :: (clearRows (padBits 40 (codedBits (bitsOfBytes (codewords p))))).map clearSym

/-- Two coded bits for each bit and the six of the tail (R355). -/
theorem convEncode_length (past : Nat) (l : List Bool) : (convEncode past l).length = 2 * l.length := by
  induction l generalizing past with
  | nil => rfl
  | cons b l ih => simp only [convEncode, List.length_cons, ih]; omega

/-- An undisturbed frame of one codeword is decoded to its payload (R349, R366). -/
theorem carrierPayload_clear (p : List Byte) (h : p.length < 235) :
    carrierPayload p.length (normalMetrics oneInput map0.codes (clearSyms p)) = some p := by
  have hcw : (codewords p).length = p.length + 20 := by
    have hc : (leBytes 4 (crc32 p)).length = 4 := leBytes_length _ _
    generalize hx : bytesOfBits (scramble 511 (bitsOfBytes (p ++ leBytes 4 (crc32 p)))) = mixed
    have hb := congrArg List.length (bitsOfBytes_bytesOfBits (scramble 511 (bitsOfBytes (p ++ leBytes 4 (crc32 p))))
      (p.length + 4) (by simp [hc]))
    rw [hx] at hb
    simp [hc] at hb
    have hne : mixed ≠ [] := by intro e; rw [e] at hb; simp at hb
    simp only [codewords, hx, cut_one 239 mixed hne (by omega), List.flatMap_cons, List.flatMap_nil, List.append_nil,
      List.length_append, rsParity_length]
    omega
  generalize hbits : bitsOfBytes (codewords p) = bits
  have hbl : bits.length = 8 * (p.length + 20) := by rw [← hbits, bitsOfBytes_length, hcw]
  have hcl : (codedBits bits).length = codedCount p.length := by
    simp only [codedBits, convEncode_length, List.length_append, List.length_replicate, hbl, codedCount]
    have : (p.length + 4 + 238) / 239 = 1 := by omega
    rw [this]
  obtain ⟨n, hn⟩ : ∃ n, (padBits 40 (codedBits bits)).length = 40 * n := by
    refine ⟨(padBits 40 (codedBits bits)).length / 40, ?_⟩
    simp only [padBits, List.length_append, List.length_replicate]
    omega
  obtain ⟨h1, h2⟩ := rows_clear n _ hn
  have hsign : ((padBits 40 (codedBits bits)).map clearMetric).take (codedCount p.length) = (codedBits bits).map clearMetric := by
    rw [padBits, List.map_append, List.take_left' (by simpa using hcl)]
  have hpos : ((codedBits bits).map clearMetric).map (fun m => decide (0 < m)) = codedBits bits := by
    rw [List.map_map]
    conv_rhs => rw [← List.map_id (codedBits bits)]
    refine List.map_congr_left fun b _ => ?_
    cases b <;> simp [clearMetric]
  simp only [carrierPayload, clearSyms, hbits, normalMetrics_clear _ h2, h1, hsign, decodeStream_clear _ _ hpos]
  rw [← hbits]
  exact openPayload_clear p h

end Sys2Proof.Laws
end

