-- ==== Sys2Proof/Laws/State.lean ====
section
/-! SUPPORT. What each update of one part of the device leaves of every part, so that no proof unfolds a record update. -/

namespace Sys2Proof.Machine

variable (d : Dev)

/-! ## onTime -/

@[simp] theorem Dev.onTime_time (f : TimeState → TimeState) : (d.onTime f).time = f d.time := rfl
@[simp] theorem Dev.onTime_power (f : TimeState → TimeState) : (d.onTime f).power = d.power := rfl
@[simp] theorem Dev.onTime_sys (f : TimeState → TimeState) : (d.onTime f).sys = d.sys := rfl
@[simp] theorem Dev.onTime_lane (f : TimeState → TimeState) : (d.onTime f).lane = d.lane := rfl
@[simp] theorem Dev.onTime_cycle (f : TimeState → TimeState) : (d.onTime f).cycle = d.cycle := rfl
@[simp] theorem Dev.onTime_image (f : TimeState → TimeState) : (d.onTime f).image = d.image := rfl
@[simp] theorem Dev.onTime_store (f : TimeState → TimeState) : (d.onTime f).store = d.store := rfl
@[simp] theorem Dev.onTime_mando (f : TimeState → TimeState) : (d.onTime f).mando = d.mando := rfl
@[simp] theorem Dev.onTime_sense (f : TimeState → TimeState) : (d.onTime f).sense = d.sense := rfl
@[simp] theorem Dev.onTime_whisk (f : TimeState → TimeState) : (d.onTime f).whisk = d.whisk := rfl
@[simp] theorem Dev.onTime_fan (f : TimeState → TimeState) : (d.onTime f).fan = d.fan := rfl
@[simp] theorem Dev.onTime_face (f : TimeState → TimeState) : (d.onTime f).face = d.face := rfl
@[simp] theorem Dev.onTime_line (f : TimeState → TimeState) : (d.onTime f).line = d.line := rfl
@[simp] theorem Dev.onTime_seat (f : TimeState → TimeState) : (d.onTime f).seat = d.seat := rfl
@[simp] theorem Dev.onTime_bus (f : TimeState → TimeState) : (d.onTime f).bus = d.bus := rfl
@[simp] theorem Dev.onTime_free (f : TimeState → TimeState) : (d.onTime f).free = d.free := rfl

/-! ## onPower -/

@[simp] theorem Dev.onPower_time (f : PowerState → PowerState) : (d.onPower f).time = d.time := rfl
@[simp] theorem Dev.onPower_power (f : PowerState → PowerState) : (d.onPower f).power = f d.power := rfl
@[simp] theorem Dev.onPower_sys (f : PowerState → PowerState) : (d.onPower f).sys = d.sys := rfl
@[simp] theorem Dev.onPower_lane (f : PowerState → PowerState) : (d.onPower f).lane = d.lane := rfl
@[simp] theorem Dev.onPower_cycle (f : PowerState → PowerState) : (d.onPower f).cycle = d.cycle := rfl
@[simp] theorem Dev.onPower_image (f : PowerState → PowerState) : (d.onPower f).image = d.image := rfl
@[simp] theorem Dev.onPower_store (f : PowerState → PowerState) : (d.onPower f).store = d.store := rfl
@[simp] theorem Dev.onPower_mando (f : PowerState → PowerState) : (d.onPower f).mando = d.mando := rfl
@[simp] theorem Dev.onPower_sense (f : PowerState → PowerState) : (d.onPower f).sense = d.sense := rfl
@[simp] theorem Dev.onPower_whisk (f : PowerState → PowerState) : (d.onPower f).whisk = d.whisk := rfl
@[simp] theorem Dev.onPower_fan (f : PowerState → PowerState) : (d.onPower f).fan = d.fan := rfl
@[simp] theorem Dev.onPower_face (f : PowerState → PowerState) : (d.onPower f).face = d.face := rfl
@[simp] theorem Dev.onPower_line (f : PowerState → PowerState) : (d.onPower f).line = d.line := rfl
@[simp] theorem Dev.onPower_seat (f : PowerState → PowerState) : (d.onPower f).seat = d.seat := rfl
@[simp] theorem Dev.onPower_bus (f : PowerState → PowerState) : (d.onPower f).bus = d.bus := rfl
@[simp] theorem Dev.onPower_free (f : PowerState → PowerState) : (d.onPower f).free = d.free := rfl

/-! ## onSys -/

@[simp] theorem Dev.onSys_time (f : SysState → SysState) : (d.onSys f).time = d.time := rfl
@[simp] theorem Dev.onSys_power (f : SysState → SysState) : (d.onSys f).power = d.power := rfl
@[simp] theorem Dev.onSys_sys (f : SysState → SysState) : (d.onSys f).sys = f d.sys := rfl
@[simp] theorem Dev.onSys_lane (f : SysState → SysState) : (d.onSys f).lane = d.lane := rfl
@[simp] theorem Dev.onSys_cycle (f : SysState → SysState) : (d.onSys f).cycle = d.cycle := rfl
@[simp] theorem Dev.onSys_image (f : SysState → SysState) : (d.onSys f).image = d.image := rfl
@[simp] theorem Dev.onSys_store (f : SysState → SysState) : (d.onSys f).store = d.store := rfl
@[simp] theorem Dev.onSys_mando (f : SysState → SysState) : (d.onSys f).mando = d.mando := rfl
@[simp] theorem Dev.onSys_sense (f : SysState → SysState) : (d.onSys f).sense = d.sense := rfl
@[simp] theorem Dev.onSys_whisk (f : SysState → SysState) : (d.onSys f).whisk = d.whisk := rfl
@[simp] theorem Dev.onSys_fan (f : SysState → SysState) : (d.onSys f).fan = d.fan := rfl
@[simp] theorem Dev.onSys_face (f : SysState → SysState) : (d.onSys f).face = d.face := rfl
@[simp] theorem Dev.onSys_line (f : SysState → SysState) : (d.onSys f).line = d.line := rfl
@[simp] theorem Dev.onSys_seat (f : SysState → SysState) : (d.onSys f).seat = d.seat := rfl
@[simp] theorem Dev.onSys_bus (f : SysState → SysState) : (d.onSys f).bus = d.bus := rfl
@[simp] theorem Dev.onSys_free (f : SysState → SysState) : (d.onSys f).free = d.free := rfl

/-! ## onLane -/

@[simp] theorem Dev.onLane_time (f : LaneState → LaneState) : (d.onLane f).time = d.time := rfl
@[simp] theorem Dev.onLane_power (f : LaneState → LaneState) : (d.onLane f).power = d.power := rfl
@[simp] theorem Dev.onLane_sys (f : LaneState → LaneState) : (d.onLane f).sys = d.sys := rfl
@[simp] theorem Dev.onLane_lane (f : LaneState → LaneState) : (d.onLane f).lane = f d.lane := rfl
@[simp] theorem Dev.onLane_cycle (f : LaneState → LaneState) : (d.onLane f).cycle = d.cycle := rfl
@[simp] theorem Dev.onLane_image (f : LaneState → LaneState) : (d.onLane f).image = d.image := rfl
@[simp] theorem Dev.onLane_store (f : LaneState → LaneState) : (d.onLane f).store = d.store := rfl
@[simp] theorem Dev.onLane_mando (f : LaneState → LaneState) : (d.onLane f).mando = d.mando := rfl
@[simp] theorem Dev.onLane_sense (f : LaneState → LaneState) : (d.onLane f).sense = d.sense := rfl
@[simp] theorem Dev.onLane_whisk (f : LaneState → LaneState) : (d.onLane f).whisk = d.whisk := rfl
@[simp] theorem Dev.onLane_fan (f : LaneState → LaneState) : (d.onLane f).fan = d.fan := rfl
@[simp] theorem Dev.onLane_face (f : LaneState → LaneState) : (d.onLane f).face = d.face := rfl
@[simp] theorem Dev.onLane_line (f : LaneState → LaneState) : (d.onLane f).line = d.line := rfl
@[simp] theorem Dev.onLane_seat (f : LaneState → LaneState) : (d.onLane f).seat = d.seat := rfl
@[simp] theorem Dev.onLane_bus (f : LaneState → LaneState) : (d.onLane f).bus = d.bus := rfl
@[simp] theorem Dev.onLane_free (f : LaneState → LaneState) : (d.onLane f).free = d.free := rfl

/-! ## onCycle -/

@[simp] theorem Dev.onCycle_time (f : CycleState → CycleState) : (d.onCycle f).time = d.time := rfl
@[simp] theorem Dev.onCycle_power (f : CycleState → CycleState) : (d.onCycle f).power = d.power := rfl
@[simp] theorem Dev.onCycle_sys (f : CycleState → CycleState) : (d.onCycle f).sys = d.sys := rfl
@[simp] theorem Dev.onCycle_lane (f : CycleState → CycleState) : (d.onCycle f).lane = d.lane := rfl
@[simp] theorem Dev.onCycle_cycle (f : CycleState → CycleState) : (d.onCycle f).cycle = f d.cycle := rfl
@[simp] theorem Dev.onCycle_image (f : CycleState → CycleState) : (d.onCycle f).image = d.image := rfl
@[simp] theorem Dev.onCycle_store (f : CycleState → CycleState) : (d.onCycle f).store = d.store := rfl
@[simp] theorem Dev.onCycle_mando (f : CycleState → CycleState) : (d.onCycle f).mando = d.mando := rfl
@[simp] theorem Dev.onCycle_sense (f : CycleState → CycleState) : (d.onCycle f).sense = d.sense := rfl
@[simp] theorem Dev.onCycle_whisk (f : CycleState → CycleState) : (d.onCycle f).whisk = d.whisk := rfl
@[simp] theorem Dev.onCycle_fan (f : CycleState → CycleState) : (d.onCycle f).fan = d.fan := rfl
@[simp] theorem Dev.onCycle_face (f : CycleState → CycleState) : (d.onCycle f).face = d.face := rfl
@[simp] theorem Dev.onCycle_line (f : CycleState → CycleState) : (d.onCycle f).line = d.line := rfl
@[simp] theorem Dev.onCycle_seat (f : CycleState → CycleState) : (d.onCycle f).seat = d.seat := rfl
@[simp] theorem Dev.onCycle_bus (f : CycleState → CycleState) : (d.onCycle f).bus = d.bus := rfl
@[simp] theorem Dev.onCycle_free (f : CycleState → CycleState) : (d.onCycle f).free = d.free := rfl

/-! ## onStore -/

@[simp] theorem Dev.onStore_time (f : StoreState → StoreState) : (d.onStore f).time = d.time := rfl
@[simp] theorem Dev.onStore_power (f : StoreState → StoreState) : (d.onStore f).power = d.power := rfl
@[simp] theorem Dev.onStore_sys (f : StoreState → StoreState) : (d.onStore f).sys = d.sys := rfl
@[simp] theorem Dev.onStore_lane (f : StoreState → StoreState) : (d.onStore f).lane = d.lane := rfl
@[simp] theorem Dev.onStore_cycle (f : StoreState → StoreState) : (d.onStore f).cycle = d.cycle := rfl
@[simp] theorem Dev.onStore_image (f : StoreState → StoreState) : (d.onStore f).image = d.image := rfl
@[simp] theorem Dev.onStore_store (f : StoreState → StoreState) : (d.onStore f).store = f d.store := rfl
@[simp] theorem Dev.onStore_mando (f : StoreState → StoreState) : (d.onStore f).mando = d.mando := rfl
@[simp] theorem Dev.onStore_sense (f : StoreState → StoreState) : (d.onStore f).sense = d.sense := rfl
@[simp] theorem Dev.onStore_whisk (f : StoreState → StoreState) : (d.onStore f).whisk = d.whisk := rfl
@[simp] theorem Dev.onStore_fan (f : StoreState → StoreState) : (d.onStore f).fan = d.fan := rfl
@[simp] theorem Dev.onStore_face (f : StoreState → StoreState) : (d.onStore f).face = d.face := rfl
@[simp] theorem Dev.onStore_line (f : StoreState → StoreState) : (d.onStore f).line = d.line := rfl
@[simp] theorem Dev.onStore_seat (f : StoreState → StoreState) : (d.onStore f).seat = d.seat := rfl
@[simp] theorem Dev.onStore_bus (f : StoreState → StoreState) : (d.onStore f).bus = d.bus := rfl
@[simp] theorem Dev.onStore_free (f : StoreState → StoreState) : (d.onStore f).free = d.free := rfl

/-! ## onMando -/

@[simp] theorem Dev.onMando_time (f : MandoState → MandoState) : (d.onMando f).time = d.time := rfl
@[simp] theorem Dev.onMando_power (f : MandoState → MandoState) : (d.onMando f).power = d.power := rfl
@[simp] theorem Dev.onMando_sys (f : MandoState → MandoState) : (d.onMando f).sys = d.sys := rfl
@[simp] theorem Dev.onMando_lane (f : MandoState → MandoState) : (d.onMando f).lane = d.lane := rfl
@[simp] theorem Dev.onMando_cycle (f : MandoState → MandoState) : (d.onMando f).cycle = d.cycle := rfl
@[simp] theorem Dev.onMando_image (f : MandoState → MandoState) : (d.onMando f).image = d.image := rfl
@[simp] theorem Dev.onMando_store (f : MandoState → MandoState) : (d.onMando f).store = d.store := rfl
@[simp] theorem Dev.onMando_mando (f : MandoState → MandoState) : (d.onMando f).mando = f d.mando := rfl
@[simp] theorem Dev.onMando_sense (f : MandoState → MandoState) : (d.onMando f).sense = d.sense := rfl
@[simp] theorem Dev.onMando_whisk (f : MandoState → MandoState) : (d.onMando f).whisk = d.whisk := rfl
@[simp] theorem Dev.onMando_fan (f : MandoState → MandoState) : (d.onMando f).fan = d.fan := rfl
@[simp] theorem Dev.onMando_face (f : MandoState → MandoState) : (d.onMando f).face = d.face := rfl
@[simp] theorem Dev.onMando_line (f : MandoState → MandoState) : (d.onMando f).line = d.line := rfl
@[simp] theorem Dev.onMando_seat (f : MandoState → MandoState) : (d.onMando f).seat = d.seat := rfl
@[simp] theorem Dev.onMando_bus (f : MandoState → MandoState) : (d.onMando f).bus = d.bus := rfl
@[simp] theorem Dev.onMando_free (f : MandoState → MandoState) : (d.onMando f).free = d.free := rfl

/-! ## onSense -/

@[simp] theorem Dev.onSense_time (f : SenseState → SenseState) : (d.onSense f).time = d.time := rfl
@[simp] theorem Dev.onSense_power (f : SenseState → SenseState) : (d.onSense f).power = d.power := rfl
@[simp] theorem Dev.onSense_sys (f : SenseState → SenseState) : (d.onSense f).sys = d.sys := rfl
@[simp] theorem Dev.onSense_lane (f : SenseState → SenseState) : (d.onSense f).lane = d.lane := rfl
@[simp] theorem Dev.onSense_cycle (f : SenseState → SenseState) : (d.onSense f).cycle = d.cycle := rfl
@[simp] theorem Dev.onSense_image (f : SenseState → SenseState) : (d.onSense f).image = d.image := rfl
@[simp] theorem Dev.onSense_store (f : SenseState → SenseState) : (d.onSense f).store = d.store := rfl
@[simp] theorem Dev.onSense_mando (f : SenseState → SenseState) : (d.onSense f).mando = d.mando := rfl
@[simp] theorem Dev.onSense_sense (f : SenseState → SenseState) : (d.onSense f).sense = f d.sense := rfl
@[simp] theorem Dev.onSense_whisk (f : SenseState → SenseState) : (d.onSense f).whisk = d.whisk := rfl
@[simp] theorem Dev.onSense_fan (f : SenseState → SenseState) : (d.onSense f).fan = d.fan := rfl
@[simp] theorem Dev.onSense_face (f : SenseState → SenseState) : (d.onSense f).face = d.face := rfl
@[simp] theorem Dev.onSense_line (f : SenseState → SenseState) : (d.onSense f).line = d.line := rfl
@[simp] theorem Dev.onSense_seat (f : SenseState → SenseState) : (d.onSense f).seat = d.seat := rfl
@[simp] theorem Dev.onSense_bus (f : SenseState → SenseState) : (d.onSense f).bus = d.bus := rfl
@[simp] theorem Dev.onSense_free (f : SenseState → SenseState) : (d.onSense f).free = d.free := rfl

/-! ## onFan -/

@[simp] theorem Dev.onFan_time (f : FanState → FanState) : (d.onFan f).time = d.time := rfl
@[simp] theorem Dev.onFan_power (f : FanState → FanState) : (d.onFan f).power = d.power := rfl
@[simp] theorem Dev.onFan_sys (f : FanState → FanState) : (d.onFan f).sys = d.sys := rfl
@[simp] theorem Dev.onFan_lane (f : FanState → FanState) : (d.onFan f).lane = d.lane := rfl
@[simp] theorem Dev.onFan_cycle (f : FanState → FanState) : (d.onFan f).cycle = d.cycle := rfl
@[simp] theorem Dev.onFan_image (f : FanState → FanState) : (d.onFan f).image = d.image := rfl
@[simp] theorem Dev.onFan_store (f : FanState → FanState) : (d.onFan f).store = d.store := rfl
@[simp] theorem Dev.onFan_mando (f : FanState → FanState) : (d.onFan f).mando = d.mando := rfl
@[simp] theorem Dev.onFan_sense (f : FanState → FanState) : (d.onFan f).sense = d.sense := rfl
@[simp] theorem Dev.onFan_whisk (f : FanState → FanState) : (d.onFan f).whisk = d.whisk := rfl
@[simp] theorem Dev.onFan_fan (f : FanState → FanState) : (d.onFan f).fan = f d.fan := rfl
@[simp] theorem Dev.onFan_face (f : FanState → FanState) : (d.onFan f).face = d.face := rfl
@[simp] theorem Dev.onFan_line (f : FanState → FanState) : (d.onFan f).line = d.line := rfl
@[simp] theorem Dev.onFan_seat (f : FanState → FanState) : (d.onFan f).seat = d.seat := rfl
@[simp] theorem Dev.onFan_bus (f : FanState → FanState) : (d.onFan f).bus = d.bus := rfl
@[simp] theorem Dev.onFan_free (f : FanState → FanState) : (d.onFan f).free = d.free := rfl

/-! ## onFace -/

@[simp] theorem Dev.onFace_time (f : FaceState → FaceState) : (d.onFace f).time = d.time := rfl
@[simp] theorem Dev.onFace_power (f : FaceState → FaceState) : (d.onFace f).power = d.power := rfl
@[simp] theorem Dev.onFace_sys (f : FaceState → FaceState) : (d.onFace f).sys = d.sys := rfl
@[simp] theorem Dev.onFace_lane (f : FaceState → FaceState) : (d.onFace f).lane = d.lane := rfl
@[simp] theorem Dev.onFace_cycle (f : FaceState → FaceState) : (d.onFace f).cycle = d.cycle := rfl
@[simp] theorem Dev.onFace_image (f : FaceState → FaceState) : (d.onFace f).image = d.image := rfl
@[simp] theorem Dev.onFace_store (f : FaceState → FaceState) : (d.onFace f).store = d.store := rfl
@[simp] theorem Dev.onFace_mando (f : FaceState → FaceState) : (d.onFace f).mando = d.mando := rfl
@[simp] theorem Dev.onFace_sense (f : FaceState → FaceState) : (d.onFace f).sense = d.sense := rfl
@[simp] theorem Dev.onFace_whisk (f : FaceState → FaceState) : (d.onFace f).whisk = d.whisk := rfl
@[simp] theorem Dev.onFace_fan (f : FaceState → FaceState) : (d.onFace f).fan = d.fan := rfl
@[simp] theorem Dev.onFace_face (f : FaceState → FaceState) : (d.onFace f).face = f d.face := rfl
@[simp] theorem Dev.onFace_line (f : FaceState → FaceState) : (d.onFace f).line = d.line := rfl
@[simp] theorem Dev.onFace_seat (f : FaceState → FaceState) : (d.onFace f).seat = d.seat := rfl
@[simp] theorem Dev.onFace_bus (f : FaceState → FaceState) : (d.onFace f).bus = d.bus := rfl
@[simp] theorem Dev.onFace_free (f : FaceState → FaceState) : (d.onFace f).free = d.free := rfl

/-! ## onLine -/

@[simp] theorem Dev.onLine_time (f : LineState → LineState) : (d.onLine f).time = d.time := rfl
@[simp] theorem Dev.onLine_power (f : LineState → LineState) : (d.onLine f).power = d.power := rfl
@[simp] theorem Dev.onLine_sys (f : LineState → LineState) : (d.onLine f).sys = d.sys := rfl
@[simp] theorem Dev.onLine_lane (f : LineState → LineState) : (d.onLine f).lane = d.lane := rfl
@[simp] theorem Dev.onLine_cycle (f : LineState → LineState) : (d.onLine f).cycle = d.cycle := rfl
@[simp] theorem Dev.onLine_image (f : LineState → LineState) : (d.onLine f).image = d.image := rfl
@[simp] theorem Dev.onLine_store (f : LineState → LineState) : (d.onLine f).store = d.store := rfl
@[simp] theorem Dev.onLine_mando (f : LineState → LineState) : (d.onLine f).mando = d.mando := rfl
@[simp] theorem Dev.onLine_sense (f : LineState → LineState) : (d.onLine f).sense = d.sense := rfl
@[simp] theorem Dev.onLine_whisk (f : LineState → LineState) : (d.onLine f).whisk = d.whisk := rfl
@[simp] theorem Dev.onLine_fan (f : LineState → LineState) : (d.onLine f).fan = d.fan := rfl
@[simp] theorem Dev.onLine_face (f : LineState → LineState) : (d.onLine f).face = d.face := rfl
@[simp] theorem Dev.onLine_line (f : LineState → LineState) : (d.onLine f).line = f d.line := rfl
@[simp] theorem Dev.onLine_seat (f : LineState → LineState) : (d.onLine f).seat = d.seat := rfl
@[simp] theorem Dev.onLine_bus (f : LineState → LineState) : (d.onLine f).bus = d.bus := rfl
@[simp] theorem Dev.onLine_free (f : LineState → LineState) : (d.onLine f).free = d.free := rfl

/-! ## onSeat -/

@[simp] theorem Dev.onSeat_time (f : SeatState → SeatState) : (d.onSeat f).time = d.time := rfl
@[simp] theorem Dev.onSeat_power (f : SeatState → SeatState) : (d.onSeat f).power = d.power := rfl
@[simp] theorem Dev.onSeat_sys (f : SeatState → SeatState) : (d.onSeat f).sys = d.sys := rfl
@[simp] theorem Dev.onSeat_lane (f : SeatState → SeatState) : (d.onSeat f).lane = d.lane := rfl
@[simp] theorem Dev.onSeat_cycle (f : SeatState → SeatState) : (d.onSeat f).cycle = d.cycle := rfl
@[simp] theorem Dev.onSeat_image (f : SeatState → SeatState) : (d.onSeat f).image = d.image := rfl
@[simp] theorem Dev.onSeat_store (f : SeatState → SeatState) : (d.onSeat f).store = d.store := rfl
@[simp] theorem Dev.onSeat_mando (f : SeatState → SeatState) : (d.onSeat f).mando = d.mando := rfl
@[simp] theorem Dev.onSeat_sense (f : SeatState → SeatState) : (d.onSeat f).sense = d.sense := rfl
@[simp] theorem Dev.onSeat_whisk (f : SeatState → SeatState) : (d.onSeat f).whisk = d.whisk := rfl
@[simp] theorem Dev.onSeat_fan (f : SeatState → SeatState) : (d.onSeat f).fan = d.fan := rfl
@[simp] theorem Dev.onSeat_face (f : SeatState → SeatState) : (d.onSeat f).face = d.face := rfl
@[simp] theorem Dev.onSeat_line (f : SeatState → SeatState) : (d.onSeat f).line = d.line := rfl
@[simp] theorem Dev.onSeat_seat (f : SeatState → SeatState) : (d.onSeat f).seat = f d.seat := rfl
@[simp] theorem Dev.onSeat_bus (f : SeatState → SeatState) : (d.onSeat f).bus = d.bus := rfl
@[simp] theorem Dev.onSeat_free (f : SeatState → SeatState) : (d.onSeat f).free = d.free := rfl

/-! ## onBus -/

@[simp] theorem Dev.onBus_time (f : BusState → BusState) : (d.onBus f).time = d.time := rfl
@[simp] theorem Dev.onBus_power (f : BusState → BusState) : (d.onBus f).power = d.power := rfl
@[simp] theorem Dev.onBus_sys (f : BusState → BusState) : (d.onBus f).sys = d.sys := rfl
@[simp] theorem Dev.onBus_lane (f : BusState → BusState) : (d.onBus f).lane = d.lane := rfl
@[simp] theorem Dev.onBus_cycle (f : BusState → BusState) : (d.onBus f).cycle = d.cycle := rfl
@[simp] theorem Dev.onBus_image (f : BusState → BusState) : (d.onBus f).image = d.image := rfl
@[simp] theorem Dev.onBus_store (f : BusState → BusState) : (d.onBus f).store = d.store := rfl
@[simp] theorem Dev.onBus_mando (f : BusState → BusState) : (d.onBus f).mando = d.mando := rfl
@[simp] theorem Dev.onBus_sense (f : BusState → BusState) : (d.onBus f).sense = d.sense := rfl
@[simp] theorem Dev.onBus_whisk (f : BusState → BusState) : (d.onBus f).whisk = d.whisk := rfl
@[simp] theorem Dev.onBus_fan (f : BusState → BusState) : (d.onBus f).fan = d.fan := rfl
@[simp] theorem Dev.onBus_face (f : BusState → BusState) : (d.onBus f).face = d.face := rfl
@[simp] theorem Dev.onBus_line (f : BusState → BusState) : (d.onBus f).line = d.line := rfl
@[simp] theorem Dev.onBus_seat (f : BusState → BusState) : (d.onBus f).seat = d.seat := rfl
@[simp] theorem Dev.onBus_bus (f : BusState → BusState) : (d.onBus f).bus = f d.bus := rfl
@[simp] theorem Dev.onBus_free (f : BusState → BusState) : (d.onBus f).free = d.free := rfl

/-! ## onUnit, which changes one Whisk unit -/

@[simp] theorem Dev.onUnit_time (u : Nat) (f : Whisk → Whisk) : (d.onUnit u f).time = d.time := rfl
@[simp] theorem Dev.onUnit_power (u : Nat) (f : Whisk → Whisk) : (d.onUnit u f).power = d.power := rfl
@[simp] theorem Dev.onUnit_sys (u : Nat) (f : Whisk → Whisk) : (d.onUnit u f).sys = d.sys := rfl
@[simp] theorem Dev.onUnit_lane (u : Nat) (f : Whisk → Whisk) : (d.onUnit u f).lane = d.lane := rfl
@[simp] theorem Dev.onUnit_cycle (u : Nat) (f : Whisk → Whisk) : (d.onUnit u f).cycle = d.cycle := rfl
@[simp] theorem Dev.onUnit_image (u : Nat) (f : Whisk → Whisk) : (d.onUnit u f).image = d.image := rfl
@[simp] theorem Dev.onUnit_store (u : Nat) (f : Whisk → Whisk) : (d.onUnit u f).store = d.store := rfl
@[simp] theorem Dev.onUnit_mando (u : Nat) (f : Whisk → Whisk) : (d.onUnit u f).mando = d.mando := rfl
@[simp] theorem Dev.onUnit_sense (u : Nat) (f : Whisk → Whisk) : (d.onUnit u f).sense = d.sense := rfl
@[simp] theorem Dev.onUnit_whisk (u : Nat) (f : Whisk → Whisk) : (d.onUnit u f).whisk = vupdN d.whisk u f := rfl
@[simp] theorem Dev.onUnit_fan (u : Nat) (f : Whisk → Whisk) : (d.onUnit u f).fan = d.fan := rfl
@[simp] theorem Dev.onUnit_face (u : Nat) (f : Whisk → Whisk) : (d.onUnit u f).face = d.face := rfl
@[simp] theorem Dev.onUnit_line (u : Nat) (f : Whisk → Whisk) : (d.onUnit u f).line = d.line := rfl
@[simp] theorem Dev.onUnit_seat (u : Nat) (f : Whisk → Whisk) : (d.onUnit u f).seat = d.seat := rfl
@[simp] theorem Dev.onUnit_bus (u : Nat) (f : Whisk → Whisk) : (d.onUnit u f).bus = d.bus := rfl
@[simp] theorem Dev.onUnit_free (u : Nat) (f : Whisk → Whisk) : (d.onUnit u f).free = d.free := rfl

/-! ## The attention bits that follow a command -/

@[simp] theorem Dev.settle_time (b : Dev) : (Dev.settle b d).time = d.time := rfl
@[simp] theorem Dev.settle_power (b : Dev) : (Dev.settle b d).power = d.power := rfl
@[simp] theorem Dev.settle_sys (b : Dev) : (Dev.settle b d).sys = d.sys := rfl
@[simp] theorem Dev.settle_lane (b : Dev) : (Dev.settle b d).lane = d.lane := rfl
@[simp] theorem Dev.settle_cycle (b : Dev) : (Dev.settle b d).cycle = d.cycle := rfl
@[simp] theorem Dev.settle_image (b : Dev) : (Dev.settle b d).image = d.image := rfl
@[simp] theorem Dev.settle_store (b : Dev) : (Dev.settle b d).store = d.store := rfl
@[simp] theorem Dev.settle_mando (b : Dev) : (Dev.settle b d).mando = d.mando := rfl
@[simp] theorem Dev.settle_sense (b : Dev) : (Dev.settle b d).sense = d.sense := rfl
@[simp] theorem Dev.settle_whisk (b : Dev) : (Dev.settle b d).whisk = d.whisk := rfl
@[simp] theorem Dev.settle_fan (b : Dev) : (Dev.settle b d).fan = d.fan := rfl
@[simp] theorem Dev.settle_face (b : Dev) : (Dev.settle b d).face = d.face := rfl
@[simp] theorem Dev.settle_line (b : Dev) : (Dev.settle b d).line = d.line := rfl
@[simp] theorem Dev.settle_bus (b : Dev) : (Dev.settle b d).bus = d.bus := rfl
@[simp] theorem Dev.settle_free (b : Dev) : (Dev.settle b d).free = d.free := rfl

/-! ## The state -/

@[simp] theorem State.act_eq (s : State) (f : Dev → Dev) :
    s.act f = .next { s with dev := Dev.settle s.dev (f s.dev).logFlush } := rfl

@[simp] theorem State.lane_eq (s : State) (f : Dev → Dev) : s.lane f = .next { s with dev := f s.dev } := rfl

end Sys2Proof.Machine
end

