-- ==== Sys2Proof/Laws/Log.lean ====
section
/-! SUPPORT. The fault log and the attention bits that follow every command (R569 to R571, Table 14.5): what they leave
as it is, and that no event waits behind them. -/

namespace Sys2Proof.Laws

open Sys2Proof.Machine Sys2Proof.Safety

/-- The parts of the store that a log entry leaves as they are. -/
def LogKeeps (s u : StoreState) : Prop :=
  u = { s with queue := u.queue, lost := u.lost, logSeq := u.logSeq, logCount := u.logCount, logLost := u.logLost }

theorem LogKeeps.refl (s : StoreState) : LogKeeps s s := rfl

theorem LogKeeps.trans {a b c : StoreState} (h : LogKeeps a b) (k : LogKeeps b c) : LogKeeps a c := by
  unfold LogKeeps at *
  rw [k, h]

theorem writeImm_keeps (s : StoreState) (g : Nat) (b : List Byte) : LogKeeps s (s.writeImm g b) := by
  unfold StoreState.writeImm StoreState.writeImmBy LogKeeps
  split <;> rfl

theorem foldl_keeps {α : Type} (f : StoreState → α → StoreState) (hf : ∀ s a, LogKeeps s (f s a)) (l : List α)
    (s : StoreState) : LogKeeps s (l.foldl f s) := by
  induction l generalizing s with
  | nil => exact LogKeeps.refl s
  | cons a l ih => exact (hf s a).trans (ih _)

theorem writeEntry_keeps (stamp : Nat × Bool) (s : StoreState) (e : LogEvent) : LogKeeps s (writeEntry stamp s e) := by
  unfold writeEntry
  split
  · rfl
  · exact (foldl_keeps (fun u (p : List Byte × Nat) => u.writeImm (0x600 + 4 * (s.logSeq % 192) + p.2) p.1)
      (fun _ _ => writeImm_keeps _ _ _) _ s).trans rfl

/-- Writing the waiting events changes the queue of larder writes and the log's own counts alone, and none waits after. -/
theorem logFlush_store (d : Dev) : LogKeeps { d.store with logPend := [] } d.logFlush.store :=
  foldl_keeps _ (fun s e => writeEntry_keeps _ s e) d.store.logPend { d.store with logPend := [] }

@[simp] theorem logFlush_logPend (d : Dev) : d.logFlush.store.logPend = [] := by
  rw [logFlush_store d]

/-- After every command but those of a lane no event waits. -/
theorem act_logged {s t : State} {f : Dev → Dev} (h : s.act f = .next t) : Logged t.dev := by
  cases h
  exact logFlush_logPend _

@[simp] theorem logFlush_time (d : Dev) : d.logFlush.time = d.time := rfl
@[simp] theorem logFlush_power (d : Dev) : d.logFlush.power = d.power := rfl
@[simp] theorem logFlush_sys (d : Dev) : d.logFlush.sys = d.sys := rfl
@[simp] theorem logFlush_lane (d : Dev) : d.logFlush.lane = d.lane := rfl
@[simp] theorem logFlush_cycle (d : Dev) : d.logFlush.cycle = d.cycle := rfl
@[simp] theorem logFlush_image (d : Dev) : d.logFlush.image = d.image := rfl
@[simp] theorem logFlush_mando (d : Dev) : d.logFlush.mando = d.mando := rfl
@[simp] theorem logFlush_sense (d : Dev) : d.logFlush.sense = d.sense := rfl
@[simp] theorem logFlush_whisk (d : Dev) : d.logFlush.whisk = d.whisk := rfl
@[simp] theorem logFlush_fan (d : Dev) : d.logFlush.fan = d.fan := rfl
@[simp] theorem logFlush_face (d : Dev) : d.logFlush.face = d.face := rfl
@[simp] theorem logFlush_line (d : Dev) : d.logFlush.line = d.line := rfl
@[simp] theorem logFlush_seat (d : Dev) : d.logFlush.seat = d.seat := rfl
@[simp] theorem logFlush_bus (d : Dev) : d.logFlush.bus = d.bus := rfl
@[simp] theorem logFlush_free (d : Dev) : d.logFlush.free = d.free := rfl

/-- With no event waiting there is nothing to write. -/
theorem logFlush_logged {d : Dev} (h : Logged d) : d.logFlush = d := by
  unfold Logged at h
  unfold Dev.logFlush Dev.onStore
  simp only [h, List.foldl_nil]
  rw [show ({ d.store with logPend := [] } : StoreState) = d.store by rw [← h]]

/-- One event raised with none waiting is one entry written. -/
theorem logFlush_event {d : Dev} (h : Logged d) (code subject detail tag aux : Nat) :
    (d.event code subject detail tag aux).logFlush = withEntry d code subject detail tag aux := by
  unfold Logged at h
  unfold Dev.event Dev.logFlush Dev.onStore withEntry
  simp only [h, insertEvent, List.foldl_cons, List.foldl_nil]
  rw [show ({ d.store with logPend := [] } : StoreState) = d.store by rw [← h]]
  rfl

theorem roseBits_self {n : Nat} (a : BitVec n) : roseBits a a = false := by
  simp [roseBits]

/-- Where neither the mode nor a guarantee changes, no attention bit rises. -/
theorem settle_calm {b d : Dev} (hm : d.sys.mode = b.sys.mode) (hv : d.void = b.void)
    (hr : d.retirePend = b.retirePend) : Dev.settle b d = d := by
  unfold Dev.settle
  rw [hv, hr, roseBits_self]
  simp only [hm]
  simp

theorem settle_same {b d : Dev} (hs : d.sys = b.sys) : Dev.settle b d = d :=
  settle_calm (by rw [hs]) (by simp [Dev.void, Dev.retirePend, hs]) (by simp [Dev.retirePend, hs])

/-- A command that raises no event and leaves SYS as it is does its effect and nothing else. -/
theorem act_quiet {s : State} {f : Dev → Dev} (h : Logged (f s.dev)) (hs : (f s.dev).sys = s.dev.sys) :
    s.act f = .next { s with dev := f s.dev } := by
  unfold State.act
  rw [logFlush_logged h, settle_same hs]

/-- A command that raises no event and changes neither the mode nor a guarantee. -/
theorem act_calm {s : State} {f : Dev → Dev} (h : Logged (f s.dev)) (hm : (f s.dev).sys.mode = s.dev.sys.mode)
    (hv : (f s.dev).void = s.dev.void) (hr : (f s.dev).retirePend = s.dev.retirePend) :
    s.act f = .next { s with dev := f s.dev } := by
  unfold State.act
  rw [logFlush_logged h, settle_calm hm hv hr]

end Sys2Proof.Laws
end

