-- ==== Sys2Proof/Laws/Mem.lean ====
section
/-! SUPPORT. The canonical form of a memory: every operation keeps it, and a read sees what was written. -/

namespace Sys2Proof.Machine

variable {d : Nat → Byte}

theorem Mem.wfFrom_mono {lo lo' : Nat} {m : Mem} (h : Mem.wfFrom d lo m = true) (hl : lo' ≤ lo) :
    Mem.wfFrom d lo' m = true := by
  cases m with
  | nil => rfl
  | cons c m =>
    simp only [Mem.wfFrom, Bool.and_eq_true, decide_eq_true_eq] at h ⊢
    exact ⟨⟨by omega, h.1.2⟩, h.2⟩

theorem Mem.insert_wfFrom {lo a : Nat} {v : Byte} {m : Mem} (h : Mem.wfFrom d lo m = true) (ha : lo ≤ a)
    (hv : v ≠ d a) : Mem.wfFrom d lo (Mem.insert a v m) = true := by
  induction m generalizing lo with
  | nil => simp [Mem.insert, Mem.wfFrom, ha, hv]
  | cons c m ih =>
    obtain ⟨b, w⟩ := c
    simp only [Mem.wfFrom, Bool.and_eq_true, decide_eq_true_eq] at h
    obtain ⟨⟨hb, hw⟩, hm⟩ := h
    simp only [Mem.insert]
    split
    · simp only [Mem.wfFrom, Bool.and_eq_true, decide_eq_true_eq, bne_iff_ne, ne_eq]
      exact ⟨⟨ha, hv⟩, ⟨by omega, by simpa using hw⟩, hm⟩
    · split
      · subst_vars
        simp only [Mem.wfFrom, Bool.and_eq_true, decide_eq_true_eq, bne_iff_ne, ne_eq]
        exact ⟨⟨ha, hv⟩, hm⟩
      · simp only [Mem.wfFrom, Bool.and_eq_true, decide_eq_true_eq]
        exact ⟨⟨hb, hw⟩, ih hm (by omega)⟩

theorem Mem.erase_wfFrom {lo a : Nat} {m : Mem} (h : Mem.wfFrom d lo m = true) :
    Mem.wfFrom d lo (Mem.erase a m) = true := by
  induction m generalizing lo with
  | nil => rfl
  | cons c m ih =>
    obtain ⟨b, w⟩ := c
    have h0 := h
    simp only [Mem.wfFrom, Bool.and_eq_true, decide_eq_true_eq] at h
    obtain ⟨⟨hb, hw⟩, hm⟩ := h
    simp only [Mem.erase]
    split
    · exact Mem.wfFrom_mono hm (by omega)
    · split
      · exact h0
      · simp only [Mem.wfFrom, Bool.and_eq_true, decide_eq_true_eq]
        exact ⟨⟨hb, hw⟩, ih hm⟩

/-- A write of one byte keeps the canonical form. -/
theorem Mem.write_wf {m : Mem} (h : Memory.wf d m = true) (a : Nat) (v : Byte) :
    Memory.wf d (Mem.write d m a v) = true := by
  unfold Mem.write Memory.wf at *
  split
  · exact Mem.erase_wfFrom h
  · exact Mem.insert_wfFrom h (Nat.zero_le a) ‹_›

/-- A write of consecutive bytes keeps the canonical form. -/
theorem Mem.writeBytes_wf {m : Mem} (h : Memory.wf d m = true) (a : Nat) (vs : List Byte) :
    Memory.wf d (Mem.writeBytes d m a vs) = true := by
  induction vs generalizing m a with
  | nil => exact h
  | cons v vs ih => exact ih (Mem.write_wf h a v) (a + 1)

/-- Returning a range to the default keeps the canonical form. -/
theorem Mem.clear_wf {m : Mem} (h : Memory.wf d m = true) (lo hi : Nat) :
    Memory.wf d (Mem.clear m lo hi) = true := by
  unfold Memory.wf Mem.clear at *
  generalize 0 = k at h ⊢
  induction m generalizing k with
  | nil => rfl
  | cons c m ih =>
    obtain ⟨b, w⟩ := c
    simp only [Mem.wfFrom, Bool.and_eq_true, decide_eq_true_eq] at h
    obtain ⟨⟨hb, hw⟩, hm⟩ := h
    rw [List.filter_cons]
    split
    · simp only [Mem.wfFrom, Bool.and_eq_true, decide_eq_true_eq]
      exact ⟨⟨hb, hw⟩, ih _ hm⟩
    · exact Mem.wfFrom_mono (ih _ hm) (by omega)

/-- Below its first address a memory reads as the default. -/
theorem Mem.read_below {lo a : Nat} {m : Mem} (h : Mem.wfFrom d lo m = true) (ha : a < lo) : Mem.read d m a = d a := by
  cases m with
  | nil => rfl
  | cons c m =>
    simp only [Mem.wfFrom, Bool.and_eq_true, decide_eq_true_eq] at h
    simp only [Mem.read]
    rw [if_neg (by omega), if_pos (by omega)]

theorem Mem.read_insert {a x : Nat} {v : Byte} {m : Mem} :
    Mem.read d (Mem.insert a v m) x = if x = a then v else Mem.read d m x := by
  induction m with
  | nil =>
    simp only [Mem.insert, Mem.read]
    split
    · rfl
    · split <;> rfl
  | cons c m ih =>
    obtain ⟨b, w⟩ := c
    simp only [Mem.insert]
    split
    · simp only [Mem.read]
      split
      · rfl
      · split
        · rw [if_neg (by omega), if_pos (by omega)]
        · rfl
    · split
      · subst_vars
        simp only [Mem.read]
        split <;> rfl
      · simp only [Mem.read, ih]
        repeat' split
        all_goals first | rfl | omega

theorem Mem.read_erase {lo a x : Nat} {m : Mem} (h : Mem.wfFrom d lo m = true) :
    Mem.read d (Mem.erase a m) x = if x = a then d a else Mem.read d m x := by
  induction m generalizing lo with
  | nil => simp only [Mem.erase, Mem.read]; split <;> simp_all
  | cons c m ih =>
    obtain ⟨b, w⟩ := c
    simp only [Mem.wfFrom, Bool.and_eq_true, decide_eq_true_eq] at h
    obtain ⟨⟨hb, hw⟩, hm⟩ := h
    simp only [Mem.erase]
    split
    · subst_vars
      simp only [Mem.read]
      split
      · subst_vars; exact Mem.read_below hm (by omega)
      · split
        · exact Mem.read_below hm (by omega)
        · rfl
    · split
      · have hx : x = a → Mem.read d ((b, w) :: m) x = d a := by
          rintro rfl
          simp only [Mem.read]
          rw [if_neg (by omega), if_pos (by omega)]
        split
        · exact hx ‹_›
        · rfl
      · simp only [Mem.read, ih hm]
        repeat' split
        all_goals first | rfl | omega

/-- A byte reads as what was written last. -/
theorem Mem.read_write {m : Mem} (h : Memory.wf d m = true) (a x : Nat) (v : Byte) :
    Mem.read d (Mem.write d m a v) x = if x = a then v else Mem.read d m x := by
  unfold Mem.write
  split
  · rw [Mem.read_erase h]; split <;> simp_all
  · exact Mem.read_insert

/-- Consecutive bytes written: inside them the byte written, outside them the byte before. -/
theorem Mem.read_writeBytes {m : Mem} (h : Memory.wf d m = true) (a x : Nat) (vs : List Byte) :
    Mem.read d (Mem.writeBytes d m a vs) x =
      if a ≤ x then (match vs[x - a]? with | some v => v | none => Mem.read d m x) else Mem.read d m x := by
  induction vs generalizing m a with
  | nil => simp [Mem.writeBytes]
  | cons v vs ih =>
    rw [Mem.writeBytes, ih (Mem.write_wf h a v), Mem.read_write h]
    rcases Nat.lt_trichotomy x a with hx | hx | hx
    · simp [show ¬a + 1 ≤ x by omega, show ¬a ≤ x by omega, show ¬x = a by omega]
    · subst hx; simp [show ¬x + 1 ≤ x by omega]
    · have e : x - a = (x - (a + 1)) + 1 := by omega
      simp [show a + 1 ≤ x by omega, show a ≤ x by omega, show ¬x = a by omega, e]

end Sys2Proof.Machine
end

