-- ==== Sys2Proof/Laws/Net.lean ====
section
/-! SUPPORT. When the MAC accepts a frame (R377, R380, R382, R383, R385, R401), said once. -/

namespace Sys2Proof.Laws

open Sys2Proof.Machine

/-- A delivered frame of this network that is for this node or every neighbour, opens under its key and has a newer LSEQ than
the last accepted from its sender is handed on with its opened body. -/
theorem deliver_accepts {d : Dev} {ft : Nat} {f : RxFrame} {m : Mac} {rest body : List Byte}
    (hkey : d.line.key.all (· == 0) = false)
    (hp : parseMac f.bytes = some (m, rest)) (hn : m.netId = d.line.params.netId.toNat) (hf : m.ftype = ft)
    (hl : m.bcast = true ∨ m.ldst = d.addr)
    (ho : ccmOpen (m.keyOf d.line.key) m.nonce m.header (rest.take (rest.length - 8)) (rest.drop (rest.length - 8)) = some body)
    (hnew : ∀ x h, d.line.neighbour m.lsrc = some x → x.lseq = some h → h < m.lseq)
    (hd : m.bcast = true ∨ m.fdst = d.addr) :
    ∃ d1, d.deliver ft f = (d1, some { m with body }) := by
  have h1 : (!m.bcast && m.ldst != d.addr) = false := by
    rcases hl with h | h <;> simp [h]
  subst hf
  have hn' : (m.netId != d.line.params.netId.toNat) = false := by simp [hn]
  have last : ∀ e : Dev, ∃ d1, (if m.bcast = true then (e, some { m with body }) else if m.fdst = d.addr then
      (e, some { m with body }) else if (m.ftype = 6 || m.ftype = 7 || m.ftype = 10) = true then
      (e.forward { m with body }, none) else (e, none)) = (d1, some { m with body }) := by
    intro e
    rcases hd with h | h
    · exact ⟨e, if_pos h⟩
    · by_cases hb : m.bcast = true
      · exact ⟨e, if_pos hb⟩
      · exact ⟨e, by rw [if_neg hb, if_pos h]⟩
  unfold Dev.deliver
  simp only [hkey, hp, hn', h1, ho, bne_self_eq_false, if_false, Bool.false_eq_true]
  cases hx : d.line.neighbour m.lsrc with
  | none => exact last _
  | some x =>
    cases hs : x.lseq with
    | none => simp only [hs]; exact last _
    | some h =>
      have := hnew x h hx hs
      simp only [hs, show ¬ m.lseq ≤ h by omega, decide_false, if_false, Bool.false_eq_true]
      exact last _

/-- A frame of the type heard that the receiver delivers and the MAC accepts is handed on with its report. -/
theorem receive_of_deliver {d d0 d1 : Dev} {ft : Nat} {e : RxEnd} {f : RxFrame} {m : Mac}
    (hr : d.received e = (d0, some f)) (hd : d0.deliver ft f = (d1, some m)) : d.receive ft e = (d1, some (f, m)) := by
  simp [Dev.receive, hr, hd]

end Sys2Proof.Laws
end

