-- ==== Sys2Proof/Laws/Rhamet.lean ====
section
/-! SUPPORT. What the shared operations of Rhamet instructions do on a task's open window, said once (06 R170 to R183). -/

namespace Sys2Proof.Laws

open Sys2Proof.Machine Sys2Proof.Safety

variable {s : State} {t : Fin 64} {imm cost need : Nat} {w : Window} {fr : Frame} {rest : List Frame}

/-- A state whose device differs from `s` in the window of task `t` alone. -/
theorem withWindow_def (s : State) (t : Fin 64) (w : Window) :
    withWindow s t w = { s with dev := { s.dev with cycle := { s.dev.cycle with
      tasks := s.dev.cycle.tasks.set t { s.dev.cycle.tasks[t] with
        window := some w
        peak := if s.dev.cycle.tasks[t].peak.toNat < w.units then BitVec.ofNat 24 (min w.units 0xFFFFFF)
                else s.dev.cycle.tasks[t].peak } } } } := rfl

/-- An instruction that may change its frames, on a window that runs. -/
theorem rhRaw_runs (h : Runs s t imm w fr rest) (hn : need ≤ fr.stack.length)
    (f : Window → Frame → List Frame → Window)
    (hu : (f { w with units := w.units + cost } { fr with pc := fr.pc + 1 + imm } rest).units = w.units + cost) :
    s.lane (fun d => d.rhRaw t imm cost need f) =
      .next (withWindow s t (f { w with units := w.units + cost } { fr with pc := fr.pc + 1 + imm } rest)) := by
  obtain ⟨hw, hr, hf, hb⟩ := h
  cases w
  dsimp only at hr hf hu
  subst hr hf
  simp only [State.lane, Dev.rhRaw, hw, hb, List.isEmpty_nil, Bool.not_true, Bool.false_eq_true, if_false, if_pos hn,
    withWindow, hu]

/-- An instruction that changes its top frame, on a window that runs. -/
theorem rh_runs (h : Runs s t imm w fr rest) (hn : need ≤ fr.stack.length) (f : Window → Frame → Window × Frame)
    (hu : (f { w with units := w.units + cost } { fr with pc := fr.pc + 1 + imm }).1.units = w.units + cost) :
    s.lane (fun d => d.rh t imm cost need f) =
      .next (withWindow s t
        { (f { w with units := w.units + cost } { fr with pc := fr.pc + 1 + imm }).1 with
          frames := (f { w with units := w.units + cost } { fr with pc := fr.pc + 1 + imm }).2 :: rest }) :=
  rhRaw_runs h hn _ hu

/-- A faulting result only counts. -/
theorem arith_eq (w : Window) (b : Bool) : w.arith b = countFault w b := by
  cases b <;> rfl

/-- An instruction that replaces its two top cells by one. -/
theorem rhBin_runs {a b : Word} {st : List Word} (h : Runs s t imm w fr rest) (hs : fr.stack = b :: a :: st)
    (f : Word → Word → Res) :
    s.lane (fun d => d.rhBin t imm cost f) =
      .next (withWindow s t (countFault (stepped w fr rest imm cost ((f a b).1 :: st)) (f a b).2)) := by
  have hn : 2 ≤ fr.stack.length := by simp [hs]
  unfold Dev.rhBin
  rw [rh_runs h hn]
  · simp only [hs, arith_eq]; rfl
  · simp only [hs, Window.arith]; split <;> rfl

/-- An instruction that replaces its top cell. -/
theorem rhUn_runs {a : Word} {st : List Word} (h : Runs s t 0 w fr rest) (hs : fr.stack = a :: st) (f : Word → Res) :
    s.lane (fun d => d.rhUn t cost f) =
      .next (withWindow s t (countFault (stepped w fr rest 0 cost ((f a).1 :: st)) (f a).2)) := by
  have hn : 1 ≤ fr.stack.length := by simp [hs]
  unfold Dev.rhUn
  rw [rh_runs h hn]
  · simp only [hs, arith_eq]; rfl
  · simp only [hs, Window.arith]; split <;> rfl

/-- An instruction that only pushes a cell. -/
theorem rhPush_runs (h : Runs s t imm w fr rest) (v : Window → Frame → Word) :
    s.lane (fun d => d.rhPush t imm cost v) =
      .next (withWindow s t (stepped w fr rest imm cost
        (v { w with units := w.units + cost } { fr with pc := fr.pc + 1 + imm } :: fr.stack))) := by
  unfold Dev.rhPush
  rw [rh_runs h (Nat.zero_le _)]
  · rfl
  · rfl

/-- An instruction that pops one cell and stages an effect. -/
theorem rhPop_runs {a : Word} {st : List Word} (h : Runs s t imm w fr rest) (hs : fr.stack = a :: st)
    (f : Word → Window → Window) (hu : (f a { w with units := w.units + cost }).units = w.units + cost) :
    s.lane (fun d => d.rhPop t imm cost f) =
      .next (withWindow s t { f a { w with units := w.units + cost } with
        frames := { fr with pc := fr.pc + 1 + imm, stack := st } :: rest }) := by
  have hn : 1 ≤ fr.stack.length := by simp [hs]
  unfold Dev.rhPop
  rw [rh_runs h hn]
  · simp only [hs]
  · simp only [hs, hu]

/-- An instruction that leaves the stack alone and stages an effect. -/
theorem rhStage_runs (h : Runs s t imm w fr rest) (f : Staged → Staged) :
    s.lane (fun d => d.rhStage t imm cost f) =
      .next (withWindow s t { stepped w fr rest imm cost fr.stack with staged := f w.staged }) := by
  unfold Dev.rhStage
  rw [rh_runs h (Nat.zero_le _)]
  · rfl
  · rfl

/-- An instruction that only rearranges the stack. -/
theorem rhStack_runs (h : Runs s t imm w fr rest) (hn : need ≤ fr.stack.length) (f : List Word → List Word) :
    s.lane (fun d => d.rhStack t imm cost need f) = .next (withWindow s t (stepped w fr rest imm cost (f fr.stack))) := by
  unfold Dev.rhStack
  rw [rh_runs h hn]
  · rfl
  · rfl

/-- A task without an open window that runs: its instructions change nothing. -/
theorem rhRaw_idle {f : Window → Frame → List Frame → Window} {d : Dev} (h : d.cycle.tasks[t].window = none) :
    d.rhRaw t imm cost need f = d := by
  simp only [Dev.rhRaw, h]

end Sys2Proof.Laws
end

