-- ==== Sys2Proof/WellFormed.lean ====
section
/-! DEFINITION. Well-formed commands: what an operand must satisfy for the spec to give the command at all. A bound that an
operand's type already states needs no check. -/

namespace Sys2Proof

open Sys2Proof.Machine

/-- What the cells show up to a boundary: at most the 16 pantry words and the two larder groups that a patrol reads (R227,
R245), and words of a bank. -/
def Machine.PatrolEnv.wf (p : PatrolEnv) : Bool :=
  decide (p.words.length ≤ 16) && decide (p.groups.length ≤ 2) && p.fades.all (fun f => decide (f.2 < 131072))

/-- A register address: inside register space and a multiple of 4 (R200, R544, Table 18.1). -/
def regAddrWf (a : BitVec 24) : Bool := decide (a.toNat < 0x100000) && decide (a.toNat % 4 = 0)

/-- A LOOP runs at most 1 to 65,535 times (R200). -/
def loopWf (mx : BitVec 16) : Bool := mx != 0

/-- A request that carries LEN payload bytes (R414). -/
def Machine.SeatReq.carries (r : SeatReq) : Bool := decide (r.payload.length = r.len.toNat)

/-- A request without payload (R414). -/
def Machine.SeatReq.bare (r : SeatReq) : Bool := r.payload.isEmpty

/-- The data of an MS/TP frame: at most 501 octets (clause 9 as 14 bounds it). -/
def mstpData (l : List Byte) : Bool := decide (l.length ≤ 501)

/-- Whether a command is well-formed. -/
def Instr.wf (c : Instr) : Bool :=
  match c with
  | .waymarkBoundary p _ => p.wf
  | .registerWrite _ a _ => regAddrWf a
  | .identify r => r.bare
  | .take r => r.bare
  | .release r => r.bare
  | .seatRead r _ => r.bare
  | .seatWrite r _ => r.carries
  | .challenge r _ => r.bare
  | .respond r _ => r.carries
  | .close r => r.bare
  | .seatReset r => r.carries
  | .tunOpen r => r.carries
  | .tunSend r _ => r.carries
  | .tunRecv r => r.carries
  | .tunClose r => r.carries
  | .testRequest _ _ data => mstpData data
  | .bacnetDataExpectingReply _ _ data => mstpData data
  | .bacnetDataNotExpectingReply _ _ data => mstpData data
  | .rhLoop _ mx _ => loopWf mx
  | .rhCapN _ ch => isCapture ch.toNat
  | .rhCapX _ ch => isCapture ch.toNat
  | .rhCapCp _ ch => isCapture ch.toNat
  | .rhRegRd _ a => regAddrWf a
  | .rhRegWr _ a => regAddrWf a
  | .powerOn .. | .brownOut .. | .resetN | .resetWarm | .resetCold | .resetApply .. | .domainFault .. | .strapLatch ..
  | .parameterLoad .. | .journalRecovery .. | .imageAcceptance .. | .retry | .tollAutoReset .. | .tollAutoClear | .bootRead
  | .zcCrossing .. | .zcTimeout .. | .holdoverExpiry | .xtalFail | .xtalSwitchover | .xtalStartTimeout | .xtalComp ..
  | .dieTempRefresh .. | .netCheckpoint | .beaconTimeout | .timeMsLoRead .. | .timeSiLoRead .. | .siOfsWrite ..
  | .autorun | .runWarm | .runCold | .halt | .potStop .. | .potWarm .. | .potCold .. | .forceTableWrite ..
  | .forceClearAll | .pdReqWrite .. | .guarAckRetire | .laneXchg .. | .selftest .. | .laneStall .. | .laneParity ..
  | .laneExchange | .erase .. | .eraseComplete | .storeWrite .. | .storeSeal .. | .sealComplete | .bankSwitchTo ..
  | .switchVerified | .bankSwitch | .storeAbort .. | .txnBegin | .txnWrite | .txnCommit | .provision ..
  | .larderWriteComplete .. | .wearWriteback | .calibrationRotation .. | .sliceStall .. | .crossingAssert ..
  | .crossingDeassert .. | .scriptStart .. | .scriptAbort .. | .scriptEnd .. | .scriptSample .. | .scriptAverage ..
  | .scriptWait .. | .scriptRepeat .. | .scriptMark .. | .scriptFire .. | .scriptGsample .. | .senseSequence ..
  | .diLevelChange .. | .i2cWritePhase .. | .i2cReadPhase .. | .i2cTimeout .. | .phyCfgApply | .carrierDetect ..
  | .bandInUse | .preambleDetect .. | .frameStart .. | .frameSent | .beacon .. | .timeFrame .. | .ackFrame ..
  | .ackTimeout .. | .mapAsk .. | .mapOffer .. | .mapRefresh .. | .joinReq .. | .joinAcc .. | .joinRetry | .courier ..
  | .courierStale .. | .convoy .. | .tunnel .. | .probe .. | .probeGo .. | .probeTimeout | .jclr .. | .csNEarlyRise
  | .seatIdleFree | .token .. | .pollForMaster .. | .replyToPollForMaster .. | .testResponse .. | .replyPostponed ..
  | .noTokenTimeout | .txSlotSubmit .. | .readProperty .. | .writeProperty .. | .whoIs .. | .subscribeCov .. | .readPropertyMultiple .. | .whoHas .. | .covLifetimeExpiry | .decision ..
  | .estimate .. | .alignComplete .. | .standstillTimeout .. | .overcurrent .. | .dcVoltage .. | .drvFault ..
  | .cmdLoss .. | .cmdRegained .. | .kickEnd .. | .tachEdge .. | .tachLost .. | .fanCapture .. | .shdnCompare ..
  | .reversalPauseEnd .. | .overtravelEnd .. | .homingComplete .. | .faceFrameStart .. | .faceOperationComplete ..
  | .stressFlush | .fvPassStart | .stencilEnd .. | .stencilInk .. | .stencilFill .. | .stencilMask .. | .stencilDigits ..
  | .stencilArrow .. | .rhNop .. | .rhPushI8 .. | .rhPushI16 .. | .rhPushI32 .. | .rhPushU32 .. | .rhPushQ ..
  | .rhPushF .. | .rhDrop .. | .rhDup .. | .rhSwap .. | .rhOver .. | .rhRot .. | .rhPick .. | .rhLdL .. | .rhStL ..
  | .rhTeeL .. | .rhAddI .. | .rhSubI .. | .rhMulI .. | .rhDivI .. | .rhRemI .. | .rhNegI .. | .rhAbsI .. | .rhAddsI ..
  | .rhSubsI .. | .rhMulsI .. | .rhNegsI .. | .rhAbssI .. | .rhMinI .. | .rhMaxI .. | .rhAddU .. | .rhSubU ..
  | .rhMulU .. | .rhDivU .. | .rhRemU .. | .rhAddsU .. | .rhSubsU .. | .rhMulsU .. | .rhMinU .. | .rhMaxU .. | .rhAddQ ..
  | .rhSubQ .. | .rhMulQ .. | .rhDivQ .. | .rhNegQ .. | .rhAbsQ .. | .rhMinQ .. | .rhMaxQ .. | .rhAddF .. | .rhSubF ..
  | .rhMulF .. | .rhDivF .. | .rhNegF .. | .rhAbsF .. | .rhMinF .. | .rhMaxF .. | .rhSqrtF .. | .rhFloorF ..
  | .rhCeilF .. | .rhRoundF .. | .rhTruncF .. | .rhCmpI .. | .rhCmpU .. | .rhCmpQ .. | .rhCmpF .. | .rhAnd .. | .rhOr ..
  | .rhXor .. | .rhNot .. | .rhShlI .. | .rhShlU .. | .rhShrI .. | .rhShrU .. | .rhRotl .. | .rhRotr .. | .rhClz ..
  | .rhPopc .. | .rhEqz .. | .rhI2u .. | .rhU2i .. | .rhI2f .. | .rhU2f .. | .rhQ2f .. | .rhF2i .. | .rhF2u ..
  | .rhF2q .. | .rhI2q .. | .rhU2q .. | .rhQ2i .. | .rhFBits .. | .rhFFrom .. | .rhQBits .. | .rhQFrom .. | .rhBr ..
  | .rhBrz .. | .rhBrnz .. | .rhCall .. | .rhRet .. | .rhSelect .. | .rhLd8u .. | .rhLd8s .. | .rhLd16u .. | .rhLd16s ..
  | .rhLd32 .. | .rhSt8 .. | .rhSt16 .. | .rhSt32 .. | .rhLdc8u .. | .rhLdc16u .. | .rhLdc32 .. | .rhIn .. | .rhInst ..
  | .rhOut .. | .rhOutget .. | .rhPrev .. | .rhEdgeR .. | .rhEdgeF .. | .rhTStart .. | .rhTExp .. | .rhTLeft ..
  | .rhTime .. | .rhSelf .. | .rhHRd .. | .rhHWr .. | .rhHGen .. | .rhLRd .. | .rhLWr .. | .rhLStat .. | .rhSRun ..
  | .rhSStop .. | .rhSPar .. | .rhSStat .. | .rhFRect .. | .rhFAbort .. | .rhFSten .. | .rhFStat .. | .resetNRelease
  | .bandNotInUse | .speedCommandEdge .. | .storeWriteComplete | .unsupportedFrame | .crcErr | .tUsageTimeout => true

end Sys2Proof
end

