-- ==== Sys2Proof/Tests/Slice0.lean ====
section
/-! SUPPORT. Tests of the model: what the well-formedness checks refuse, worked examples of the spec, and for every
statement with hypotheses a state and operands that meet them, with what the command answers there. -/

set_option Elab.async false

namespace Sys2Proof.Tests

open Sys2Proof Sys2Proof.Machine Sys2Proof.Safety

/-! ## Helpers -/

/-- The state after a reset with its device changed. -/
def on (f : Dev → Dev) : State := { State.reset with dev := f State.reset.dev }

/-- The device after a command that completes and leaves the queue as it was. -/
def after (i : Instr) (s : State) : Option Dev :=
  match exec i s with
  | .next t => if t.pending.isEmpty then some t.dev else none
  | _ => none

/-- What a command leaves in one part of the device. -/
def left {α : Type} (i : Instr) (s : State) (f : Dev → α) : Option α := (after i s).map f

/-- A reset whose larder writes all land, at 25.00 °C. -/
def calm : ResetEnv := { landed := 0, worn := [], words := 0, die := 2500, at' := 0 }

/-- A boundary at which no patrol finds anything, at 25.00 °C. -/
def clean : PatrolEnv :=
  { words := [], groups := [], reads := [], worn := [], fades := [], tops := [], die := 2500, cals := [], line := [] }

/-- Larder cells that show nothing. -/
def quiet : CellEnv := { finds := [], worn := [] }

/-- An acceptance that can read everything it needs. -/
def readable : AcceptEnv := { recordBad := false, finds := [] }

/-! ## Well-formed commands: each check refuses an ill-formed term -/

/-- R227, R245: a patrol reads 16 pantry words and two larder groups; a bank has 131,072 words. -/
theorem test_wf_boundary :
    Instr.wf (.waymarkBoundary clean calm) = true ∧
    Instr.wf (.waymarkBoundary { clean with words := List.replicate 17 .clean } calm) = false ∧
    Instr.wf (.waymarkBoundary { clean with groups := [.clean, .clean, .clean] } calm) = false ∧
    Instr.wf (.waymarkBoundary { clean with fades := [(true, 131071)] } calm) = true ∧
    Instr.wf (.waymarkBoundary { clean with fades := [(true, 131072)] } calm) = false := by decide +kernel

/-- R200, R544: a register address is a multiple of 4 below 0x10_0000. -/
theorem test_wf_address :
    Instr.wf (.registerWrite .host 0x0FFFFC 0) = true ∧ Instr.wf (.registerWrite .host 0x100000 0) = false ∧
    Instr.wf (.rhRegRd 0 0x000002) = false ∧ Instr.wf (.rhRegWr 0 0x100000) = false := by decide +kernel

/-- R200: MAX of LOOP is 1 to 65,535; the captures name capture streams. -/
theorem test_wf_rhamet :
    Instr.wf (.rhLoop 0 1 0) = true ∧ Instr.wf (.rhLoop 0 0 0) = false ∧ Instr.wf (.rhCapN 0 0x000) = true ∧
    Instr.wf (.rhCapN 0 0x040) = false ∧ Instr.wf (.rhCapX 0 0x040) = false ∧ Instr.wf (.rhCapCp 0 0x040) = false := by
  decide +kernel

/-- R414: a request carries LEN payload bytes, or none; an MS/TP frame carries at most 501 octets. -/
theorem test_wf_frames :
    let r : SeatReq := { addr := 0, len := 1, seq := 0, payload := [0], crcOk := true }
    let e : SeatEnv := { frac := 0, finds := [], words := 0, nonce := 0 }
    let bare := [Instr.identify, .take, .release, .close].map (fun c => c r)
    let full := [Instr.seatReset, .tunOpen, .tunRecv, .tunClose].map (fun c => c { r with len := 2 })
    bare.all (fun c => !c.wf) ∧ full.all (fun c => !c.wf) ∧ Instr.wf (.seatRead r e) = false ∧
    Instr.wf (.challenge r e) = false ∧ Instr.wf (.respond { r with len := 2 } e) = false ∧ Instr.wf (.seatWrite { r with len := 2 } e) = false ∧
    Instr.wf (.tunSend { r with len := 2 } e) = false ∧ Instr.wf (.seatWrite r e) = true ∧
    Instr.wf (.testRequest 0 0 (List.replicate 502 0)) = false ∧
    Instr.wf (.bacnetDataExpectingReply 0 0 (List.replicate 502 0)) = false ∧
    Instr.wf (.bacnetDataNotExpectingReply 0 0 (List.replicate 501 0)) = true := by decide +kernel

/-! ## Commands, the queue and the invariants -/

/-- Table words: the command table gives no row any bits. -/
theorem test_table_words : decodeTableWord 8 0 = none ∧ (on id).withFetchWord 8 0 = on id := ⟨rfl, rfl⟩

/-- EmptyQueueIdles, EventsNeverWait, UsableDomainsStayPowered, MemoriesStayCanonical: their hypotheses hold of the state after
a reset, and of a step from it that changes something. -/
theorem witness_invariants :
    (on id).pending = [] ∧ Logged (on id).dev ∧ ReadyOn (on id).dev ∧ MemWf (on id).dev ∧
    step { on id with pending := [.resetN, .bandInUse] } = exec .resetN { on id with pending := [.bandInUse] } ∧
    left .resetN (on id) (fun d => d.sys.resetHeld) = some true := by
  refine ⟨rfl, rfl, rfl, ⟨rfl, rfl, rfl, rfl⟩, rfl, rfl⟩

/-- WrittenBytesRead: a canonical memory, and a write over its edge. -/
theorem witness_writtenBytesRead :
    Memory.wf zeroByte [(4, 1), (9, 2)] = true ∧
    Mem.writeBytes zeroByte [(4, 1), (9, 2)] 8 [7, 0] = [(4, 1), (8, 7)] := by decide +kernel

/-! ## Start-up and reset -/

/-- A reset that waits in the last waymark of a milestone. -/
def waiting (k : ResetKind) : State := on fun d =>
  { d with sys := { d.sys with pendResets := [{ source := 4, kind := k, faultPd := 0 }] }
           time := { d.time with cntLoss := 9, wm := 255 } }

/-- A Hob overrun tollgate at its last milestone but one before the automatic reset (R282). -/
def hobTollgate : State := on fun d =>
  { d with sys := { d.sys with tollCause := 9, hobMs := some 51 }, time := { d.time with count := 300, wm := 255 } }

/-- ResetsOrderedAndMade. -/
theorem witness_resetsOrderedAndMade :
    (Completes (.powerOn calm) (on id) (fun d => AtPowerOn 2500 false d ∧ d.sys.rstSource = 1)) ∧
    (Completes (.brownOut calm) (on id) (fun d => AtPowerOn 2500 false d ∧ d.sys.rstSource = 2)) ∧
    Logged (on id).dev ∧ (on id).dev.sys.resetHeld = false ∧
    left .resetWarm (on id) (fun d => d.sys.pendResets) = some [{ source := 4, kind := .warm, faultPd := 0 }] ∧
    left .resetN (on id) (fun d => d.sys.pendResets) = some [{ source := 3, kind := .cold, faultPd := 0 }] := by
  refine ⟨⟨_, rfl, rfl, ?_⟩, ⟨_, rfl, rfl, ?_⟩, ?_⟩ <;> repeat' apply And.intro
  all_goals first | decide +kernel | rfl

/-- PendingResetTakesEffect: a warm and a cold reset, and the automatic reset at its first boundary. -/
theorem witness_pendingResetTakesEffect :
    Completes (.resetApply calm) (waiting .warm) (fun d => AfterReset (waiting .warm).dev d 4 .warm) ∧
    Completes (.resetApply calm) (waiting .cold) (fun d => AfterReset (waiting .cold).dev d 4 .cold) ∧
    (waiting .warm).dev.time.wm = 255 ∧ hobTollgate.dev.sys.tollAuto.toNat < 3 ∧
    hobTollgate.dev.sys.pendResets = [] ∧ hobTollgate.dev.sys.mode = .tollgate ∧
    hobTollgate.dev.bootParam 2 2 ≠ 0 ∧ 51 + hobTollgate.dev.bootParam 2 2 ≤ hobTollgate.dev.ms + 1 ∧
    Completes (.tollAutoReset calm) hobTollgate (fun d => AfterReset hobTollgate.dev d 7 .warm ∧ d.sys.tollAuto = 1) := by
  refine ⟨⟨_, rfl, rfl, ?_⟩, ⟨_, rfl, rfl, ?_⟩, ?_, ?_, ?_, ?_, ?_, ?_, ⟨_, rfl, rfl, ?_⟩⟩ <;> repeat' apply And.intro
  all_goals decide +kernel

/-- Every domain on and usable. -/
def allOn (d : Dev) : Dev := { d with power := { d.power with on := 0xFFFF, ready := 0xFFFF, req := 0xFFFF } }

/-- DomainFaults: a domain that only loses its power, and each kind of reset. -/
theorem witness_domainFaults :
    (on allOn).dev.power.on.getLsbD 15 = true ∧ (15 : Nat) ∉ [0, 1, 2, 6, 7] ∧
    left (.domainFault 15 calm) (on allOn) (fun d => (d.power.on, d.power.fault, d.power.faults, d.power.vnow[(15 : Fin 16)])) =
      some (0x7FFF, 0x8000, 1, 0) ∧
    (on id).dev.power.on.getLsbD 0 = true ∧ (on id).dev.power.on.getLsbD 6 = true ∧ (on id).dev.power.on.getLsbD 7 = true ∧
    ([0, 6, 7].map fun n => left (.domainFault n calm) (on id) (fun d => (d.sys.rstPd, d.sys.rstKind))) =
      [some (0, .powerOn), some (6, .cold), some (7, .warm)] := by decide +kernel

/-- StrapsLatched. -/
theorem witness_strapsLatched :
    Logged (on id).dev ∧ (on id).dev.sys.strapped = false ∧ (on id).dev.sys.boot ≠ .held ∧ (on id).dev.sys.zeroNext = false ∧
    left (.strapLatch 5 true true false) (on id) (fun d => (d.sys.tstrap, d.sys.provEn, d.sys.hostSel)) = some (5, true, 3) := by
  refine ⟨rfl, ?_⟩
  decide +kernel

/-- The device at a step of its start-up. -/
def booting (b : BootStep) (d : Dev) : Dev := { d with sys := { d.sys with boot := b, lastKind := .cold } }

/-- A transaction of one group for the region of pot 3, of which so many group writes are done: its record is 3 groups, its mark
the fourth. -/
def oneGroup (done : Nat) : JournalTxn :=
  { owner := 3, seq := 9, place := 2047, groups := [(0x1800, [1, 2, 3, 4, 5, 6, 7, 8])], done, host := false, old := [] }

/-- Start-up step 7 with that transaction, its record and mark in the journal, which goes round, or a mark that does not hold. -/
def recovering (done : Nat) (good : Bool) : State := on fun d =>
  let t := oneGroup done
  let parts := (t.record ++ [if good then t.mark else List.replicate 8 9]).zipIdx
  let home := parts.foldl (fun m p => Mem.writeBytes larderByte m (8 * t.cell p.2) p.1) d.store.home
  booting .journal { d with store := { d.store with queue := [.txn t], home } }

/-- ParametersAndJournal: start-up with nothing in the larder and with a lost group; an empty journal; a transaction without its
mark, with it, and with a mark that does not hold. -/
theorem witness_parametersAndJournal :
    (on (booting .larder)).dev.sys.boot = .larder ∧ (on (booting .journal)).dev.sys.boot = .journal ∧
    left (.parameterLoad quiet) (on (booting .larder)) (fun d => (d.sys.boot, d.time.compK, d.line.cfg, d.line.lseq)) =
      some (.journal, 34, 0x00400700, 65536) ∧
    left (.parameterLoad { quiet with finds := [(0x81, .double)] }) (on (booting .larder)) (fun d => d.time.compT0) = some 2500 ∧
    left (.journalRecovery quiet) (on fun d => booting .journal { d with cycle := { d.cycle with worktop := [(3, 1)] } })
      (fun d => (d.sys.progress, d.cycle.worktop)) = some (3, []) ∧
    (oneGroup 4).writes = 5 ∧ (oneGroup 3).marked = false ∧ (oneGroup 4).marked = true ∧
    ([(3, true), (4, true), (4, false)].map fun p =>
      ({ (recovering p.1 p.2).dev.store with queue := [] } : StoreState).recordHolds (oneGroup p.1)) = [true, true, false] ∧
    ([(3, true), (4, true), (4, false)].map fun p => left (.journalRecovery quiet) (recovering p.1 p.2) (fun d =>
      (d.store.redone, d.store.rolled, d.store.crcLost, byteAt (d.store.group 0x1800) 0, d.void))) =
      [some (0, 1, 0, 0, 0), some (1, 0, 0, 1, 0), some (0, 1, 1, 0, 8)] := by
  repeat' apply And.intro
  all_goals decide +kernel

/-- A bank that is named, COMPLETE and holds no image. -/
def named (d : Dev) : Dev :=
  { d with store := { d.store with bankA := { Bank.blank with mode := .complete }, record := some false } }

/-- AcceptanceAndRetry: a bank to try, a second one after it, no bank, one half written, a bank record that cannot be read; RETRY. -/
theorem witness_acceptanceAndRetry :
    let one := on fun d => booting .select (named d)
    let both := on fun d => booting .select { named d with store := { (named d).store with
      bankB := { Bank.blank with mode := .complete } } }
    one.dev.store.firstBank = some false ∧ one.dev.store.usable true = false ∧
    left (.imageAcceptance readable) one (fun d => (d.sys.outcome, d.sys.vfyStep)) =
      some (some { image := none, cause := 3 }, 2) ∧
    both.dev.store.usable true = true ∧
    left (.imageAcceptance readable) both (fun d => (d.sys.boot, d.sys.progress, d.sys.aCause)) = some (.second true, 5, 3) ∧
    left (.imageAcceptance readable) (on (booting (.second true))) (fun d => (d.sys.boot, d.sys.outcome)) =
      some (.boundary, some { image := none, cause := 3 }) ∧
    (on (booting .select)).dev.store.firstBank = none ∧
    left (.imageAcceptance readable) (on (booting .select)) (fun d => (d.sys.outcome, d.sys.vfyStep)) =
      some (some { image := none, cause := 1 }, 1) ∧
    left (.imageAcceptance readable) (on fun d => booting .select { d with store := { d.store with
      bankB := { Bank.blank with mode := .writing } } }) (fun d => d.sys.outcome) = some (some { image := none, cause := 2 }) ∧
    left (.imageAcceptance { readable with recordBad := true }) one (fun d => d.store.recordBad) = some true ∧
    (on (booting .done)).dev.sys.mode = .tollgate ∧ (on (booting .done)).dev.sys.tollCause ≠ 9 ∧
    left .retry (on (booting .done)) (fun d => (d.sys.boot, d.sys.progress)) = some (.select, 3) := by decide +kernel

/-- AcknowledgementsAndRequests. -/
theorem witness_acknowledgementsAndRequests :
    let s := on fun d => { d with sys := { d.sys with recorded := 5, acked := 4, mode := .run, runMs := 10, tollAuto := 3 }
                                  time := { d.time with count := 65546 }, seat := { d.seat with attnBoot := true } }
    Logged s.dev ∧ s.dev.power.hostWrote = false ∧ s.dev.sys.acked < s.dev.sys.recorded ∧
    s.dev.sys.runMs + 65536 ≤ s.dev.ms ∧
    left (.pdReqWrite 0xABCD0087 true) s (fun d => d.power.req) = some 0x0087 ∧
    left (.pdReqWrite 0xABCD0087 false) s (fun d => d.power.req) = some 0x0087 ∧
    left .guarAckRetire s (fun d => (d.sys.acked, d.retirePend)) = some (5, false) ∧
    left .bootRead s (fun d => d.seat.attnBoot) = some false ∧
    left .tollAutoClear s (fun d => d.sys.tollAuto) = some 0 := by
  refine ⟨rfl, ?_⟩
  decide +kernel

/-! ## Time -/

/-- CrossingsAndLock: a good crossing of ZC0 that ends a period, its period at the least that the statement takes; a locked
source that misses one; the last milestone of a HOLDOVER. A stamp is truncated to 1/65,536 of a waymark (Table 2.8). -/
theorem witness_crossingsAndLock :
    let s := on fun d => { d with time := { d.time with
      zc := d.time.zc.set 0 { last := some 1000000, period := 20000000, mains := 19999998, good := 3, accepted := 8 }
      lock := .locked, source := .zc0 } }
    let h := on fun d => { d with time := { d.time with lock := .holdover, holdMs := 250, aligned := true } }
    Logged s.dev ∧ Logged h.dev ∧ (s.dev.time.zc[(0 : Fin 3)]).last = some 1000000 ∧
    s.dev.time.zcStamp 11000000 = 10999999 ∧ (s.dev.time.zc[(0 : Fin 3)]).mains ≤ 2 * (10999999 - 1000000) ∧
    s.dev.time.msStart ≤ 11000000 ∧ 0 < s.dev.time.msLen ∧
    left (.zcCrossing 0 11000000 400000) s (fun d => (d.time.zc[(0 : Fin 3)]).period) = some 9999999 ∧
    left (.zcCrossing 0 11000000 400000) s (fun d => ((d.time.zc[(0 : Fin 3)]).last, (d.time.zc[(0 : Fin 3)]).accepted)) =
      some (some 10999999, 9) ∧
    s.dev.time.source.input = some 0 ∧ s.dev.time.zcMode ≠ 1 ∧
    left (.zcTimeout 0) s (fun d => (d.time.lock, d.time.source, d.time.cntLoss)) = some (.holdover, .timeBase, 1) ∧
    left .holdoverExpiry h (fun d => (d.time.lock, d.time.aligned, d.time.holdMs)) = some (.free, false, 0) := by
  refine ⟨rfl, rfl, ?_⟩
  decide +kernel

/-- CrystalAndTemperature; at 25.50 °C the error of R50 is 34 × 50² / 10,000 = 8.5, rounded down. -/
theorem witness_crystalAndTemperature :
    let s := on fun d => { d with time := { d.time with compD := 20 } }
    Logged s.dev ∧ s.dev.time.xtalFail = false ∧ s.dev.time.onXtal = false ∧ s.dev.sys.xtalAgree = false ∧
    s.dev.ms % 16 = 0 ∧ s.dev.ms % 256 = 0 ∧ s.dev.time.wm = 0 ∧
    left .xtalFail s (fun d => (d.time.xtalFail, d.time.cntXtal, d.store.logSeq)) = some (true, 1, 1) ∧
    left .xtalStartTimeout s (fun d => (d.time.xtalFail, d.time.cntXtal, d.store.logSeq)) = some (true, 1, 1) ∧
    left .xtalSwitchover s (fun d => d.sys.xtalAgree) = some true ∧
    left (.xtalComp 2550) s (fun d => (d.time.rate, d.time.dieTemp)) = some (-12, 2550) ∧
    left (.dieTempRefresh 2550) s (fun d => d.time.dieShown) = some 26 ∧
    left (.dieTempRefresh 2450) s (fun d => d.time.dieShown) = some 24 := by
  refine ⟨rfl, ?_⟩
  decide +kernel

/-- The junction, with the network number valid (R25, R55). -/
def atJunction : State := on fun d =>
  { d with sys := { d.sys with role := 3 }, image := { d.image with role := 3 },
           time := { d.time with netValid := true, beacon := true, beaconAge := 50, wm := 200, count := 0x1_0000_0000,
                                 siOfsLoHeld := 7 } }

/-- TimeReadAndKept. -/
theorem witness_timeReadAndKept :
    Logged atJunction.dev ∧ atJunction.dev.junction = true ∧ atJunction.dev.sys.clash = false ∧
    atJunction.dev.netMs % 65536 = 0 ∧ atJunction.dev.store.failed.contains 0x82 = false ∧
    left (.timeMsLoRead 16 9) atJunction (fun d => (d.time.latchHi[(16 : Fin 17)], d.time.latchWm[(16 : Fin 17)])) =
      some (1, 200 * 65536 + 9) ∧
    left (.timeSiLoRead 3 9) atJunction (fun d => d.time.latchHi[(3 : Fin 17)]) = some 0 ∧
    left (.siOfsWrite 2) atJunction (fun d => (d.time.siOfs, d.time.siValid)) = some (0x2_0000_0007, true) ∧
    left .netCheckpoint atJunction (fun d => d.store.group 0x82) = some [0, 0, 0, 0, 1, 0, 0, 0] ∧
    left .beaconTimeout atJunction (fun d => d.time.beacon) = some false := by
  refine ⟨rfl, ?_⟩
  decide +kernel

/-- BoundariesCount: the last two waymarks of a milestone. -/
theorem witness_boundariesCount :
    let s := fun (w : Nat) => on fun d => { d with time := { d.time with wm := w } }
    (s 254).dev.time.wm < 255 ∧ (s 255).dev.sys.pendResets = [] ∧ (s 255).dev.tollAutoDue = false ∧
    (s 255).dev.sys.zeroNext = false ∧
    left (.waymarkBoundary clean calm) (s 254) (fun d => (d.time.wm, d.time.count, d.time.now)) = some (255, 0, 19921875) ∧
    left (.waymarkBoundary clean calm) (s 255) (fun d => (d.time.wm, d.time.count, d.time.now)) = some (0, 1, 20000000) := by
  decide +kernel

/-- The control cycle in a mode, with pots 0 and 3 declared and AUTORUN set. -/
def inMode (m : Mode) (d : Dev) : Dev :=
  { d with sys := { d.sys with mode := m, boot := .done }, time := { d.time with netValid := true, count := 1, netOfs := 0x2FF }
           image := { d.image with autorun := true, pots := (upTo 16).map (fun p => { declared := p == 0 || p == 3, tag := [] }) } }

/-- ModeAndPotCommandsJudged: each mode, and each refusal of a pot command. -/
theorem witness_modeAndPotCommandsJudged :
    Logged (on (inMode .ready)).dev ∧ (on (inMode .ready)).dev.onUsable = true ∧
    (on (inMode .ready)).dev.sys.readyMs < (on (inMode .ready)).dev.ms ∧
    [Instr.runWarm, .runCold, .halt].map (fun c => left c (on (inMode .run)) (fun d => (d.sys.modePend, d.sys.modeResult))) =
      [some (none, 2), some (none, 2), some (some .halt, 1)] ∧
    [Instr.runWarm, .halt].map (fun c => left c (on (inMode .halt)) (fun d => (d.sys.modePend, d.sys.modeResult))) =
      [some (some .runWarm, 1), some (none, 2)] ∧
    left .autorun (on (inMode .ready)) (fun d => (d.sys.mode, d.sys.start, d.cycle.ofs)) = some (.run, 1, 0xFF) ∧
    [Instr.potStop 0 true, .potWarm 4 false, .potCold 3 true].map (fun c => left c (on (inMode .run)) (fun d =>
      (d.cycle.potResult, (d.cycle.pots[(3 : Fin 16)]).pend))) = [some (2, none), some (2, none), some (1, some .cold)] ∧
    left (.potCold 3 true) (on (inMode .halt)) (fun d => (d.cycle.potResult, (d.cycle.pots[(3 : Fin 16)]).pend)) =
      some (3, none) := by
  refine ⟨rfl, ?_⟩
  decide +kernel

/-- RegisterAndForceWrites: the first and last entry of the force table, and writes that each view refuses. -/
theorem witness_registerAndForceWrites :
    let s := on (inMode .run)
    Logged s.dev ∧ s.dev.sys.mode ≠ .tollgate ∧ s.dev.sys.provEn = false ∧
    left (.forceTableWrite 255 true 9) s (fun d => (d.cycle.force[(255 : Fin 256)]).value) = some 9 ∧
    left (.forceTableWrite 0 false 0x00030405) s (fun d => d.cycle.force[(0 : Fin 256)]) =
      some { channel := 5, elem := 1, output := true, en := true, value := 0 } ∧
    left .forceClearAll s (fun d => (d.cycle.force[(9 : Fin 256)]).en) = some false ∧
    left (.registerWrite .host 0x40004 7) s (fun d => d.store.arg0) = some 7 ∧
    left (.registerWrite .host 0x40008 7) s (fun d => d.store.arg1) = some 7 ∧
    left (.registerWrite .host 0x8000C 0xFFFFFFFF) s (fun d => d.seat.attnEn) = some 0xF ∧
    left (.registerWrite .guest 0x8000C 1) s (fun d => d.lane.hostDenied) = some 1 ∧
    left (.registerWrite (.pot 3) 0x8000C 1) s (fun d => ((d.cycle.pots[(3 : Fin 16)]).denied, d.seat.attnEn)) =
      some (1, 0) := by
  refine ⟨rfl, ?_⟩
  decide +kernel

/-! ## Lanes -/

/-- Logical lane 0 on physical lane 5, with spare 9 in its carriageway. -/
def laned (d : Dev) : Dev := { d with lane := { d.lane with map := d.lane.map.set 0 (some 5), spare := d.lane.spare.set 0 (some 9) } }

/-- LanesFailAndExchange: a lane that serves none, one that serves L0, and its exchange. -/
theorem witness_lanesFailAndExchange :
    let s := on laned
    let f := on fun d => { laned d with lane := { (laned d).lane with failing := [(0, 2)] } }
    Logged s.dev ∧ s.dev.lane.logical 47 = none ∧ s.dev.lane.logical 5 = some 0 ∧ s.dev.laneOpen 0 = false ∧
    f.dev.laneOpen 0 = false ∧ f.dev.lane.planned = none ∧
    [Instr.selftest 47 false, .laneStall 47, .laneParity 47].map (fun c => left c s (fun d =>
      (d.lane.phys[(47 : Fin 48)], d.sys.recorded))) = [some (⟨true, 1, 1⟩, 1), some (⟨true, 2, 1⟩, 1), some (⟨true, 3, 1⟩, 1)] ∧
    [Instr.selftest 5 false, .laneStall 5, .laneParity 5].map (fun c => left c s (fun d =>
      (d.lane.phys[(5 : Fin 48)], d.lane.failing))) =
      [some (⟨false, 0, 1⟩, [(0, 1)]), some (⟨false, 0, 1⟩, [(0, 2)]), some (⟨false, 0, 1⟩, [(0, 3)])] ∧
    left (.laneXchg 0x100) s (fun d => d.lane.planned) = some (some 0) ∧
    left .laneExchange f (fun d => (d.lane.map[(0 : Fin 44)], d.lane.spare[(0 : Fin 4)], (d.lane.phys[(5 : Fin 48)]).retired)) =
      some (some 9, none, true) := by
  refine ⟨rfl, ?_⟩
  decide +kernel

/-! ## Rhamet -/

/-- A latch that holds nothing. -/
def noLatch : Latch :=
  { inputs := [], caps := [], hatches := [], outs := [], regs := [], slots := [], larStat := [], faceStat := [], count := 0,
    wm := 0, si := 0, netMs := 0, netSi := 0, cyc := 0, die := 0, netValid := false, worktop := [], larder := [] }

/-- A frame at offset 7 of function 0 with two locals and the loop at 33 entered. -/
def frame (st : List Word) : Frame := { fn := 0, pc := 7, stack := st, locals := [10, 11], loops := [(33, 2)] }

/-- A window that runs with this stack. -/
def window (l : Latch) (st : List Word) : Window :=
  { left := 5, entry := .warm, status := .running, fail := none, frames := [frame st], latch := l, staged := Staged.none,
    units := 0 }

/-- Task 5 of pot 1 with an open window; the pot has 4 KiB from 0x1000 and four constant bytes. -/
def running (w : Window) : State := on fun d =>
  { d with
    image := { d.image with
      routes := List.replicate 6 { used := true, pot := 1, lane := 1, period := 0, phase := 0, release := 0, length := 10,
                                   cold := 0, warm := 0, cyclic := 0 }
      windows := [{ base := 0, pages := 0 }, { base := 1, pages := 1 }], constBlocks := [(1, [1, 2, 3, 4])]
      fns := [{ pot := 1, args := [.i32, .i32], results := [], nlocals := 3, offset := 0, code := [] }]
      hatches := [{ used := true, writer := 5, length := 6, readers := 2 }]
      larderRegions := [{ owner := 1, journaled := false, base := 0x1800, groups := 600 }] }
    cycle := { d.cycle with tasks := d.cycle.tasks.set 5 { d.cycle.tasks[5] with window := some w } } }

/-- The window of task 5 after a command. -/
def lane (i : Instr) (s : State) : Option Window := (after i s).bind (fun d => d.cycle.tasks[(5 : Fin 64)].window)

/-- The stack of task 5 after a command. -/
def cells (i : Instr) (st : List Word) : Option (List Word) :=
  (lane i (running (window noLatch st))).bind (fun w => w.frames.head?.map (·.stack))

/-- The stack and the arithmetic faults of task 5 after a command. -/
def faults (i : Instr) (st : List Word) : Option (List Word × Nat) :=
  (lane i (running (window noLatch st))).bind (fun w => w.frames.head?.map (fun f => (f.stack, w.staged.arith)))

/-- What every statement about Rhamet supposes: a running window whose next instruction of any length holds no error, for
every latch and every stack. -/
theorem witness_runs (l : Latch) (st : List Word) :
    ∀ imm ∈ [0, 1, 2, 4], Runs (running (window l st)) 5 imm (window l st) (frame st) [] := by
  intro imm h
  simp only [List.mem_cons, List.not_mem_nil, or_false] at h
  rcases h with rfl | rfl | rfl | rfl <;> exact ⟨rfl, rfl, rfl, rfl⟩

/-- StackAndLocals: pushes with both signs, and the deepest cell and last local that are there. -/
theorem witness_stackAndLocals :
    [Instr.rhPushI8 5 0x80, .rhPushI16 5 0x7FFF, .rhPushF 5 0x7FC00001, .rhDrop 5, .rhSwap 5, .rhOver 5, .rhRot 5,
      .rhPick 5 2, .rhSelect 5, .rhLdL 5 1].map (fun c => cells c [1, 2, 3]) =
      [some [0xFFFFFF80, 1, 2, 3], some [0x7FFF, 1, 2, 3], some [0x7FC00001, 1, 2, 3], some [2, 3], some [2, 1, 3],
        some [2, 1, 2, 3], some [3, 1, 2], some [3, 1, 2, 3], some [3], some [11, 1, 2, 3]] ∧
    cells (.rhSelect 5) [0, 2, 3] = some [2] ∧
    (lane (.rhStL 5 1) (running (window noLatch [7]))).bind (fun w => w.frames.head?.map (fun f => (f.locals, f.stack, f.pc))) =
      some ([10, 7], [], 9) ∧
    (lane (.rhTeeL 5 0) (running (window noLatch [7]))).bind (fun w => w.frames.head?.map (fun f => (f.locals, f.stack))) =
      some ([7, 11], [7]) := by decide +kernel

/-- IntegerAndLogicResults: Table 6.2 at the limits, and ch. 7's corner cases (a shift by 33; −37 shifted right by 4). -/
theorem test_integers :
    [Instr.rhAddI 5, .rhAddsI 5, .rhMulsI 5, .rhMinI 5].map (fun c => cells c [0x7FFFFFFF, 0x7FFFFFFF]) =
      [some [0xFFFFFFFE], some [0x7FFFFFFF], some [0x7FFFFFFF], some [0x7FFFFFFF]] ∧
    [Instr.rhDivI 5, .rhRemI 5, .rhDivU 5].map (fun c => faults c [0xFFFFFFFF, 0x80000000]) =
      [some ([0x80000000], 1), some ([0], 0), some ([0], 0)] ∧
    [Instr.rhDivI 5, .rhRemI 5, .rhDivU 5, .rhRemU 5].map (fun c => faults c [0, 9]) =
      [some ([0], 1), some ([0], 1), some ([0], 1), some ([0], 1)] ∧
    [Instr.rhDivI 5, .rhRemI 5].map (fun c => cells c [2, 0xFFFFFFF9]) = [some [0xFFFFFFFD], some [0xFFFFFFFF]] ∧
    cells (.rhSubsU 5) [2, 1] = some [0] ∧ cells (.rhNegsI 5) [0x80000000] = some [0x7FFFFFFF] ∧
    cells (.rhShlI 5) [33, 1] = some [2] ∧ cells (.rhShrI 5) [4, 0xFFFFFFDB] = some [0xFFFFFFFD] ∧
    cells (.rhShrU 5) [4, 0xFFFFFFDB] = some [0x0FFFFFFD] ∧ cells (.rhRotr 5) [1, 1] = some [0x80000000] ∧
    cells (.rhClz 5) [0] = some [32] ∧ cells (.rhPopc 5) [0xF0F0F0F0] = some [16] ∧ cells (.rhEqz 5) [0] = some [1] ∧
    cells (.rhCmpI 5 .lt) [1, 0xFFFFFFFF] = some [1] ∧ cells (.rhCmpU 5 .lt) [1, 0xFFFFFFFF] = some [0] := by decide +kernel

/-- FractionAndConversionResults: the examples of R173, Table 7.15, and Table 6.2's NaN and infinity rows. -/
theorem test_fractions :
    cells (.rhMulQ 5) [0x01900000, 0x00C80000] = some [0x7FFFFFFF] ∧ cells (.rhMulQ 5) [0x8000, 1] = some [0] ∧
    cells (.rhMulQ 5) [0x8000, 3] = some [2] ∧ faults (.rhDivQ 5) [0, 5] = some ([0], 1) ∧
    cells (.rhQ2i 5) [0x0C4E0000] = some [3150] ∧ cells (.rhI2q 5) [0x8000] = some [0x7FFFFFFF] ∧
    [Instr.rhAddF 5, .rhSubF 5, .rhMulF 5, .rhDivF 5, .rhMinF 5, .rhMaxF 5].map (fun c => cells c [0x3F800000, 0x40000000]) =
      [some [0x40400000], some [0x3F800000], some [0x40000000], some [0x40000000], some [0x3F800000], some [0x40000000]] ∧
    cells (.rhDivF 5) [0, 0x3F800000] = some [0x7F800000] ∧ cells (.rhAddF 5) [0xFF800000, 0x7F800000] = some [0x7FC00000] ∧
    cells (.rhNegF 5) [0x7F812345] = some [0x7FC00000] ∧ cells (.rhSqrtF 5) [0x40800000] = some [0x40000000] ∧
    cells (.rhRoundF 5) [0x40200000] = some [0x40000000] ∧ faults (.rhF2u 5) [0xBF333333] = some ([0], 0) ∧
    faults (.rhF2i 5) [0x7FC00000] = some ([0], 1) ∧ faults (.rhF2q 5) [0xFF800000] = some ([0x80000000], 0) ∧
    cells (.rhI2f 5) [0x01000001] = some [0x4B800000] ∧ cells (.rhCmpF 5 .ne) [0x7FC00000, 0] = some [1] ∧
    cells (.rhCmpF 5 .eq) [0x80000000, 0] = some [1] ∧ isNaN 0x7FC00000 = true := by decide +kernel

/-- The offset, the stack and the loop counts of task 5 after a command at this frame. -/
def control (i : Instr) (fr : Frame) : Option (Nat × List Word × List (Nat × Nat)) :=
  (lane i (running { window noLatch [] with frames := [fr] })).bind
    (fun w => w.frames.head?.map (fun g => (g.pc, g.stack, g.loops)))

/-- BranchesAndLoops: the loop at the frame's offset left at its last iteration, and taken before it (R175). -/
theorem witness_branchesAndLoops :
    control (.rhBr 5 30) (frame [1]) = some (40, [1], []) ∧ control (.rhBr 5 23) (frame []) = some (33, [], [(33, 2)]) ∧
    control (.rhBrz 5 4) (frame [0]) = some (14, [], [(33, 2)]) ∧ control (.rhBrz 5 4) (frame [1]) = some (10, [], [(33, 2)]) ∧
    control (.rhBrnz 5 4) (frame [1]) = some (14, [], [(33, 2)]) ∧
    control (.rhLoop 5 4 26) { frame [1] with pc := 33 } = some (7, [], [(33, 3)]) ∧
    control (.rhLoop 5 3 26) { frame [1] with pc := 33 } = some (38, [], []) ∧
    control (.rhLoop 5 4 26) { frame [0] with pc := 33 } = some (38, [], []) := by
  repeat' apply And.intro
  all_goals decide +kernel

/-- CallsAndReturns: two arguments and a third local; a return with a caller, and one at depth 1. -/
theorem witness_callsAndReturns :
    let s := running (window noLatch [2, 1, 9])
    s.dev.image.fns[(0 : BitVec 16).toNat]?.map (fun g => g.args.length) = some 2 ∧
    (frame [2, 1, 9]).stack = ([1, 2] : List Word).reverse ++ [9] ∧
    (lane (.rhCall 5 0) s).map (fun w => w.frames.map (fun f => (f.pc, f.stack, f.locals))) =
      some [(0, [], [1, 2, 0]), (10, [9], [10, 11])] ∧
    (lane (.rhRet 5) (running { window noLatch [] with frames := [frame [4, 3], frame [9]] })).map
      (fun w => (w.frames.map (·.stack), w.status)) = some ([[4, 3, 9]], .running) ∧
    (lane (.rhRet 5) s).map (fun w => (w.frames, w.status)) = some ([], .finished) := by decide +kernel

/-- Task 5 with two bytes in its window. -/
def worked (st : List Word) : State := running (window { noLatch with worktop := [(0x1FFC, 0x80), (0x1FFF, 0xFF)] } st)

/-- The stack, the memory faults and the constant faults of task 5 after a command. -/
def top (i : Instr) (st : List Word) : Option (List Word × Nat × Nat) :=
  (lane i (worked st)).bind (fun w => w.frames.head?.map (fun f => (f.stack, w.staged.memFault, w.staged.constF)))

/-- MemoryAccesses: the last aligned word of the window and the first past it, a misaligned one, and constants at the end of
the block (R105, R179, R180). -/
theorem witness_memoryAccesses :
    (worked []).dev.potOf 5 = 1 ∧ (worked []).dev.winAddr 1 0xFFC 4 = some 0x1FFC ∧ (worked []).dev.winAddr 1 0x1000 4 = none ∧
    (worked []).dev.winAddr 0 0xFFFFC 4 = some 0xFFFFC ∧ (worked []).dev.winAddr 0 0x100000 1 = none ∧
    top (.rhLd32 5 .i32) [0xFFC] = some ([0xFF000080], 0, 0) ∧ top (.rhLd32 5 .i32) [0xFFD] = some ([0], 1, 0) ∧
    top (.rhLd8s 5) [0xFFC] = some ([0xFFFFFF80], 0, 0) ∧ top (.rhLd8u 5) [0xFFC] = some ([0x80], 0, 0) ∧
    top (.rhLd16s 5) [0xFFE] = some ([0xFFFFFF00], 0, 0) ∧ top (.rhLd16u 5) [0x1000] = some ([0], 1, 0) ∧
    top (.rhSt16 5) [7, 0xFFF] = some ([], 1, 0) ∧
    (lane (.rhSt32 5) (worked [0x04030201, 0xFFC])).map (fun w => (upTo 4).map (fun i => w.byteAt (0x1FFC + i))) =
      some [1, 2, 3, 4] ∧
    (lane (.rhSt8 5) (worked [0x1FF, 0])).map (fun w => w.byteAt 0x1000) = some 0xFF ∧
    top (.rhLdc32 5 .u32) [0] = some ([0x04030201], 0, 0) ∧ top (.rhLdc16u 5) [2] = some ([0x0403], 0, 0) ∧
    top (.rhLdc8u 5) [4] = some ([0], 0, 1) := by
  repeat' apply And.intro
  all_goals decide +kernel

/-- A latch with two inputs, a hatch, captures and a register. -/
def fullLatch : Latch :=
  { noLatch with inputs := [{ key := 65, value := 0xF0, prev := 0x3C, status := 3 }]
                 caps := [{ stream := 2, entries := [⟨0x1_0000_0005, true⟩], further := 7 }]
                 hatches := [{ hatch := 0, bytes := [1, 2, 3, 4, 5, 6, 7, 8] ++ List.replicate 56 0, gen := 9 }]
                 outs := [(130, 44)], regs := [(0x10, 5)], slots := [(15, 6)], larStat := [(0, 4)], faceStat := [(15, 3)]
                 count := 0x2_0000_0064, wm := 12, si := 0x1_0000_0000, cyc := 3, die := -4, netValid := true
                 larder := [(8 * 0x1800 + 4, 0x55)], worktop := [(0x1004, 1), (0x1008, 50)] }

/-- What a push leaves on top, on the full latch. -/
def pushed (i : Instr) : Option Word :=
  (lane i (running (window fullLatch []))).bind (fun w => w.frames.head?.bind (fun f => f.stack.head?))

/-- What a command stages from this stack. -/
def staged {α : Type} (i : Instr) (st : List Word) (f : Staged → α) : Option α :=
  (lane i (running (window fullLatch st))).map (fun w => f w.staged)

/-- ElementsAndCaptures. -/
theorem witness_elementsAndCaptures :
    (fullLatch.cap (2 : BitVec 10).toNat).entries.length ≤ 16 ∧
    [Instr.rhIn 5 1 1 .u32, .rhInst 5 1 1, .rhPrev 5 1 1 .u32, .rhEdgeR 5 1 1, .rhEdgeF 5 1 1, .rhOutget 5 2 2 .u32,
      .rhCapN 5 2, .rhCapX 5 2].map pushed =
      [some 0xF0, some 3, some 0x3C, some 0xC0, some 0x0C, some 44, some 1, some 7] ∧
    staged (.rhOut 5 2 2 .u32) [8] (·.outs) = some [(130, 8)] ∧
    (lane (.rhCapCp 5 2) (running (window fullLatch [0]))).map (fun w =>
      [0, 4, 7, 8, 127].map (fun i => w.byteAt (0x1000 + i))) = some [5, 1, 0x80, 0, 0] ∧
    (lane (.rhCapCp 5 2) (running (window fullLatch [0xF84]))).map (fun w => w.staged.memFault) = some 1 := by
  decide +kernel

/-- TimeAndTimers: a timer started in this release has elapsed only where DURATION is 0 (ch. 7, corner cases). -/
theorem witness_timeAndTimers :
    [Instr.rhTime 5 .msLo, .rhTime 5 .msHi, .rhTime 5 .wm, .rhTime 5 .siHi, .rhTime 5 .die, .rhTime 5 .netValid,
      .rhRegRd 5 0x10, .rhSelf 5 .task, .rhSelf 5 .pot, .rhSelf 5 .entry].map pushed =
      [some 0x64, some 2, some 12, some 1, some 0xFFFFFFFC, some 1, some 5, some 5, some 1, some 1] ∧
    staged (.rhRegWr 5 0x10) [8] (·.regs) = some [(0x10, 8)] ∧
    (lane (.rhTStart 5 true) (running (window fullLatch [50, 16]))).map (fun w =>
      [16, 20, 24, 28].map (fun i => w.byteAt (0x1000 + i))) = some [0x64, 2, 50, 1] ∧
    cells (.rhTExp 5) [0] = some [1] ∧ cells (.rhTLeft 5) [0] = some [0] ∧
    [Instr.rhTExp 5, .rhTLeft 5].map (fun c => (lane c (running (window fullLatch [0]))).bind (fun w =>
      w.frames.head?.map (·.stack))) = [some [0], some [50]] := by
  refine ⟨?_, ?_⟩
  all_goals (repeat' apply And.intro)
  all_goals decide +kernel

/-- Task 5 with staged larder halves, and with its region lost or not. -/
def stored (l : List ((Nat × Nat × Nat) × Word)) (lost : List Nat) (st : List Word) : State :=
  let s := running { window fullLatch st with staged := { Staged.none with larder := l } }
  { s with dev := { s.dev with store := { s.dev.store with lost := lost } } }

/-- HatchesAndLarder: the word that LENGTH 6 cuts; a staged half, a latched one, a lost one; the 512th and the 513th group. -/
theorem witness_hatchesAndLarder :
    ((running (window fullLatch [])).dev.image.hatch 0).isSome = true ∧
    [Instr.rhHRd 5 0 0 .u32, .rhHRd 5 0 1 .u32, .rhHGen 5 0, .rhLStat 5 0].map pushed =
      [some 0x04030201, some 0x0605, some 9, some 4] ∧
    staged (.rhHWr 5 0 1 .u32) [8] (·.hatch) = some [((0, 1), 8)] ∧
    Logged (stored [] [] []).dev ∧ mapFind [((0, 0, 1), (7 : Word))] ((0 : BitVec 6).toNat, (0 : BitVec 15).toNat, 1) = some 7 ∧
    (stored [] [0x1800] []).dev.regionGroup 0 0 = 0x1800 ∧ (stored [] [0x1800] []).dev.store.lost.contains 0x1800 = true ∧
    (lane (.rhLRd 5 0 true 0 .u32 .clean) (stored [((0, 0, 1), 7)] [] [])).bind (fun w => w.frames.head?.map (·.stack)) = some [7] ∧
    (lane (.rhLRd 5 0 true 0 .u32 .clean) (stored [] [] [])).bind (fun w => w.frames.head?.map (·.stack)) = some [0x55] ∧
    (lane (.rhLRd 5 0 true 0 .u32 .clean) (stored [] [0x1800] [])).bind (fun w => w.frames.head?.map (·.stack)) = some [0] := by
  refine ⟨rfl, ?_, ?_, rfl, ?_⟩
  all_goals (repeat' apply And.intro)
  all_goals decide +kernel

/-- A list without repeats has none to erase. -/
theorem eraseDups_nodup {α : Type} [BEq α] [LawfulBEq α] (l : List α) (h : l.Nodup) : l.eraseDups = l := by
  induction l with
  | nil => rfl
  | cons a t ih =>
    have ht := List.nodup_cons.1 h
    have : t.filter (fun b => !b == a) = t := by
      rw [List.filter_eq_self]
      intro b hb
      have : b ≠ a := fun e => ht.1 (e ▸ hb)
      simp [this]
    rw [List.eraseDups_cons, this, ih ht.2]

/-- What is staged with the first `n` groups of region 0. -/
def stagedGroups (n : Nat) : Staged := { Staged.none with larder := (upTo n).map (fun g => ((0, g, 0), 1)) }

/-- HatchesAndLarder, L.WR: 511 groups staged; 512, with group 512 not among them. -/
theorem witness_stagedGroups :
    (stagedGroups 511).groupsOf.length < 512 ∧ 512 ≤ (stagedGroups 512).groupsOf.length ∧
    (0, 512) ∉ (stagedGroups 512).groupsOf := by
  have h : ∀ n, (stagedGroups n).groupsOf = (List.range n).map (fun g => (0, g)) := by
    intro n
    have : (stagedGroups n).groupsOf = ((List.range n).map (fun g => (0, g))).eraseDups := by
      simp [stagedGroups, Staged.groupsOf, upTo, Function.comp_def]
    rw [this]
    apply eraseDups_nodup
    refine List.Pairwise.map _ ?_ List.nodup_range
    intro a b hab e
    exact hab (Prod.mk.inj e).2
  simp [h]

/-- ScriptsAndFaceStaged: an abort after a start of one slot stands alone (R218). -/
theorem witness_scriptsAndFaceStaged :
    staged (.rhSRun 5 3) [] (·.runs) = some [(3, true)] ∧ staged (.rhSStop 5 3) [] (·.runs) = some [(3, false)] ∧
    (lane (.rhSStop 5 3) (running { window noLatch [] with staged := { Staged.none with runs := [(3, true)] } })).map
      (fun w => w.staged.runs) = some [(3, false)] ∧
    staged (.rhSPar 5 3 15) [8] (·.params) = some [((3, 15), 8)] ∧ pushed (.rhSStat 5 15) = some 6 ∧
    staged (.rhFRect 5 2) [0x40] (·.fRects) = some [(2, 0x40)] ∧ staged (.rhFAbort 5 2) [] (·.fAborts) = some [2] ∧
    staged (.rhFSten 5 7) [] (·.fStens) = some [7] ∧ pushed (.rhFStat 5 15) = some 3 := by
  refine ⟨?_, ?_⟩
  all_goals (repeat' apply And.intro)
  all_goals decide +kernel

/-! ## The pantry and the larder -/

/-- The header of an image of generation 2 whose sections are all empty: what SEAL checks of it holds (R224). -/
def headerBytes : Mem :=
  [(0, 0x48), (1, 0x46), (2, 0x4E), (3, 0x49), (4, 1), (6, 12), (9, 1), (12, 2)] ++
  [(0xFC, 0x41), (0xFD, 0x83), (0xFE, 0x61), (0xFF, 0x58)]

/-- The store in HALT with region 1 journaled, bank A holding the header in a mode, a command in progress or none, and the
arguments of a command. -/
def storing (m : BankMode) (busy : Option StoreOp) (sw : SwitchState) (a0 a1 : Word) : State := on fun d =>
  { inMode .halt d with
    sys := { (inMode .halt d).sys with provEn := true }
    image := { (inMode .halt d).image with
      larderRegions := [{ owner := 0xFF, journaled := false, base := 0, groups := 0 },
        { owner := 0, journaled := true, base := 0x1800, groups := 8 }] }
    store := { d.store with bankA := { Bank.blank with mode := m, bytes := headerBytes }, busy := busy, sw := sw, arg0 := a0, arg1 := a1
                            buf := d.store.buf.set 0 0x04030201 } }

/-- RESULT, OP and BUSY after a command. -/
def answers (i : Instr) (s : State) : Option (BitVec 4 × BitVec 4 × Option StoreOp) :=
  left i s (fun d => (d.store.op, d.store.result, d.store.busy))

/-- StoreCommandsJudged: each command turned away, and each begun. -/
theorem witness_storeCommandsJudged :
    let s := storing .complete (some .commit) .idle 0 0
    Logged s.dev ∧ s.dev.store.isBusy = true ∧
    [Instr.erase false, .storeWrite false, .storeSeal false, .bankSwitchTo false, .txnBegin, .txnWrite, .txnCommit,
      .provision true].map (fun c => answers c s) =
      [1, 2, 3, 4, 6, 7, 8, 9].map (fun (op : BitVec 4) => some (op, 2, some .commit)) ∧
    left .txnBegin s (fun d => d.seat.attn) = some 2 := by
  refine ⟨rfl, ?_⟩
  decide +kernel

/-- StoreCommandsJudged, ERASE: of the bank that a switch checks, of the other one meanwhile, and of an EMPTY bank. -/
theorem witness_eraseJudged :
    let v := storing .complete none (.verifying false 0 0 false true) 0 0
    v.dev.store.busy = none ∧ v.dev.store.candidate false = true ∧ v.dev.store.isBusy = true ∧ v.dev.store.candidate true = false ∧
    answers (.erase false) v = some (1, 5, none) ∧ answers (.erase true) v = some (1, 2, none) ∧
    left (.erase false) (storing .empty none .idle 0 0) (fun d => (d.store.busy, d.store.bankA.mode)) =
      some (some (.erase false), .empty) ∧
    left (.storeAbort 0) (storing .empty (some (.erase false)) .idle 0 0) (fun d => (d.store.result, d.store.bankA.mode)) =
      some (0xB, .writing) := by decide +kernel

/-- StoreCommandsJudged: what each begun command supposes, at the ends of its ranges. -/
theorem witness_storeCommandsBegun :
    (storing .complete none .idle 0 0).dev.store.isBusy = false ∧
    (storing .complete none .idle 0 0).dev.store.candidate false = false ∧
    left (.erase false) (storing .complete none .idle 0 0) (fun d => (d.store.busy, d.store.bankA.mode)) =
      some (some (.erase false), .writing) ∧
    answers (.storeWrite false) (storing .writing none .idle 1048572 4) =
      some (2, 0, some (.write false 1048572 [1, 2, 3, 4])) ∧
    answers (.storeSeal false) (storing .writing none .idle 0 0) = some (3, 0, some (.seal false)) ∧
    (storing .complete none .idle 0 0).dev.image.generation < (storing .complete none .idle 0 0).dev.store.bankA.generation ∧
    left (.bankSwitchTo false) (storing .complete none .idle 9 0x20007) (fun d => d.store.sw) =
      some (.verifying false 9 7 false true) ∧
    ((storing .complete none .idle 1 0).dev.image.region 1).map (·.journaled) = some true ∧
    left .txnBegin (storing .complete none .idle 1 0) (fun d => (d.store.txn, d.store.result)) =
      some (some { region := 1, groups := [] }, 1) := by decide +kernel

/-- A host transaction on region 1 in progress. -/
def inTxn (a0 a1 : Word) (gs : List (Nat × List Byte)) : State :=
  let s := storing .complete none .idle a0 a1
  { s with dev := { s.dev with store := { s.dev.store with txn := some { region := 1, groups := gs } } } }

/-- StoreCommandsJudged, TXN_WRITE of the last group and PROVISION; LarderWritesLand, TXN_COMMIT. -/
theorem witness_transactions :
    left .txnWrite (inTxn 7 1 []) (fun d => (d.store.txn.map (·.groups), d.store.result)) =
      some (some [(7, [1, 2, 3, 4, 0, 0, 0, 0])], 1) ∧
    (∀ k < 4, ∀ y ∈ (storing .complete none .idle 1 0).dev.store.group (4 + k), y = 0) ∧
    left (.provision false) (storing .complete none .idle 1 0) (fun d => (d.store.busy, d.store.queue.length, d.store.queue.head?)) =
      some (some (.provision 4), 4, some (.imm 4 [1, 2, 3, 4, 0, 0, 0, 0] true)) ∧
    (inTxn 0 0 [(7, [1])]).dev.store.failed = [] ∧
    left .txnCommit (inTxn 0 0 [(7, [1])]) (fun d => (d.store.txn, d.store.busy, d.store.queue)) =
      some (none, some .commit, [.txn { owner := 0, seq := 0, place := 0, groups := [(0x1807, [1])], done := 0, host := true, old := [] }]) := by
  refine ⟨?_, ?_, ?_, ?_, ?_⟩ <;> decide +kernel

/-- StoreCommandsEnd: each end, and each ABORT; SEAL with its checks holding and not. -/
theorem witness_storeCommandsEnd :
    let e := storing .writing (some (.erase false)) .idle 0 0
    let w := storing .writing (some (.write false 16 [9, 8, 7, 6, 5, 4, 3, 2])) .idle 0 0
    let z := storing .writing (some (.seal false)) .idle 0 0
    let z' := { z with dev := { z.dev with store := { z.dev.store with bankA := { z.dev.store.bankA with bytes := [] } } } }
    Logged e.dev ∧
    left .eraseComplete e (fun d => (d.store.bankA, d.store.result, d.store.busy)) = some (Bank.blank, 1, none) ∧
    left (.storeAbort 0) e (fun d => (d.store.result, d.store.busy)) = some (0xB, none) ∧
    left .storeWriteComplete w (fun d => (Mem.readLE zeroByte d.store.bankA.bytes 16 8, d.store.result)) =
      some (0x0203040506070809, 1) ∧
    left (.storeAbort 1) w (fun d => (Mem.readLE zeroByte d.store.bankA.bytes 16 8, d.store.result)) = some (0x06070809, 0xB) ∧
    z.dev.store.bankA.sealOk = true ∧ z'.dev.store.bankA.sealOk = false ∧
    left .sealComplete z (fun d => (d.store.bankA.mode, d.store.result)) = some (.complete, 1) ∧
    left .sealComplete z' (fun d => (d.store.bankA.mode, d.store.result)) = some (.writing, 7) ∧
    left (.storeAbort 0) z (fun d => (d.store.result, d.store.busy)) = some (0xB, none) ∧
    left (.storeAbort 0) (storing .complete none (.verifying false 0 0 false true) 0 0) (fun d => (d.store.sw, d.store.op)) =
      some (.idle, 4) ∧
    left (.storeAbort 0) (inTxn 0 0 []) (fun d => (d.store.txn, d.store.op)) = some (none, 6) := by
  refine ⟨rfl, ?_⟩
  decide +kernel

/-- SwitchVerifiedAndMade: a candidate that fails, and one that is armed for the present milestone. -/
theorem witness_switchVerifiedAndMade :
    let v := storing .complete none (.verifying false 0 0 false true) 0 0
    let a := storing .complete none (.armed false 1 0 noImage) 0 0
    v.dev.store.sw = .verifying false 0 0 false true ∧
    left .switchVerified v (fun d => (d.store.sw, d.store.result, d.store.vfyCause)) = some (.idle, 0xA, 5) ∧
    a.dev.ms % 2 ^ 32 = 1 ∧ left .bankSwitch a (fun d => (d.image, d.store.record, d.store.bankA.mode)) =
      some (noImage, some false, .active) := by decide +kernel

/-- LarderWritesLand: a write that lands, one that needs a spare, whose row is the remap table's first, one that finds none; a
milestone of the write-back; the last group of a record and its mark. -/
theorem witness_larderWritesLand :
    let s := on fun d => { d with store := { d.store with queue := [.imm 0x1801 [1, 2, 3, 4, 5, 6, 7, 8] false], wear := [(479, 5)] }
                                  time := { d.time with count := 65536 } }
    s.dev.store.spares ≠ 0 ∧ s.dev.ms % 65536 = 0 ∧ s.dev.ms ≠ 0 ∧ s.dev.store.failed = [] ∧
    left (.larderWriteComplete true) s (fun d => (d.store.group 0x1801, d.store.wearOf 0x60)) =
      some ([1, 2, 3, 4, 5, 6, 7, 8], 1) ∧
    Memory.wf larderByte s.dev.store.home = true ∧
    left (.larderWriteComplete false) s (fun d => (d.store.group 0x1801, d.store.spares)) =
      some ([1, 2, 3, 4, 5, 6, 7, 8], 2047) ∧
    left (.larderWriteComplete false) s (fun d => (d.store.cells 0x200, d.store.cells 0x400, d.store.remap)) =
      some (leBytes 8 0x9801, leBytes 8 0x9801, [(0x1801, 0)]) ∧
    left (.larderWriteComplete false) { s with dev := { s.dev with store := { s.dev.store with spares := 0 } } }
      (fun d => (d.store.failed, d.store.noSpare)) = some ([0x1801], true) ∧
    ([2, 3].map fun n => left (.larderWriteComplete true)
      { s with dev := { s.dev with store := { s.dev.store with queue := [.txn (oneGroup n)] } } }
      (fun d => (d.store.cells ((oneGroup n).cell n), d.store.queue))) =
      [some ([1, 2, 3, 4, 5, 6, 7, 8], [.txn (oneGroup 3)]), some ((oneGroup 3).mark, [.txn (oneGroup 4)])] := by
  repeat' apply And.intro
  all_goals decide +kernel

/-! ## The converters and the sensing front ends -/

/-- A run at the start of its script. -/
def runAt (waiting : Option Nat) : ScriptRun :=
  { cursor := ⟨0, 0⟩, step := 0, repeats := [(0, 1)], params := [0x12345], number := 2, last := 0, waiting := waiting, ended := none
    taken := 0, held := [] }

/-- A conversion at mid-scale, as are those around it. -/
def mid : SampleIn := { code := 0x2000, ahead := List.replicate 4 0x2000, back := List.replicate 4 0x2000 }

/-- Slot 0 with a script of one step and END, in a run that stands at the step. -/
def atStep (op : Byte) (v : List Byte) (waiting : Option Nat) : State := on fun d =>
  let d := allOn d
  { d with
    image := { d.image with scripts := [{
      key := 0, pot := 1, offset := 0
      data := [2] ++ List.replicate 15 0 ++ [op, 0, 0, 0] ++ v ++ List.replicate 8 0 }] }
    mando := { d.mando with slots := d.mando.slots.set 0 { d.mando.slots[0] with
      mode := .running, par := d.mando.slots[0].par.set 0 0x12345, run := some (runAt waiting) } } }

/-- The run, and the entries' instants and words of slot 0 after a command. -/
def slot0 (i : Instr) (s : State) : Option (Option (Nat × Tick × Option Nat) × List (Nat × Word)) :=
  left i s (fun d => let x := d.mando.slots[(0 : Fin 16)]
                     (x.run.map (fun r => (r.step, r.cursor, r.ended)), x.pend.map (fun e => (e.instant, e.word))))

/-- The same with the run at a tick, `taken` samples of the step done. -/
def atTick (op : Byte) (v : List Byte) (t : Tick) (taken : Nat) : State :=
  let s := atStep op v none
  { s with dev := { s.dev with mando := { s.dev.mando with slots := s.dev.mando.slots.set 0 { s.dev.mando.slots[0] with
      run := some { runAt none with cursor := t, taken, held := List.replicate taken ⟨5, false⟩ } } } } }

/-- The instants of the entries, the cursor and the samples taken of slot 0 after a command. -/
def taken0 (i : Instr) (s : State) : Option (List Nat × Option (Nat × Tick × Nat × Nat)) :=
  left i s (fun d => let x := d.mando.slots[(0 : Fin 16)]
                     (x.pend.map (·.instant), x.run.map (fun r => (r.step, r.cursor, r.taken, r.held.length))))

/-- What a sample and a mean leave in the ring (R311, R312): clamped, with CLIP, GAP and the run number; rounded up at a half. -/
theorem test_ringWords :
    sampleWord (runAt none) ⟨70000, false⟩ = 0x0240FFFF ∧ sampleWord (runAt none) ⟨5, true⟩ = 0x02200005 ∧
    averageOf 2 [1, 2, 3, 4] = (3, false) ∧ averageOf 1 [-4, 2] = (0, true) := by decide +kernel

/-- ScriptStepsRun: SAMPLE and AVERAGE on slot 0's ticks, every fourth of 62.5 ns by the map at reset, whole and at the last own
tick of a milestone, 319,996 of 320,000, behind which the rest waits. -/
theorem witness_samplesTaken :
    taken0 (.scriptSample 0 [mid, mid]) (atStep 1 [2, 0, 0, 0] none) = some ([0, 500], some (1, ⟨0, 5⟩, 0, 0)) ∧
    taken0 (.scriptSample 0 [mid]) (atTick 1 [2, 0, 0, 0] ⟨0, 319993⟩ 0) = some ([39999500], some (0, ⟨0, 319997⟩, 1, 0)) ∧
    taken0 (.scriptSample 0 [mid]) (atTick 1 [2, 0, 0, 0] ⟨0, 1⟩ 1) = some ([500], some (1, ⟨0, 5⟩, 0, 1)) ∧
    taken0 (.scriptAverage 0 [mid, mid, mid, mid]) (atStep 2 [2, 0, 0, 0] none) = some ([1500], some (1, ⟨0, 13⟩, 0, 0)) ∧
    taken0 (.scriptAverage 0 [mid]) (atTick 2 [2, 0, 0, 0] ⟨0, 319993⟩ 0) = some ([], some (0, ⟨0, 319997⟩, 1, 1)) ∧
    taken0 (.scriptAverage 0 [mid]) (atTick 2 [1, 0, 0, 0] ⟨0, 1⟩ 1) = some ([500], some (1, ⟨0, 5⟩, 0, 0)) := by
  repeat' apply And.intro
  all_goals decide +kernel

/-- ScriptStepsRun: every other step, the run standing at it. -/
theorem witness_scriptStepsRun :
    (upTo 8).all (fun op => match (atStep (BitVec.ofNat 8 op) [2, 0, 0, 0] none).dev.image.script 0 with
      | some sc => sc.steps.length == 2 && (sc.steps.head?.map (·.op)) == some op
      | none => false) = true ∧
    Logged (atStep 0 [0, 0, 0, 0] none).dev ∧ (atStep 1 [2, 0, 0, 0] none).dev.slotOnline 0 = true ∧
    slot0 (.scriptWait 0) (atStep 3 [9, 0, 0, 0] none) = some (some (1, ⟨0, 9⟩, none), []) ∧
    slot0 (.scriptRepeat 0) (atStep 4 [0, 0, 2, 0] none) = some (some (0, ⟨0, 0⟩, none), []) ∧
    slot0 (.scriptRepeat 0) (atStep 4 [0, 0, 1, 0] none) = some (some (1, ⟨0, 0⟩, none), []) ∧
    slot0 (.scriptMark 0) (atStep 5 [0, 0, 0, 0] none) = some (some (1, ⟨0, 0⟩, none), [(0, 0x02802345)]) ∧
    slot0 (.scriptEnd 0) (atStep 0 [0, 0, 0, 0] none) = some (some (0, ⟨0, 0⟩, some 0), []) ∧
    (atStep 5 [0, 0, 0, 0] none).dev.begun ⟨0, 0⟩ = true ∧
    (atStep 7 [0, 0, 0, 0] (some 400)).dev.holdTick 0 400 (runAt (some 400)) = some ⟨0, 4⟩ ∧
    taken0 (.scriptGsample 0 mid) (atStep 7 [0, 0, 0, 0] (some 400)) = some ([500], some (1, ⟨0, 5⟩, 0, 0)) := by
  refine ⟨?_, rfl, ?_⟩
  all_goals (repeat' apply And.intro)
  all_goals decide +kernel

/-- The tests above stand at their step as the statement asks. -/
theorem witness_atStep (op : Byte) (v : List Byte) (w : Option Nat) :
    AtStep (atStep op v w).dev 0 (runAt w)
      { mode := 0, startWm := 0, e := 0, phase := 0, cross := 0, ring := 0, len := 0, steps :=
        [{ op := op.toNat, input := 0, param := false, value := leNat ((v ++ List.replicate 8 0).take 4) },
         { op := byteAt (v ++ List.replicate 8 0) 4, input := byteAt (v ++ List.replicate 8 0) 5
           param := byteAt (v ++ List.replicate 8 0) 6 % 2 = 1, value := leAt (v ++ List.replicate 8 0) 8 4 }] }
      { op := op.toNat, input := 0, param := false, value := leNat ((v ++ List.replicate 8 0).take 4) } :=
  ⟨rfl, rfl, rfl, rfl⟩

/-- Slot 0 idle or in a run, with a start or an abort waiting. -/
def slotWith (starting : Option Tick) (aborting : Option Nat) (running : Bool) : State :=
  let s := atStep 3 [9, 0, 0, 0] none
  { s with dev := { s.dev with mando := { s.dev.mando with slots := s.dev.mando.slots.set 0 { s.dev.mando.slots[0] with
      starting := starting, aborting := aborting, runNo := 300
      run := if running then (s.dev.mando.slots[0]).run else none
      pend := [⟨0, 10, 1⟩, ⟨0, 20, 2⟩] } } } }

/-- A run at a FIRE step of a group whose member, slot 1, waits for its trigger or holds. -/
def firing (held : Option Nat) : State :=
  let s := atStep 6 [0, 0, 0, 0] none
  let g := { s.dev.mando.groups[0] with used := true, members := 2 }
  let wait := { key := 1, pot := 1, offset := 0
                data := [2] ++ List.replicate 15 0 ++ [7, 0, 0, 0] ++ List.replicate 12 0 : Payload }
  { s with dev := { s.dev with
    image := { s.dev.image with scripts := s.dev.image.scripts ++ [wait] }
    mando := { s.dev.mando with
      groups := s.dev.mando.groups.set 0 g
      slots := s.dev.mando.slots.set 1 { s.dev.mando.slots[1] with mode := .running, run := some (runAt held) } } } }

/-- ScriptsStartAbortAndFire: a group whose member waits, and one whose hold is not yet converted. -/
theorem witness_scriptsStartAbortAndFire :
    Logged (slotWith none none true).dev ∧
    left (.scriptStart 0) (slotWith (some ⟨0, 4⟩) none false) (fun d => ((d.mando.slots[(0 : Fin 16)]).run.map
      (fun r => (r.number, r.cursor)), (d.mando.slots[(0 : Fin 16)]).runNo)) = some (some (44, ⟨0, 4⟩), 301) ∧
    left (.scriptStart 0) (slotWith (some ⟨0, 4⟩) none true) (fun d => (d.mando.slots[(0 : Fin 16)]).ignored) = some 1 ∧
    left (.scriptAbort 0) (slotWith none (some 20) true) (fun d =>
      ((d.mando.slots[(0 : Fin 16)]).mode, (d.mando.slots[(0 : Fin 16)]).pend.length)) = some (.aborted, 1) ∧
    (firing none).dev.waitsFor 1 0 0 = true ∧ (firing (some 0)).dev.holds 1 0 = true ∧
    ([none, some 9].map fun h => left (.scriptFire 0) (firing h) (fun d => ((d.mando.groups[(0 : Fin 4)]).fires,
      (d.mando.groups[(0 : Fin 4)]).missed, (d.mando.slots[(1 : Fin 16)]).run.bind (·.waiting)))) =
      [some (1, 0, some 0), some (0, 1, some 9)] := by
  refine ⟨rfl, ?_⟩
  repeat' apply And.intro
  all_goals decide +kernel

/-- A calibration whose offset is at the limit of Table 10.5, or 0.01 LSB beyond it. -/
def calEnd (beyond : Bool) : CalEnv :=
  { connect := 40, result := { offset := if beyond then -6401 else -6400, gain := 10000, skew := -50, spread := 150 } }

/-- Converter MA after the exchange of its first slice, which has failed `n` calibrations. -/
def exchanged (n : Nat) : State :=
  let d := (on allOn).dev.rotation 0 (calEnd false)
  let c := d.mando.conv[0]
  let c := { c with slices := c.slices.set 0 { c.slices[0] with attempts := BitVec.ofNat 2 n } }
  { on allOn with dev := { d with mando := { d.mando with conv := d.mando.conv.set 0 c } } }

/-- What an attempt leaves of slice S0: its duty, ATTEMPTS, FAILS, whether it is freed still, and RECORDED. -/
def calibrated (beyond : Bool) (n : Nat) : Option (SliceDuty × BitVec 2 × BitVec 8 × Option Nat × Word) :=
  left (.calibrationRotation 0 (calEnd beyond)) (exchanged n) (fun d =>
    let e := d.mando.conv[(0 : Fin 4)]
    let x := e.slices[(0 : Fin 9)]
    (x.duty, x.attempts, x.fails, e.freed, d.sys.recorded))

/-- SlicesExchanged: spare S8, position 0 next, the interval expired; the freed S0 passes, fails for the second time and for the
third; S7 stalls at tick 7. -/
theorem witness_slicesExchanged :
    let s := on allOn
    let c := s.dev.mando.conv[(0 : Fin 4)]
    let x := (exchanged 0).dev.mando.conv[(0 : Fin 4)]
    c.spare = some 8 ∧ s.dev.convUsable 0 = true ∧ c.failed = false ∧ c.atPos c.next = some 0 ∧ c.freed = none ∧ c.idleCal = none ∧
    c.expiry < s.dev.wmStart (s.dev.time.wm + 1) ∧ (c.slices[(7 : Fin 9)]).duty = .active ∧ Placed c ∧
    left (.calibrationRotation 0 (calEnd false)) s (fun d => let e := d.mando.conv[(0 : Fin 4)]
      ((e.slices[(8 : Fin 9)]).duty, (e.slices[(0 : Fin 9)]).duty, e.next, e.expiry, e.freed)) =
      some (.active, .idle, 1, 100000000, some 0) ∧
    (exchanged 0).dev.convUsable 0 = true ∧ x.failed = false ∧ x.freed = some 0 ∧ (x.slices[(0 : Fin 9)]).duty = .idle ∧ Placed x ∧
    Accepted (calEnd false).result ∧ ¬Accepted (calEnd true).result ∧
    calibrated false 1 = some (.spare, 0, 0, none, 0) ∧ calibrated true 1 = some (.idle, 2, 1, some 0, 0) ∧
    calibrated true 2 = some (.retired, 0, 1, none, 1) ∧
    s.dev.tickPosition 0 875 = some 7 ∧
    left (.sliceStall 0 7 875) s (fun d => let e := d.mando.conv[(0 : Fin 4)]
      ((e.slices[(8 : Fin 9)]).pos, (e.slices[(7 : Fin 9)]).duty, (e.slices[(7 : Fin 9)]).cause, d.sys.recorded)) =
      some (7, .retired, 2, 1) := by
  dsimp only [Placed, Accepted]
  repeat' apply And.intro
  all_goals decide +kernel

/-- Crossing 4 enabled and owned, with its threshold at 1.25 V, and input 2 at low with a filter of 16 samples; task 5 captures both. -/
def capturing (asserted : Bool) : State := on fun d =>
  let d := allOn d
  { d with
    image := { d.image with chanOwn := List.replicate 0x100 1
                            names := List.replicate 6 { inputs := [], outputs := [], streams := [2, 0x014], hatches := [], regs := [], slots := [] } }
    mando := { d.mando with cx := d.mando.cx.set 4 { d.mando.cx[4] with en := true, thr := 512, state := asserted } }
    sense := { d.sense with di := d.sense.di.set 2 { d.sense.di[2] with filter := 2 } } }

/-- CrossingsAndInputsCaptured: the input 1 µV above the threshold, 1 µV below it, and on it, where nothing happens. -/
theorem witness_crossingsAndInputsCaptured :
    (capturing false).dev.cxArmed 4 = true ∧ ((capturing true).dev.mando.cx[(4 : Fin 16)]).state = true ∧
    AssertsAt ((capturing false).dev.mando.cx[(4 : Fin 16)]) 1250001 ∧ DeassertsAt ((capturing true).dev.mando.cx[(4 : Fin 16)]) 1249999 ∧
    left (.crossingAssert 4 7999 1250000) (capturing false) (fun d => (d.mando.cx[(4 : Fin 16)]).asserts) = some 0 ∧
    left (.crossingDeassert 4 7999 1250000) (capturing true) (fun d => (d.mando.cx[(4 : Fin 16)]).state) = some true ∧
    left (.crossingAssert 4 7999 1250001) (capturing false) (fun d => ((d.mando.cx[(4 : Fin 16)]).asserts,
      (d.cycle.tasks[(5 : Fin 64)]).caps)) = some (1, [(0x014, [⟨7, true⟩])]) ∧
    left (.crossingDeassert 4 7999 1249999) (capturing true) (fun d => ((d.mando.cx[(4 : Fin 16)]).state,
      (d.cycle.tasks[(5 : Fin 64)]).caps)) = some (false, [(0x014, [⟨7, false⟩])]) ∧
    4 ^ ((capturing false).dev.sense.di[(2 : Fin 8)]).filter.toNat ≤ 16 ∧
    left (.diLevelChange 2 true 9 16) (capturing false) (fun d => ((d.sense.di[(2 : Fin 8)]).level,
      mapFind d.cycle.inputs (elemKey 2 0), (d.cycle.tasks[(5 : Fin 64)]).caps)) =
      some (true, some 1, [(2, [⟨9, true⟩])]) := by
  dsimp only [AssertsAt, DeassertsAt]
  repeat' apply And.intro
  all_goals decide +kernel

/-- Sensing with TEMP0, DAYLIGHT and PRESENCE enabled, and I²C devices 1 and 6 due in every milestone, in RUN at a waymark. -/
def sensing (wm : Nat) (fail1 : Option Nat) : State := on fun d =>
  let d := allOn d
  let sense := [1] ++ List.replicate 0x5F 0 ++ [1, 0, 0, 0, 0, 0, 0, 0, 1] ++ List.replicate 31 0
  let i2c := List.replicate 16 0 ++ [1, 0x2A, 0, 1, 0xA5] ++ List.replicate 11 0 ++ List.replicate 64 0 ++ [1, 0, 0, 1] ++ List.replicate 44 0
  { d with
    sys := { d.sys with mode := .run, boot := .done }
    time := { d.time with wm := wm }
    image := { d.image with
      chanOwn := List.replicate 0x30 1
      scripts := [{ key := 0x300, pot := 1, offset := 0, data := sense }, { key := 0x301, pot := 1, offset := 0, data := i2c }] }
    sense := { d.sense with i2c := d.sense.i2c.set 1 ({ d.sense.i2c[1] with writeFail := fail1 }) } }

/-- The same with device 1 alone. -/
def oneDue (wm : Nat) (fail1 : Option Nat) : State :=
  let s := sensing wm fail1
  let scripts := s.dev.image.scripts.map (fun p => { p with data := p.data.take 0x60 })
  { s with dev := { s.dev with image := { s.dev.image with scripts := scripts } } }

/-- ReadingsAndTransactions: the sequence, of which the first four samples of each reading are dropped; a write at the first and
a read at the last waymark of its phase. -/
theorem witness_readingsAndTransactions :
    let vs := [List.replicate 4 60000 ++ List.replicate 16 100, List.replicate 20 (70000 : Int), List.replicate 20 3, List.replicate 20 4]
    let e : I2cEnd := { code := 3, bytes := 9, sdaLow := true, data := [9] }
    (sensing 4 none).dev.image.sensing = true ∧ (sensing 4 none).dev.convUsable 3 = true ∧
    (sensing 4 none).dev.convFailed 3 = false ∧
    senseOrder (sensing 4 none).dev.image.senseCfg = [0, 1, 5, 8] ∧ (∀ l ∈ vs, l.length = 20) ∧
    left (.senseSequence vs) (sensing 4 none) (fun d => d.sense.taken.map (fun r => (r.sref, r.temp.head?, r.daylight, r.presence))) =
      some (some (100, some 65535, 3, 4)) ∧
    (sensing 8 none).dev.i2cWrites = [1, 6] ∧ (oneDue 8 none).dev.i2cWrites = [1] ∧ (oneDue 247 none).dev.i2cReads = [1] ∧
    left (.i2cWritePhase [e]) (oneDue 8 none) (fun d => (d.sense.i2c[(1 : Fin 8)]).writeFail) = some (some 3) ∧
    left (.i2cWritePhase [{ e with code := 0 }]) (oneDue 8 none) (fun d => (d.sense.i2c[(1 : Fin 8)]).wire) =
      some [.start, .tx 0x54, .tx 0xA5, .stop] ∧
    left (.i2cWritePhase [e, e]) (sensing 119 none) (fun d => ((d.sense.i2c[(1 : Fin 8)]).writeFail,
      (d.sense.i2c[(6 : Fin 8)]).writeFail, d.sense.stuck)) = some (some 3, some 5, 1) ∧
    left (.i2cReadPhase [{ e with code := 0 }]) (oneDue 247 none) (fun d => (d.sense.i2c[(1 : Fin 8)]).outcome) = some (some (0, [9])) ∧
    left (.i2cReadPhase [e]) (oneDue 128 (some 2)) (fun d => (d.sense.i2c[(1 : Fin 8)]).outcome) = some (some (2, [])) ∧
    ((sensing 8 none).dev.image.i2c 6).isSome = true ∧
    left (.i2cTimeout 6 false 1) (sensing 8 none) (fun d => ((d.sense.i2c[(6 : Fin 8)]).writeFail, d.sense.timeout)) = some (some 4, 1) ∧
    left (.i2cTimeout 6 true 0) (sensing 128 none) (fun d => (d.sense.i2c[(6 : Fin 8)]).outcome) = some (some (4, [])) := by
  dsimp only
  repeat' apply And.intro
  all_goals decide +kernel

/-! ## The Hefen Line -/

/-- A node of network 7 at address 3 whose Line is ready and has a key. -/
def lined (f : LineState → LineState) : State := on fun d =>
  let d := allOn d
  { d with
    sys := { d.sys with mode := .run, boot := .done }
    image := { d.image with lineEn := true }
    time := { d.time with count := 100, wm := 64 }
    line := f { d.line with key := [1] ++ List.replicate 15 0, joined := true, quiet := some 0, parent := some 1
                            params := { d.line.params with netId := 7, addr := 3 } } }

/-- A tone preamble of 1/4 dBµV times `rssi` on the coupled input, which starts a frame of one octet. -/
def tone (rssi : Nat) : PreambleEnv :=
  { tone := true, inputs := [{ rssi, snr := List.replicate 4 160 }], first := 1000000, mark := 13000000, header := [], toneLen := 1 }

/-- A reception in progress, which ends at 29 ms. -/
def receiving : RxProgress :=
  { mode := .tone, tmid := 0, len := 1, codes := [], classB := false, inputs := [(0, List.replicate 40 16)], rssi := 80
    start := 1000000, mark := 13000000, copy := false, other := none }

/-- A robust reception whose burst 0 began at the start of milestone 100, so that burst 1 is expected 10 ms later. -/
def robustHeard : RxProgress :=
  { receiving with mode := .rob4, len := 20, codes := map0.codes, classB := true, start := 2000000000, mark := 2002560000 }

/-- A carrier preamble at an instant, whose banner is not decoded. -/
def carrierAt (first : Nat) : PreambleEnv := { tone 80 with tone := false, first, mark := first + 2560000 }

/-- LineMediumFollowed: capture at exactly 8.00 dB, and one step of the report below it; a preamble as the frame ends; the second
header at both ends of its search, and one ns outside. -/
theorem witness_lineMediumFollowed :
    let s := lined id
    let c := { (lined fun l => { l with cfgPend := some 0x00400701 }) with pending := [] }
    let c0 := { c with dev := { c.dev with time := { c.dev.time with wm := 0 } } }
    let r := lined fun l => { l with rx := some receiving }
    let b := lined fun l => { l with rx := some robustHeard }
    let search := fun (t : Nat) => left (.preambleDetect (carrierAt t)) b (fun d => d.line.rx.map (·.other))
    Logged s.dev ∧ s.dev.rxReady = true ∧ s.dev.line.busyUntil ≤ 5 ∧ s.dev.line.tx = none ∧ c0.dev.line.rx = none ∧
    left .phyCfgApply c0 (fun d => (d.line.cfg, d.line.cfgPend)) = some (0x00400701, none) ∧
    left (.carrierDetect 5 44) s (fun d => (d.line.noise, d.line.carrierAt)) = some (44, some 5) ∧
    left .bandInUse s (fun d => d.line.bandUse) = some true ∧ left .bandNotInUse s (fun d => d.line.bandUse) = some false ∧
    left (.preambleDetect (tone 80)) s (fun d => (d.line.rx.map (·.rssi), d.line.busyUntil)) = some (some 80, 29000000) ∧
    r.dev.line.rx.map r.dev.rxEnds = some 29000000 ∧
    left (.preambleDetect { tone 0 with first := 29000000 }) r (fun d => d.line.rx.map (·.rssi)) = some (some 0) ∧
    r.dev.line.rx.map r.dev.rxLast = some 28000000 ∧
    left (.preambleDetect (tone 112)) r (fun d => (d.line.rx.map (·.rssi), d.line.captured)) = some (some 112, 1) ∧
    left (.preambleDetect (tone 111)) r (fun d => (d.line.rx.map (·.rssi), d.line.captured)) = some (some 80, 0) ∧
    b.dev.plusWm robustHeard.start 128 = 2010000000 ∧
    search 2009850000 = some (some (some (2009850000, false))) ∧ search 2010150000 = some (some (some (2010150000, false))) ∧
    search 2010150001 = some (some none) := by
  refine ⟨rfl, ?_⟩
  repeat' apply And.intro
  all_goals decide +kernel

/-- A PROBE to neighbour 5, queued at 0. -/
def aProbe : QFrame := toNeighbour (lined id).dev 11 1 .tone 5 []

/-- A frame of this node on air that asks for an ACK. -/
def onAir : TxFrame :=
  { frame := { aProbe with ackreq := true }, lseq := 9, mode := .tone, tmid := 0, bytes := [], first := 0, ends := 50, ackBy := 90, bursts := [] }

/-- FramesSent: frame start 2 with a quiet medium and a busy one, and the end of a frame. -/
theorem witness_framesSent :
    let s := lined fun l => { l with queue := [aProbe] }
    let b := lined fun l => { l with queue := [aProbe], bandUse := true }
    let t := lined fun l => { l with tx := some onAir }
    s.dev.lineSilent = false ∧ s.dev.line.rep = none ∧ s.dev.dueConvoy 2 = none ∧
    s.dev.dueQueued 2 3 = some { frame := aProbe, slot := 11, kind := 0 } ∧ s.dev.busyAt (s.dev.wmStart 64) = false ∧
    b.dev.busyAt (b.dev.wmStart 64) = true ∧ Logged t.dev ∧
    left (.frameStart 2 3 none) s (fun d => (d.line.lseq, d.line.queue.length, d.line.tx.map (fun t => (t.lseq, t.first)))) =
      some (1, 0, some (1, 5000000 + 903333 + 50000)) ∧
    left (.frameStart 2 3 none) b (fun d => (d.line.txDefer, d.line.queue.length)) = some (1, 1) ∧
    left .frameSent t (fun d => (d.line.tx, d.line.txFrames, d.line.awaits.map (·.lseq), d.line.ownEnd)) =
      some (none, 1, [9], some 50) := by
  repeat' apply And.intro
  all_goals first | decide +kernel | rfl

/-- A MAC frame of node 5 for node `dst`, or for every neighbour: the header of Table 13.2 with LSEQ 50, then the body and its
integrity code as AES-128-CCM gives them under the network key 1 (R382, R383; computed outside this model). -/
def sealed (ftype : Nat) (bcast : Bool) (osrc dst : Nat) (rest : List Byte) : List Byte :=
  let target := if bcast then 0xFFF else dst
  leBytes 1 (ftype + 16 * b2n bcast) ++ [1, 7, 0] ++ leBytes 3 (5 + 4096 * target) ++ leBytes 3 (osrc + 4096 * target) ++
    [1, 0, 50, 0, 0, 0] ++ rest

/-- The end of a frame of these bytes that arrives undisturbed, every carrier at 15.0 dB: the tones of R348 and R349 up to 32 bytes,
else DBPSK symbols on the fixed tone map. -/
def arriving (bs : List Byte) : RxEnd :=
  let check := leBytes 2 (crc16 (BitVec.ofNat 8 bs.length :: bs))
  { tones := ((bs ++ check).flatMap toneByte).map (fun t => [(upTo 4).map (fun x => if x = t then 1 else 0)])
    syms := Laws.clearSyms bs, bursts := [], snr := List.replicate 40 30, src := 5 }

/-- The state in which that frame is being received since ns 0, its timing mark at `mark`. -/
def hearingAt (mark : Nat) (bs : List Byte) (s : State) : State :=
  let r : RxProgress :=
    { mode := if bs.length ≤ 32 then .tone else .normal, tmid := 0, len := bs.length, codes := map0.codes, classB := false
      inputs := Laws.oneInput, rssi := 200, start := 0, mark, copy := false, other := none }
  { s with dev := { s.dev with line := { s.dev.line with rx := some r } } }

/-- The same with its mark at 0. -/
def hearing (bs : List Byte) (s : State) : State := hearingAt 0 bs s

/-- The report of a carrier frame so heard. -/
def carrierReport (bs : List Byte) (s : State) : RxFrame :=
  (hearing bs s).dev.reportOf
    { mode := .normal, tmid := 0, len := bs.length, codes := map0.codes, classB := false, inputs := Laws.oneInput, rssi := 200
      start := 0, mark := 0, copy := false, other := none } (arriving bs) bs

/-- What its delivery leaves. -/
def carrierHeard (bs : List Byte) (s : State) : Dev :=
  ((hearing bs s).dev.onLine fun l => { l with rx := none }).onLine fun l => l.countGood (carrierReport bs s)

/-- A carrier frame that arrives undisturbed is delivered. -/
theorem received_carrier (bs : List Byte) (s : State) (h : 32 < bs.length) (h2 : bs.length < 235) (hr : s.dev.rxReady = true) :
    (hearing bs s).dev.received (arriving bs) = (carrierHeard bs s, some (carrierReport bs s)) := by
  have hm : (if bs.length ≤ 32 then LineMode.tone else .normal) = .normal := if_neg (by omega)
  have hd : ∀ (d : Dev) (r : RxProgress), r.mode = .normal → r.len = bs.length → r.inputs = Laws.oneInput → r.codes = map0.codes →
      d.decodeRx r (arriving bs) = some bs := by
    intro d r h1 h3 h4 h5
    simp only [Dev.decodeRx, h1, h3, h4, h5, arriving]
    exact Laws.carrierPayload_clear bs h2
  have hq : (!(hearing bs s).dev.rxReady) = false := by
    rw [show (hearing bs s).dev.rxReady = s.dev.rxReady from rfl, hr]; rfl
  simp only [Dev.received, carrierHeard, carrierReport, hearing, hearingAt, hm] at hq ⊢
  simp only [hq, hd, Bool.false_eq_true, if_false]

/-- The body that a frame is heard with. -/
def heardBody (s : State) (ftype : Nat) (bs : List Byte) : Option (List Byte) :=
  ((hearing bs s).dev.receive ftype (arriving bs)).2.map (·.2.body)

/-- What a command leaves, by what it does to the device. -/
theorem left_act {α : Type} (i : Instr) (s : State) (f : Dev → Dev) (g : Dev → α) (h : exec i s = s.act f) (hp : s.pending = []) :
    left i s g = some (g (Dev.settle s.dev (f s.dev).logFlush)) := by
  simp [left, after, h, State.act, hp]

/-- An ACK of LSEQ 9. -/
def ackF : List Byte := sealed 3 false 5 3 (leBytes 12 0xDE62F5C6C2645C75B044E2E5)

/-- A MAP_ASK. -/
def askF : List Byte := sealed 4 false 5 3 (leBytes 8 0x56873A24D792E5C2)

/-- A MAP_OFFER of TMID 7, with carriers 0 to 9 at code 1 and carrier 39 at code 3. -/
def offerF : List Byte := sealed 5 false 5 3 (leBytes 19 0x70110067851B5692B928031E7EC6DF32925746)

/-- A JOIN_REQ of node 9 with UID 0x1122_3344_5566_7788 and HOP 2. -/
def joinF : List Byte := sealed 6 false 9 0 (leBytes 20 0x105DFD8C22D8BBE6F2B52B2A4A4F5B293E206510)

/-- A PROBE. -/
def probeF : List Byte := sealed 11 false 5 3 (leBytes 8 0x5558C802031AC3E)

/-- The frame of `onAir` awaits its ACK from node 5. -/
def awaiting : State := lined fun l => { l with awaits := [{ lseq := 9, deadline := 90, frame := { aProbe with step := 2 } }] }

/-- UnicastFramesTakeEffect, ACK: the frame that it names is awaited no more. -/
theorem witness_ackFrame :
    heardBody awaiting 3 ackF = some [9, 0, 0, 0] ∧
    left (.ackFrame (arriving ackF)) (hearing ackF awaiting) (fun d => d.line.awaits.length) = some 0 := by
  refine ⟨?_, ?_⟩
  all_goals decide +kernel

/-- UnicastFramesTakeEffect, MAP_ASK. -/
theorem witness_mapAsk :
    let s := lined id
    let d1 := ((hearing askF s).dev.receive 4 (arriving askF)).1
    heardBody s 4 askF = some [] ∧ 10 ≤ mapOn (codesFromSnr (List.replicate 40 30)) ∧
    Fits d1 (toNeighbour d1 5 1 .rob4 5 ((1 : Byte) :: leBytes 10 (4 ^ 40 - 1))) ∧
    left (.mapAsk (arriving askF)) (hearing askF s) (fun d => (d.line.queue.map (fun q => (q.ftype, q.body)),
      d.line.neigh.map (fun n => n.issued.map (·.tmid)))) =
      some ([(5, 1 :: List.replicate 10 0xFF)], [some 1]) := by
  dsimp only [Fits]
  repeat' apply And.intro
  all_goals decide +kernel

/-- UnicastFramesTakeEffect, MAP_OFFER. -/
theorem witness_mapOffer :
    let body := (7 : Byte) :: leBytes 10 (0x55555 + 4 ^ 39 * 3)
    heardBody (lined id) 5 offerF = some body ∧ (offeredMap body).tmid ≠ 0 ∧ 10 ≤ mapOn (offeredMap body).codes ∧
    left (.mapOffer (arriving offerF)) (hearing offerF (lined id)) (fun d => d.line.neigh.map (fun n =>
      (n.step, n.mapTo.map (fun m => (m.tmid, m.codes.drop 9 == [1] ++ List.replicate 29 0 ++ [3]))))) =
      some [(1, some (7, true))] := by
  have h := received_carrier offerF (lined id) (by decide) (by decide) (by decide +kernel)
  refine ⟨?_, by decide +kernel, by decide +kernel, ?_⟩
  · rw [heardBody, Dev.receive, h]; decide +kernel
  · rw [left_act _ _ (fun d => d.rxMapOffer (arriving offerF)) _ rfl rfl, Dev.rxMapOffer, Dev.receive, h]; decide +kernel

/-- The junction of the network, with no member yet. -/
def junctionNode : State :=
  let s := lined fun l => { l with params := { l.params with netId := 7, addr := 0 } }
  { s with dev := { s.dev with sys := { s.dev.sys with role := 3 }, image := { s.dev.image with role := 3 } } }

/-- UnicastFramesTakeEffect, JOIN_REQ; the answer's link has no map yet (R390). -/
theorem witness_joinReq :
    let body := leBytes 8 0x1122334455667788 ++ [0, 2, 0, 0]
    heardBody junctionNode 6 joinF = some body ∧ junctionNode.dev.junction = true ∧ junctionNode.dev.line.members = [] ∧
    frameNs .rob4 map0.codes junctionNode.dev.classB 33 junctionNode.dev.time.msLen ≤ 1000000000 ∧
    left (.joinReq (arriving joinF)) (hearing joinF junctionNode) (fun d => (d.line.members.map (fun m => (m.addr, m.uid, m.hop)),
      d.line.queue.map (fun q => (q.ftype, q.fdst, q.body)))) =
      some ([(9, 0x1122334455667788, 2)], [(4, 9, []), (7, 9, leBytes 8 0x1122334455667788 ++ [0])]) := by
  have h := received_carrier joinF junctionNode (by decide) (by decide) (by decide +kernel)
  refine ⟨?_, by decide +kernel, by decide +kernel, by decide +kernel, ?_⟩
  · rw [heardBody, Dev.receive, h]; decide +kernel
  · rw [left_act _ _ (fun d => d.rxJoinReq (arriving joinF)) _ rfl rfl, Dev.rxJoinReq, Dev.receive, h]; decide +kernel

/-- UnicastFramesTakeEffect, PROBE: a reply to an own probe, and a probe that is returned. -/
theorem witness_probe :
    let p := lined fun l => { l with probe := 1, probeDst := 5 }
    let d1 := ((hearing probeF (lined id)).dev.receive 11 (arriving probeF)).1
    heardBody p 11 probeF = some [] ∧
    left (.probe (arriving probeF)) (hearing probeF p) (fun d => (d.line.probe, d.line.probeRssi)) = some (2, 200) ∧
    Fits d1 { toNeighbour d1 11 1 .tone 5 [] with due := 122000000 } ∧
    left (.probe (arriving probeF)) (hearing probeF (lined id)) (fun d => d.line.queue.map (fun q => (q.ftype, q.ldst, q.due))) =
      some [(11, 5, 122000000)] := by
  dsimp only [Fits]
  repeat' apply And.intro
  all_goals decide +kernel

/-- The body of a JOIN_ACC for this part with response `code`. -/
def accBody (code : Byte) : List Byte := leBytes 8 Config.uid.toNat ++ [code]

/-- The header of a JOIN_ACC from node 5, sent by the junction, for node 3. -/
def accHeader : List Byte := [7, 1, 7, 0] ++ leBytes 3 (5 + 4096 * 3) ++ leBytes 3 (4096 * 3) ++ [1, 0, 50, 0, 0, 0]

/-- The network key of `lined`. -/
def key1 : List Byte := [1] ++ List.replicate 15 0

/-- A JOIN_ACC as it is sealed for this part. -/
def accF (code : Byte) : List Byte :=
  accHeader ++ ((ccmSeal key1 [7, 0, 5, 0, 50, 0, 0, 0, 7, 0, 0, 0, 0] accHeader (accBody code)).1 ++
    (ccmSeal key1 [7, 0, 5, 0, 50, 0, 0, 0, 7, 0, 0, 0, 0] accHeader (accBody code)).2)

/-- Its header as it is read. -/
def accMac : Mac :=
  { ftype := 7, bcast := false, ackreq := false, linkKey := false, hop := 1, netId := 7, lsrc := 5, ldst := 3, osrc := 0
    fdst := 3, eseq := 1, lseq := 50, sr := none, body := [] }

/-- UnicastFramesTakeEffect, JOIN_ACC: both responses are heard with this part's UID. -/
theorem witness_joinAcc (code : Byte) (h : code ≤ 1) :
    ∃ d1 f m, (hearing (accF code) (lined id)).dev.receive 7 (arriving (accF code)) = (d1, some (f, m)) ∧ m.body.length = 9 ∧
      leAt m.body 0 8 = Config.uid.toNat ∧ byteAt m.body 8 = code.toNat ∧ code.toNat ≤ 1 := by
  have hk : ((aesRoundKeys key1).getD 10 []).length = 16 := by decide +kernel
  have hb : (accBody code).length = 9 := rfl
  have h0 : accBody code ≠ [] := by simp [accBody]
  have ho := Laws.ccmOpen_ccmSeal key1 [7, 0, 5, 0, 50, 0, 0, 0, 7, 0, 0, 0, 0] accHeader (accBody code) hk h0 (by omega)
  have hl := Laws.ccmSeal_length key1 [7, 0, 5, 0, 50, 0, 0, 0, 7, 0, 0, 0, 0] accHeader (accBody code) hk h0 (by omega)
  unfold accF
  generalize ccmSeal key1 [7, 0, 5, 0, 50, 0, 0, 0, 7, 0, 0, 0, 0] accHeader (accBody code) = ct at ho hl ⊢
  obtain ⟨c, t⟩ := ct
  obtain ⟨h1, h2⟩ := hl
  rw [hb] at h1
  have hr : (accHeader ++ (c ++ t)).length = 33 := by
    simp only [List.length_append, show accHeader.length = 16 by decide, h1, h2]
  have hp : parseMac (accHeader ++ (c ++ t)) = some (accMac, c ++ t) := by
    have hl : accHeader.length = 16 := by decide
    have h0 : byteAt accHeader 0 = 7 := by decide
    have hs : bitOf 7 7 = false := by decide
    have hb0 : bitOf 7 4 = false := by decide
    unfold parseMac
    simp only [Laws.byteAt_append accHeader (c ++ t) 0 (by decide), Laws.byteAt_append accHeader (c ++ t) 1 (by decide),
      Laws.leAt_append accHeader (c ++ t) 4 3 (by decide), Laws.leAt_append accHeader (c ++ t) 7 3 (by decide),
      Laws.leAt_append accHeader (c ++ t) 2 2 (by decide), Laws.leAt_append accHeader (c ++ t) 10 2 (by decide),
      Laws.leAt_append accHeader (c ++ t) 12 4 (by decide), h0, hs, hb0, hr, if_false, Bool.false_eq_true, Bool.false_and]
    rw [if_neg (by decide), if_neg (by decide), List.drop_left' hl]
    rfl
  have hq : (lined id).dev.line.neighbour accMac.lsrc = none := by decide +kernel
  have hn : (c ++ t).length - 8 = c.length := by simp [h2]
  have hrec := received_carrier (accHeader ++ (c ++ t)) (lined id) (by omega) (by omega) (by decide +kernel)
  obtain ⟨d1, hd⟩ := Laws.deliver_accepts (d := carrierHeard (accHeader ++ (c ++ t)) (lined id)) (ft := 7) (m := accMac)
    (f := carrierReport (accHeader ++ (c ++ t)) (lined id)) (rest := c ++ t) (body := accBody code)
    rfl hp rfl rfl (.inr rfl) (by rw [hn, List.take_left, List.drop_left]; exact ho)
    (fun x h hx => absurd (hx.symm.trans hq) nofun) (.inr rfl)
  refine ⟨d1, _, _, Laws.receive_of_deliver hrec hd, rfl, ?_, rfl, h⟩
  rw [accBody, Laws.leAt_leBytes, Nat.mod_eq_of_lt (by exact Config.uid.isLt)]

/-- `lined` with a network offset, the milestone before it on record, and groups 2 (courier) and 3 (convoy, every fourth
milestone) of producer 5 (R404). -/
def networked (ofs : BitVec 48) : State :=
  let s := lined id
  let head := fun (kind e : Byte) => [kind, e, 0, 0, 1, 4] ++ List.replicate 10 0 ++ [5, 0] ++ List.replicate 126 0
  { s with dev := { s.dev with
    time := { s.dev.time with
      netValid := true, netOfs := ofs, starts := [2000000000, 1980000000] }
    sys := { s.dev.sys with hostSel := 2 }
    image := { s.dev.image with
      scripts := [{ key := 0x402, pot := 0, offset := 0, data := head 0 2 }, { key := 0x403, pot := 0, offset := 0, data := head 1 2 }] } } }

/-- A beacon of milestone 1,000 from frame start 0, its network locked (computed as `sealed`). -/
def beaconF : List Byte := leBytes 19 0x3322E571F2004659000000000003E800070101

/-- NetworkFramesTakeEffect, BEACON: its sender's milestone began 12.11 ms before its tone mark (R394); half a milestone later is
the next one. -/
theorem witness_beacon :
    let s := hearing beaconF (lined id)
    s.dev.line.key.all (· == 0) = false ∧ s.dev.junction = false ∧
    (s.dev.received (arriving beaconF)).2.map (·.bytes) = some beaconF ∧
    (parseBeacon beaconF).map (fun b => (b.netId, b.ms, b.fstart, b.locked)) = some (7, 1000, 0, true) ∧
    ([12110000, 22109938, 22110000].map fun t => left (.beacon (arriving beaconF)) (hearingAt t beaconF (lined id))
      (fun d => (d.time.netValid, d.time.netOfs, d.time.beacon))) =
      [some (true, 900, true), some (true, 900, true), some (true, 899, true)] := by
  dsimp only
  repeat' apply And.intro
  all_goals decide +kernel

/-- A TIME frame of the junction: milestone 1,000 at SI time 5,000,000 µs. -/
def timeF : List Byte :=
  leBytes 16 0x320001FFF000FFF00500070112 ++ leBytes 22 0x254488EFEC51E523FD45C08F58B96795486C9B9D41C6

/-- A COURIER frame of group 2: PSEQ 1, value 77. -/
def courierF : List Byte := leBytes 16 0x320001FFF005FFF00500070118 ++ leBytes 15 0x5CD425694BDE530E7B4867824218C8

/-- A CONVOY frame stamped 1,100 with group 3: value 88. -/
def convoyF : List Byte := leBytes 16 0x320001FFF005FFF00500070119 ++ leBytes 15 0xDB2A41FF0889D1449EFED9A1A8F22B

/-- NetworkFramesTakeEffect, TIME: the milestone before the present one. -/
theorem witness_timeFrame :
    let t := networked 901
    (heardBody t 2 timeF).map (·.length) = some 14 ∧ t.dev.junction = false ∧ t.dev.time.netValid = true ∧
    left (.timeFrame (arriving timeF)) (hearing timeF t) (fun d => (d.time.siValid, d.time.siOfs)) =
      some (true, 5000000 - 1980000) := by
  have h := received_carrier timeF (networked 901) (by decide) (by decide) (by decide +kernel)
  refine ⟨?_, by decide +kernel, by decide +kernel, ?_⟩
  · rw [heardBody, Dev.receive, h]; decide +kernel
  · rw [left_act _ _ (fun d => d.rxTime (arriving timeF)) _ rfl rfl, Dev.rxTime, Dev.receive, h]; decide +kernel

/-- NetworkFramesTakeEffect, COURIER and CONVOY. -/
theorem witness_groupFrames :
    let g := networked 1000
    heardBody g 8 courierF = some (2 :: leBytes 2 1 ++ leBytes 4 77) ∧
    (g.dev.image.group 2).map (fun x => (x.convoy, x.elemsOf 5)) = some (false, [0]) ∧
    left (.courier (arriving courierF)) (hearing courierF g) (fun d => d.line.courierIn) = some [(2, 5, 1, [77])] ∧
    heardBody g 9 convoyF = some (leBytes 2 1100 ++ 3 :: leBytes 4 88) ∧
    (g.dev.image.group 3).map (fun x => (x.convoy, x.elemsOf 5, x.nextDue g.dev.netMs)) = some (true, [0], 1100) ∧
    left (.convoy (arriving convoyF)) (hearing convoyF g) (fun d => d.line.convoyIn) = some [(3, 5, 1100, [88])] := by
  dsimp only
  repeat' apply And.intro
  all_goals decide +kernel

/-- A TUNNEL frame of the junction on channel 5 with a TAKE, SEQ 0x10, whose CRC-16 is 0x831C. -/
def takeF : List Byte :=
  leBytes 16 0x3200010030000030050007010A ++ leBytes 19 0x195C4096B54BE967561FDCA75FD235F2AE33B2

/-- A TUNNEL frame of the junction that closes channel 5. -/
def closeF : List Byte := leBytes 16 0x3200010030000030050007010A ++ leBytes 10 0xF99CF97687BF972C31B2

/-- The seat is held over channel 5. -/
def heldRemotely : State :=
  let s := networked 1000
  { s with dev := { s.dev with seat := { s.dev.seat with holder := .remote 5, heard := 0 } } }

/-- What a request meets beside its frame. -/
def seatEnv : SeatEnv := { frac := 0, finds := [], words := 0, nonce := 0 }

/-- NetworkFramesTakeEffect, TUNNEL: a TAKE through the tunnel, whose answer has no tone map yet (R390). -/
theorem witness_tunnelRequest :
    let s := networked 1000
    (heardBody s 10 takeF).map (fun b => (b.take 2, (parseRequest (b.drop 2)).map (fun p => (p.1, p.2.seq, p.2.crcOk)))) =
      some ([5, 1], some (2, 0x10, true)) ∧
    left (.tunnel (arriving takeF) seatEnv) (hearing takeF s) (fun d => (d.seat.holder, d.seat.e)) = some (.remote 5, 0x11) ∧
    left (.tunnel (arriving takeF) seatEnv) (hearing takeF s) (fun d =>
      d.line.queue.map (fun q => (q.ftype, q.fdst, q.body.take 4))) = some [(4, 1, []), (10, 0, [5, 2, 0x5A, 0])] := by
  have h := received_carrier takeF (networked 1000) (by decide) (by decide) (by decide +kernel)
  refine ⟨?_, ?_, ?_⟩
  · rw [heardBody, Dev.receive, h]; decide +kernel
  · rw [left_act _ _ (fun d => d.rxTunnel (arriving takeF) seatEnv) _ rfl rfl, Dev.rxTunnel, Dev.receive, h]; decide +kernel
  · rw [left_act _ _ (fun d => d.rxTunnel (arriving takeF) seatEnv) _ rfl rfl, Dev.rxTunnel, Dev.receive, h]; decide +kernel

/-- NetworkFramesTakeEffect, TUNNEL: a close by the junction. -/
theorem witness_tunnelClosed :
    heardBody heldRemotely 10 closeF = some [5, 3] ∧ heldRemotely.dev.seat.holder = .remote 5 ∧
    left (.tunnel (arriving closeF) seatEnv) (hearing closeF heldRemotely) (fun d => d.seat.holder) = some .free := by
  repeat' apply And.intro
  all_goals decide +kernel

/-- A frame of `lined` awaits its ACK since milestone 0, on a step of the ladder, from its parent or a child. -/
def unanswered (step dst : Nat) : State := lined fun l => { l with
  parent := some dst
  awaits := [{ lseq := 9, deadline := 0, frame := { aProbe with step } }]
  neigh := [{ (l.neighbour 5).getD (Neighbour.fresh 5 0) with mapTo := some map0 }] }

/-- LineTimesOut: the last step of the ladder and the one before it, and a tone map that has just aged. -/
theorem witness_ackTimesOut :
    let s := unanswered 3 1
    let t := unanswered 4 1
    Logged s.dev ∧ Logged t.dev ∧ Fits s.dev { aProbe with step := 4 } ∧
    left (.ackTimeout 9) s (fun d => (d.line.awaits.length, d.line.queue.map (·.step), d.line.ackFail)) = some (0, [4], 0) ∧
    left (.ackTimeout 9) t (fun d => (d.line.awaits.length, d.line.queue.length, d.line.ackFail)) = some (0, 0, 1) ∧
    left (.ackTimeout 9) t (fun d => d.line.neigh.map (fun n => n.mapTo.isSome)) = some [false] ∧
    t.dev.line.refreshUs = 120000000 := by
  dsimp only [Fits, Logged]
  repeat' apply And.intro
  all_goals decide +kernel

/-- A node whose only neighbour gave it a map at SI time 0, at SI time `si`. -/
def mapAged (si : Nat) : State :=
  let s := unanswered 4 1
  { s with dev := { s.dev with time := { s.dev.time with now := si * 1000 } } }

/-- LineTimesOut: a map of 120 s is refreshed, and no sooner. -/
theorem witness_mapRefresh :
    Fits (mapAged 120000000).dev (toNeighbour (mapAged 120000000).dev 4 1 .rob4 5 []) ∧
    ([119999999, 120000000].map fun si => left (.mapRefresh 5) (mapAged si) (fun d => d.line.queue.map (fun q => (q.ftype, q.ldst)))) =
      [some [], some [(4, 5)]] := by
  dsimp only [Fits]
  repeat' apply And.intro
  all_goals decide +kernel

/-- LineTimesOut: the JOIN_REQ of milestone 100, a probe and its last milestone of waiting, a member's entry freed, and group 2,
stale four periods of four milestones after producer 5 was last applied. -/
theorem witness_lineTimes :
    let j := lined fun l => { l with joined := false, joinNext := 100 }
    let p := lined fun l => { l with probe := 1, probeAt := 84 }
    let jn := lined fun l => { l with
      params := { l.params with addr := 0 }
      members := [{ addr := 9, uid := 1, path := [], hop := 1, heard := 0 }] }
    let jn := { jn with dev := { jn.dev with sys := { jn.dev.sys with role := 3 }, image := { jn.dev.image with role := 3 } } }
    let g := networked 1000
    let g := { g with dev := { g.dev with line := { g.dev.line with lastFrom := [((2, 5), 84)] } } }
    j.dev.junction = false ∧ j.dev.lineSilent = false ∧
    frameNs .rob4 map0.codes j.dev.classB 36 j.dev.time.msLen ≤ 1000000000 ∧
    left .joinRetry j (fun d => (d.line.joinNext, d.line.queue.map (fun q => (q.ftype, q.ldst, q.body.length)))) =
      some (164, [(4, 1, 0), (6, 1, 12)]) ∧
    Fits (lined id).dev aProbe ∧
    left (.probeGo 5) (lined id) (fun d => (d.line.probe, d.line.probeDst, d.line.probeAt, d.line.queue.length)) = some (1, 5, 100, 1) ∧
    left .probeTimeout p (fun d => d.line.probe) = some 3 ∧ jn.dev.junction = true ∧
    left (.jclr 9) jn (fun d => d.line.members.length) = some 0 ∧
    left (.courierStale 2 5) g (fun d => d.cycle.stale) = some [64 * 0x102] := by
  dsimp only [Fits]
  repeat' apply And.intro
  all_goals decide +kernel

/-- Eight byte errors of a codeword are corrected (R354, R366). -/
theorem test_rs_eight_errors :
    let data : List Byte := [0x48, 0x5A, 0x42, 1]
    let flip := fun (n : Nat) => ((data ++ rsParity data).zipIdx.map (fun p => if p.2 < n then p.1 ^^^ (0x55 : Byte) else p.1))
    rsDecode (flip 8) = some data ∧ rsDecode (flip 9) = none := by
  dsimp only
  refine ⟨?_, ?_⟩ <;> decide +kernel

/-- Two coded bits of a stream received with the wrong sign, six pairs apart, are corrected (R355, R366). -/
theorem test_viterbi_corrects :
    let l := [true, false, true, true, false, false, true, false]
    decodeStream ((codedBits l).zipIdx.map (fun p => if (p.1 ^^ (p.2 == 2 || p.2 == 15)) then 4 else -4)) = l := by
  decide +kernel
/-! ## The host seat -/

/-- A request frame of the local host whose CRC holds. -/
def asks (addr len seq : Nat) (payload : List Byte) : SeatReq :=
  { addr := BitVec.ofNat 24 addr, len := BitVec.ofNat 16 len, seq := BitVec.ofNat 8 seq, payload, crcOk := true }

/-- A device in RUN at milestone 100 with both seats allowed. -/
def seated (f : SeatState → SeatState) : State := on fun d =>
  let d := allOn d
  { d with
    sys := { d.sys with mode := .run, boot := .done, hostSel := 3 }
    time := { d.time with count := 100 }
    seat := f d.seat }

/-- The local host holds the seat and its next SEQ is 8. -/
def held (f : SeatState → SeatState) : State := seated fun x => f { x with holder := .spi, e := 8 }

/-- What the seat answered last: STATUS, SEQ and the payload. -/
def said (d : Dev) : Option (Nat × BitVec 8 × List Byte) := d.seat.last.map (fun a => (a.status, a.seq, a.payload))

/-- SeatTakenAndLeft: byte 14 of IDENTIFY to the holder of an estranged seat (14), TAKE, RELEASE, RESET and 3,000 silent milestones. -/
theorem witness_seatTakenAndLeft :
    let e := held fun x => { x with estr := true }
    let no := seated id
    let no := { no with dev := { no.dev with sys := { no.dev.sys with hostSel := 2 } } }
    let r := seated fun x => { x with holder := .remote 3, heard := 0 }
    let r := { r with dev := { r.dev with time := { r.dev.time with count := 3000 } } }
    left (.identify (asks 0 0 1 [])) e (fun d => d.seat.last.map (fun a => a.payload.drop 13)) = some (some [0x32, 0x19, 0]) ∧
    (seated id).dev.seat.holder = .free ∧ (seated id).dev.seat.estr = false ∧
    left (.take (asks 0 0 7 [])) (seated id) (fun d => (d.seat.holder, d.seat.e, said d)) = some (.spi, 8, some (0, 7, [])) ∧
    left (.take (asks 0 0 7 [])) no said = some (some (2, 7, [])) ∧
    left (.release (asks 0 0 8 [])) (held id) (fun d => (d.seat.holder, said d)) = some (.free, some (0, 8, [])) ∧
    ([1, 2].map fun k => left (.seatReset (asks 0 1 0 [k])) (held id) (fun d => d.sys.pendResets.map (fun p => (p.source, p.kind)))) =
      [some [(4, .warm)], some [(5, .cold)]] ∧
    left .csNEarlyRise (held id) (fun d => d.seat.e) = some 8 ∧
    left .seatIdleFree r (fun d => (d.seat.holder, d.seat.idleFree)) = some (.free, 1) := by
  dsimp only
  repeat' apply And.intro
  all_goals first | decide +kernel | rfl

/-- RequestsGuardedBySequence, with a CHALLENGE: PD1 off, a bad CRC, start-up, an estranged seat, a host without it, a repeat of the last
request, a repeat with another CRC, and a SEQ too high. -/
theorem witness_guards :
    let q := asks 0 0 8 []
    let again := asks 0 0 7 []
    let kept := held fun x => { x with stored := some { crc := again.crc 0x20, resp := answerTo again 2 [] } }
    let other := held fun x => { x with stored := some { crc := again.crc 0x20 ^^^ 1, resp := answerTo again 2 [] } }
    let busy := held id
    let busy := { busy with dev := { busy.dev with sys := { busy.dev.sys with boot := .wait, progress := 0x42 } } }
    let dark := held id
    let dark := { dark with dev := { dark.dev with power := { dark.dev.power with on := 0, ready := 0 } } }
    dark.dev.pd 1 = false ∧ left (.challenge q seatEnv) dark (fun d => (d.seat.e, said d)) = some (8, none) ∧
    left (.challenge { q with crcOk := false } seatEnv) (held id) (fun d => (d.seat.badCrc, said d)) = some (1, some (3, 8, [])) ∧
    left (.challenge q seatEnv) busy said = some (some (1, 8, [0x42])) ∧
    left (.challenge q seatEnv) (held fun x => { x with estr := true }) said = some (some (5, 8, [])) ∧
    left (.challenge q seatEnv) (seated id) said = some (some (2, 8, [])) ∧
    left (.challenge again seatEnv) kept (fun d => (d.seat.e, said d)) = some (8, some (2, 7, [])) ∧
    left (.challenge again seatEnv) other (fun d => (d.seat.badSeq, said d)) = some (1, some (4, 7, [])) ∧
    left (.challenge (asks 0 0 9 []) seatEnv) (held id) (fun d => (d.seat.estr, said d)) = some (true, some (4, 9, [])) := by
  dsimp only
  repeat' apply And.intro
  all_goals decide +kernel

/-- SeatReadsAndWrites at the edges of the worktop and of its payload: SYS.ID, the last bytes of the window, and writes. -/
theorem witness_seatReadsAndWrites :
    let p := held fun x => { x with priv := true }
    let toll := { p with dev := { p.dev with sys := { p.dev.sys with mode := .tollgate } } }
    NextOfHolder p.dev (asks 0 4 8 []) ∧
    left (.seatRead (asks 0 4 8 []) seatEnv) (held id) said = some (some (0, 8, [1, 0, 0x16, 0x48])) ∧
    left (.seatRead (asks 0x1FFFFC 4 8 []) seatEnv) p said = some (some (0, 8, [0, 0, 0, 0])) ∧
    left (.seatRead (asks 0x100000 1 8 []) seatEnv) (held id) said = some (some (2, 8, [])) ∧
    left (.seatWrite (asks 0x14 4 8 [1, 0, 0, 0]) seatEnv) p (fun d => (d.cycle.hostQ.length, said d)) = some (1, some (0, 8, [])) ∧
    left (.seatWrite (asks 0x14 4 8 [1, 0, 0, 0]) seatEnv) (held id) (fun d => (d.lane.hostDenied, said d)) =
      some (1, some (2, 8, [])) ∧
    left (.seatWrite (asks 0x1FFFFF 1 8 [5]) seatEnv) p (fun d => d.cycle.hostQ) = some [.worktop 0xFFFFF [5]] ∧
    left (.seatWrite (asks 0x1FFFFF 1 8 [5]) seatEnv) toll said = some (some (6, 8, [])) ∧
    left (.seatWrite (asks 0x3FFFFF 1 8 [5]) seatEnv) p said = some (some (2, 8, [])) := by
  dsimp only [NextOfHolder, Heeded]
  repeat' apply And.intro
  all_goals decide +kernel

/-- `held` with the host key at larder groups 0 to 3 not blank. -/
def keyed : State :=
  let s := held id
  { s with dev := { s.dev with store := { s.dev.store with home := [(31, 1)] } } }

/-- A nonce of 32 zeros, given at milestone 0. -/
def nonce0 : Option (List Byte × Nat) := some (List.replicate 32 0, 0)

/-- A device at milestone `ms`. -/
def atMs (ms : BitVec 48) (s : State) : State := { s with dev := { s.dev with time := { s.dev.time with count := ms } } }

/-- SessionsOpened: a CHALLENGE with a key, without one, with one that the reading of its fourth group loses, and in the last
milestone of a lockout; a RESPOND without a nonce, the
third failure and the one that locks; CLOSE. -/
theorem witness_sessions :
    let env := { seatEnv with nonce := 1 }
    let lock := atMs 4095 (held fun x => { x with failRun := 4, failAt := 0 })
    let bad := fun n => held fun x => { x with failRun := n, priv := true }
    NextOfHolder keyed.dev (asks 0 0 8 []) ∧
    left (.challenge (asks 0 0 8 []) env) keyed (fun d => (d.seat.nonce, said d)) =
      some (some (1 :: List.replicate 31 0, 100), some (0, 8, 1 :: List.replicate 31 0)) ∧
    left (.challenge (asks 0 0 8 []) env) (held id) said = some (some (2, 8, [])) ∧
    keyAsRead (heardDev keyed.dev) { env with finds := [.clean, .clean, .clean, .double] } = List.replicate 32 0 ∧
    left (.challenge (asks 0 0 8 []) { env with finds := [.clean, .clean, .clean, .double] }) keyed said = some (some (2, 8, [])) ∧
    left (.challenge (asks 0 0 8 []) env) lock said = some (some (2, 8, [])) ∧
    left (.respond (asks 0 32 8 (List.replicate 32 0)) env) (bad 2) (fun d => (d.seat.failRun, said d)) = some (3, some (2, 8, [])) ∧
    left (.respond (asks 0 32 8 (List.replicate 32 0)) env) (bad 3) (fun d => (d.seat.failRun, d.seat.failAt)) = some (4, 100) ∧
    left (.close (asks 0 0 8 [])) (bad 0) (fun d => (d.seat.priv, said d)) = some (false, some (0, 8, [])) := by
  dsimp only [NextOfHolder, Heeded]
  repeat' apply And.intro
  all_goals decide +kernel

/-- SessionsOpened, the response that opens the session, in the last milestone of its nonce. -/
theorem witness_respond :
    let s := atMs 255 (held fun x => { x with nonce := nonce0 })
    let key := keyAsRead (heardDev s.dev) seatEnv
    let r := asks 0 32 8 (hmacSha256 key ([0x48, 0x46, 0x4E, 0x53] ++ leBytes 8 Config.uid.toNat ++ List.replicate 32 0 ++ [0]))
    NextOfHolder s.dev r ∧ s.dev.seat.nonce = some (List.replicate 32 0, 0) ∧ (heardDev s.dev).ms < 0 + 256 ∧
    r.payload = hmacSha256 key ([0x48, 0x46, 0x4E, 0x53] ++ leBytes 8 Config.uid.toNat ++ List.replicate 32 0 ++ [0]) := by
  generalize hm : hmacSha256 _ _ = mac
  refine ⟨⟨⟨rfl, ?_⟩, ?_, ?_, ?_⟩, ?_, ?_, hm.symm ▸ rfl⟩
  all_goals decide +kernel

/-- A junction in RUN whose tunnel channel 7 stands so. -/
def tunnelled (t : Option Tunnel) : State :=
  let s := junctionNode
  { s with dev := { s.dev with
    sys := { s.dev.sys with hostSel := 3, progress := 0x42 }
    seat := { s.dev.seat with tuns := s.dev.seat.tuns.set 7 t } } }

/-- A TAKE frame for the junction's own seat, SEQ 0x10, whose CRC-16 is 0x831C (14, Table 14.1). -/
def ownTake : List Byte := [2, 0, 0, 0, 0, 0, 0x10, 0x1C, 0x83]

/-- TunnelsUsed on channel 7, opened to node 9 or, for the own seat, 0. -/
theorem witness_tunnelsUsed :
    let to9 : Tunnel := { target := 9, awaiting := false, rx := none }
    let open9 := tunnelled (some to9)
    let at7 := fun (d : Dev) => d.seat.tuns[(7 : Fin 8)]
    TunnelCommand (tunnelled none).dev (asks 0x70009 0 3 []) 7 ∧
    left (.tunOpen (asks 0x70009 0 3 [])) (tunnelled none) (fun d => (at7 d, said d)) = some (some to9, some (0, 3, [])) ∧
    left (.tunRecv (asks 0x70000 0 3 [])) (tunnelled none) said = some (some (2, 3, [])) ∧
    left (.tunSend (asks 0x70000 0 3 []) seatEnv) (tunnelled (some { to9 with awaiting := true })) said = some (some (1, 3, [0x42])) ∧
    left (.tunSend (asks 0x70000 9 3 ownTake) seatEnv) open9 (fun d => (at7 d, d.line.queue.map (fun q => (q.ftype, q.body.drop 2)))) =
      some (some { to9 with awaiting := true }, [(4, []), (10, ownTake)]) ∧
    (parseRequest ownTake).map (fun p => (p.1, p.2.seq, p.2.crcOk)) = some (2, 0x10, true) ∧
    left (.tunSend (asks 0x70000 9 3 ownTake) seatEnv) (tunnelled (some { to9 with target := 0 })) (fun d =>
      (d.seat.holder, (at7 d).map (fun t => (t.awaiting, t.rx.map (·.take 5))))) =
      some (.remote 7, some (false, some [0x5A, 0, 0x10, 0, 0])) ∧
    left (.tunRecv (asks 0x70000 0 3 [])) (tunnelled (some { to9 with rx := some [1, 2] })) (fun d => (at7 d, said d)) =
      some (some to9, some (0, 3, [1, 2])) ∧
    left (.tunClose (asks 0x70000 0 3 [])) open9 (fun d => (at7 d, said d)) = some (none, some (0, 3, [])) := by
  dsimp only [TunnelCommand, Heeded]
  repeat' apply And.intro
  all_goals decide +kernel

/-! ## The building bus -/

/-- A master at MAC 5 on a 38,400 baud bus with stations up to 127. -/
def bused (f : BusState → BusState) : State := on fun d =>
  let d := allOn d
  { d with
    sys := { d.sys with mode := .run, boot := .done }
    bus := f { d.bus with mac := 5, maxMaster := 127, maxInfo := 1, devInst := 77, busEn := true, run := .idle, next := 9, poll := 5 } }

/-- A slot to send: 2 octets to station 9, no reply expected. -/
def slot9 : BusSlot := { len := 2, seq := 0, full := true, ftype := 6, peer := 9, data := [(0, 1), (1, 2)] }

/-- What the last bus command put on the bus. -/
def put (d : Dev) : List (Nat × Nat × List Byte) := d.bus.sent.map (fun f => (f.ftype, f.dst, f.data))

/-- TokenPassed: the token with nothing and with one slot to send, the 49th token before a poll, another station's token, polls,
tests, and a station that answers a poll or replies late. -/
theorem witness_tokenPassed :
    let q := bused fun b => { b with order := [2], txq := b.txq.set 2 slot9, tokens := 48 }
    Logged (bused id).dev ∧ (bused id).dev.bus.active = true ∧
    left (.token 5) (bused id) (fun d => (put d, d.bus.tokens, d.bus.run)) = some ([(0, 9, [])], 1, .passToken) ∧
    left (.token 5) q (fun d => (put d, d.bus.tokens, d.bus.order)) = some ([(6, 9, [1, 2]), (0, 9, [])], 49, []) ∧
    left (.token 6) (bused id) (fun d => (put d, d.bus.run, d.bus.framesRx)) = some ([], .idle, 1) ∧
    left (.pollForMaster 3 5) (bused id) put = some [(2, 3, [])] ∧
    left (.testRequest 3 5 [7]) (bused id) put = some [(4, 3, [7])] ∧
    left (.replyToPollForMaster 127 5) (bused fun b => { b with run := .pollMaster, sole := true }) (fun d =>
      (put d, d.bus.next, d.bus.sole)) = some ([(0, 127, [])], 127, false) ∧
    ([.testResponse 5, .replyPostponed 5].map fun i => left i (bused fun b => { b with run := .waitReply }) put) =
      [some [(0, 9, [])], some [(0, 9, [])]] := by
  dsimp only [Logged]
  repeat' apply And.intro
  all_goals decide +kernel

/-- BusFramesQueued: the lowest free slot, a full queue, Reply Postponed, discarded frames, a lost token, a token that is not
taken, and a slot submitted. -/
theorem witness_busFramesQueued :
    let one := bused fun b => { b with rxq := b.rxq.set 0 slot9 }
    let full := bused fun b => { b with rxq := Vector.replicate 4 slot9 }
    left (.bacnetDataNotExpectingReply 3 5 [8, 9]) one (fun d => (d.bus.rxq[(1 : Fin 4)], d.bus.rxSeq)) =
      some ({ len := 2, seq := 0, full := true, ftype := 6, peer := 3, data := [(0, 8), (1, 9)] }, 1) ∧
    left (.bacnetDataExpectingReply 3 5 [8]) one (fun d => (put d, (d.bus.rxq[(1 : Fin 4)]).ftype)) = some ([(7, 3, [])], 5) ∧
    left (.bacnetDataNotExpectingReply 3 5 [8]) full (fun d => d.bus.drop) = some 1 ∧
    left .unsupportedFrame (bused id) (fun d => (d.bus.drop, d.bus.framesRx)) = some (1, 1) ∧
    left .crcErr (bused id) (fun d => (d.bus.crcErr, d.bus.framesRx)) = some (1, 0) ∧
    left .noTokenTimeout (bused id) (fun d => (put d, d.bus.tokenLost, d.bus.run)) = some ([(1, 6, [])], 1, .pollMaster) ∧
    left .tUsageTimeout (bused fun b => { b with run := .passToken }) (fun d => (put d, d.bus.retries)) = some ([(0, 9, [])], 1) ∧
    left (.txSlotSubmit 3) (bused id) (fun d => ((d.bus.txq[(3 : Fin 4)]).full, d.bus.order)) = some (true, [3]) := by
  dsimp only
  repeat' apply And.intro
  all_goals decide +kernel

/-- The bus service of device 77, "AB": Analog Value 1 from word 0 of hatch 0 to word 1 of hatch 1, and Binary Value 2, read only. -/
def served : State :=
  let s := bused fun b => { b with copies := [(0, leBytes 4 0x41200000)] }
  let obj := fun (type inst out : Byte) (name : Byte) => [type, inst, 0, 0, 0, 0, out, 1] ++ List.replicate 8 0 ++ [name] ++ List.replicate 15 0
  let p := [0x41, 0x42] ++ List.replicate 19 0 ++ [2] ++ List.replicate 10 0 ++ obj 2 1 1 0x58 ++ obj 5 2 0xFF 0x59
  { s with dev := { s.dev with image := { s.dev.image with scripts := [{ key := 0x500, pot := 0, offset := 0, data := p }] } } }

/-- BusServicesAnswered: reads of a carried property and an absent object, writes of the largest finite number, of an infinity and
to a read-only object, Who-Is at the ends of its range, Who-Has, a subscription and its end. -/
theorem witness_busServices :
    let pv := fun t i => ({ type := t, inst := i, prop := .presentValue } : BacRef)
    let replies := fun (d : Dev) => d.bus.replies
    let sub : CovSub := { mac := 3, process := 1, type := 2, inst := 1, ends := some 0, value := 0, fault := false }
    left (.readProperty 3 8 (pv 2 1)) served replies = some [(3, .readAck 8 (pv 2 1) (.real 0x41200000))] ∧
    left (.readProperty 3 8 (pv 2 9)) served replies = some [(3, .error 8 .readProperty .unknownObject)] ∧
    left (.readPropertyMultiple 3 8 [.one (pv 2 1), .one (pv 2 9)]) served replies = some [(3, .readMultiAck 8
      [(pv 2 1, .value (.real 0x41200000)), (pv 2 9, .error .unknownObject)])] ∧
    (served.dev.busObj 2 1).map (fun o => (o.outHatch, o.outWord)) = some (1, 1) ∧
    left (.writeProperty 3 8 (pv 2 1) (.real 0x7F7FFFFF)) served (fun d => d.bus.writes) =
      some [{ mac := 3, invoke := 8, hatch := 1, word := 1, value := 0x7F7FFFFF }] ∧
    left (.writeProperty 3 8 (pv 2 1) (.real 0x7F800000)) served replies = some [(3, .error 8 .writeProperty .valueOutOfRange)] ∧
    left (.writeProperty 3 8 (pv 5 2) (.enumerated 1)) served replies = some [(3, .error 8 .writeProperty .writeAccessDenied)] ∧
    left (.subscribeCov 3 8 1 2 1 28800 false) served (fun d => (d.bus.subs.map (·.ends), d.bus.replies)) =
      some ([some 28800000000], [(3, .simpleAck 8 .subscribeCov)]) ∧
    ([none, some (77, 77), some (78, 99)].map fun r => left (.whoIs r) served replies) =
      [some [(255, .iAm 77)], some [(255, .iAm 77)], some []] ∧
    left (.whoHas (.byId 8 77)) served replies = some [(255, .iHave 8 77 [0x41, 0x42])] ∧
    left .covLifetimeExpiry (bused fun b => { b with subs := [sub, { sub with ends := none }] }) (fun d => d.bus.subs.length) = some 1 := by
  dsimp only
  repeat' apply And.intro
  all_goals decide +kernel

/-! ## Motor units -/

/-- The payload of the worked example of 15, with values of this test where it gives none. -/
def jetFan : List Byte := leBytes 112 0x6401F403E801F440A0000043D2000043BE000043480000BF8000003F8000003D4CCCCD3DCCCCCD3D4CCCCD3DCCCCCD3C23D70A43960000439600004348000043960000439600004120000041A0000041400000412000003EB333333BC49BA63F4CCCCD05DC05DC00280204

/-- A device in RUN whose pot 1 owns every channel and whose unit 0 drives that fan. -/
def motored (f : Whisk → Whisk) : State := on fun d =>
  let d := allOn d
  { d with
    sys := { d.sys with mode := .run, boot := .done }
    image := { d.image with
      chanOwn := List.replicate 0x61 1
      scripts := [{ key := 0x600, pot := 1, offset := 0, data := jetFan }] }
    whisk := d.whisk.set 0 (f (d.whisk[(0 : Fin 2)])) }

/-- R463 and the worked example of 15: SB_RPM reads 66, above the floor of 30 rpm. -/
theorem test_short_brake_speed : whiskSb jetFan = 66 ∧ whiskFloor jetFan = 30 := by decide +kernel

/-- Table 15.4 in sectors 1 and 6, with a zero vector that changes the fewest legs. -/
theorem test_switching_table :
    switchVector true 1 1 0 = 2 ∧ switchVector true (-1) 1 0 = 6 ∧ switchVector false 1 6 0 = 2 ∧ switchVector false (-1) 6 0 = 4 ∧
    switchVector true 0 3 1 = 0 ∧ switchVector true 0 3 2 = 7 := by decide +kernel

/-- MotorEventsTakeEffect, on unit 0. -/
theorem witness_motorEvents :
    let run := fun (r : WhiskRun) => motored fun w => { w with run := r }
    let u := fun (d : Dev) => d.whisk[(0 : Fin 2)]
    (run .drive).dev.whiskUsed 0 = true ∧ (run .drive).dev.pd 13 = true ∧
    ([.overcurrent 0, .dcVoltage 0, .drvFault 0].map fun i => left i (run .drive) (fun d => ((u d).run, (u d).cause, (u d).trips))) =
      [some (.tripped, 3, 1), some (.tripped, 4, 1), some (.tripped, 2, 1)] ∧
    left (.alignComplete 0) (run .align) (fun d => ((u d).run, (u d).psa)) = some (.drive, 0x3EB33333) ∧
    left (.standstillTimeout 0) (motored fun w => { w with est := .low, speed := 9 }) (fun d => ((u d).est, (u d).speed)) =
      some (.standstill, 0) ∧
    left (.cmdLoss 0) (motored fun w => { w with source := 2 }) (fun d => ((u d).lost, (u d).losses)) = some (true, 1) ∧
    left (.cmdRegained 0) (motored fun w => { w with lost := true }) (fun d => (u d).lost) = some false ∧
    left (.speedCommandEdge 0 true 7) (run .off) (fun d => (u d).edges) = some [(7, true)] := by
  dsimp only
  repeat' apply And.intro
  all_goals decide +kernel

/-- Currents of 0 A, a DC link of 300 V, every phase at 0 V, and no fault. -/
def quiet0 : WhiskSample := { iu := 262144, iv := 262144, iw := 262144, vdc := 209715, vu := 0, vv := 0, vw := 0, pin := 0, fltHigh := true }

/-- MotorDecisionsAndEstimates: without its converter, at the release of a trip, in DRIVE below every limit, and at the 64th
decision. Angles have a free error (R449), so no vector is checked here. -/
theorem witness_motorDecisions :
    let off := motored fun w => { w with run := .drive, mode := .off }
    let lost := { off with dev := { off.dev with mando := { off.dev.mando with
      conv := off.dev.mando.conv.set 0 { off.dev.mando.conv[(0 : Fin 4)] with failed := true } } } }
    let trip := motored fun w => { w with run := .tripped, latched := true }
    let n := motored fun w => { w with decisions := 64, angle := 0 }
    let u := fun (d : Dev) => d.whisk[(0 : Fin 2)]
    off.dev.convUsable 0 = true ∧ off.dev.convFailed 0 = false ∧ lost.dev.convFailed 0 = true ∧
    whiskModeOf (off.dev.presented 0x058 0) = (u off.dev).mode ∧ off.dev.routedCx 0 = none ∧
    ((u off.dev).estimator jetFan quiet0).overRun < 4 ∧ ((u off.dev).estimator jetFan quiet0).vdcRun < 80 ∧
    left (.decision 0 quiet0) lost (fun d => ((u d).run, (u d).cause)) = some (.tripped, 5) ∧
    left (.decision 0 quiet0) trip (fun d => ((u d).run, (u d).latched)) = some (.off, false) ∧
    left (.estimate 0 12800) n (fun d => ((u d).decisions, (u d).rpm, (u d).omega)) = some (0, 0, 0) := by
  dsimp only
  repeat' apply And.intro
  all_goals decide +kernel

/-! ## Fans, actuators and SYS_SHDN -/

/-- A device in RUN whose pot 1 owns every channel: fan 0 loses its tach after one milestone, and DO0 and DO1 are a pair of
10,000 ms with 10 % of over-travel and a dead band of 1.00 %. -/
def vented (f : FanState → FanState) : State := on fun d =>
  let d := allOn d
  let pair := [1, 0, 10, 0] ++ leBytes 4 10000 ++ leBytes 2 100 ++ leBytes 2 1 ++ List.replicate 4 0
  { d with
    sys := { d.sys with mode := .run, boot := .done, strapped := true }
    time := { d.time with msLen := 20000000 }
    image := { d.image with
      chanOwn := List.replicate 0x61 1
      tables := [{ key := 0x040, pot := 1, offset := 0, data := List.replicate 18 0 ++ [1, 0] ++ List.replicate 92 0 },
        { key := 0x050, pot := 1, offset := 0, data := pair }] }
    fan := f d.fan }

/-- Fan 0 changed. -/
def fan0 (f : Fan → Fan) : State := vented fun s => { s with fans := s.fans.set 0 (f s.fans[(0 : Fin 6)]) }

/-- The pair of DO0 and DO1 changed, with TARGET so. -/
def pair0 (target : Word) (f : Pair → Pair) : State :=
  let s := vented fun s => { s with pairs := s.pairs.set 0 (f { s.pairs[(0 : Fin 4)] with unknown := false }) }
  { s with dev := { s.dev with cycle := { s.dev.cycle with presented := [(64 * 0x050, target)] } } }

/-- FansAndActuators, fans: the last waymark of a kick, edges 15 and 16 µs apart, a tach silent for a milestone, a capture of
two fans. -/
theorem witness_fans :
    let e := fan0 fun x => { x with edges := [1000] }
    let q := fan0 fun x => { x with quiet := 256 }
    let at' := fun (d : Dev) => d.fan.fans[(0 : Fin 6)]
    left (.kickEnd 0) (fan0 fun x => { x with kick := some 1 }) (fun d => (at' d).kick) = some none ∧
    ([1015999, 1016000].map fun t => left (.tachEdge 0 t) e (fun d => (at' d).edges)) = [some [1000], some [1016, 1000]] ∧
    q.dev.pd 14 = true ∧ q.dev.image.owner 0x040 < 16 ∧
    left (.tachLost 0) q (fun d => ((at' d).tachLost, (at' d).tachLosses)) = some (true, 1) ∧
    left (.fanCapture 0x21) (vented id) (fun d => (upTo 6).map (fun f => (vgetD d.fan.fans f Fan.reset).capture)) =
      some [true, false, false, false, false, true] := by
  dsimp only
  repeat' apply And.intro
  all_goals decide +kernel

/-- FansAndActuators, SYS_SHDN with strap 0, whose die trips above 70.00 °C and releases at 62.00 °C (R490): the fourth
comparison in a row, and at 70.00 °C none; and before the straps are latched. -/
theorem witness_shutdown :
    let s := fun hot cool on => vented fun f => { f with shdnFirst := false, shdn := on, hotRun := hot, coolRun := cool }
    let u := s 3 0 false
    let u := { u with dev := { u.dev with sys := { u.dev.sys with strapped := false } } }
    (s 3 0 false).dev.sys.tstrap = 0 ∧ (s 3 0 false).dev.sys.strapped = true ∧
    left (.shdnCompare 7001 50) u (fun d => (d.fan.shdn, d.fan.hotRun, d.fan.ohm)) = some (false, 3, 50) ∧
    left (.shdnCompare 7001 50) (s 3 0 false) (fun d => (d.fan.shdn, d.fan.shdnCause, d.fan.shdnCount)) = some (true, 2, 1) ∧
    left (.shdnCompare 7001 200000) (s 2 0 false) (fun d => (d.fan.shdn, d.fan.hotRun)) = some (false, 3) ∧
    left (.shdnCompare 7000 10000) (s 3 0 false) (fun d => (d.fan.shdn, d.fan.hotRun)) = some (false, 0) ∧
    left (.shdnCompare 6200 2803) (s 0 3 true) (fun d => d.fan.shdn) = some false ∧
    left (.shdnCompare 6200 2803) (s 0 2 true) (fun d => (d.fan.shdn, d.fan.coolRun)) = some (true, 3) ∧
    left (.shdnCompare 6201 2803) (s 0 3 true) (fun d => (d.fan.shdn, d.fan.coolRun)) = some (true, 0) := by
  dsimp only
  repeat' apply And.intro
  all_goals decide +kernel

/-- FansAndActuators, pairs: targets at the dead band and beyond it, both end stops, and the end of homing. -/
theorem witness_pairs :
    let half : Pair → Pair := fun p => { p with motion := .paused, travel := 5000000, left := 1 }
    let at' := fun (d : Dev) => d.fan.pairs[(0 : Fin 4)]
    (pair0 0 id).dev.pd 14 = true ∧ (pair0 0 id).dev.image.paired 0 = true ∧ (pair0 0 id).dev.wmMicros = 79 ∧
    ([5100, 5101, 4899].map fun t => left (.reversalPauseEnd 0) (pair0 t half) (fun d => (at' d).motion)) =
      [some .rest, some .opening, some .closing] ∧
    left (.overtravelEnd 0) (pair0 10000 fun p => { p with motion := .opening, travel := 10000000, runOn := some 79 }) (fun d =>
      ((at' d).travel, (at' d).motion, d.fan.doPin[(0 : Fin 8)])) = some (10000000, .rest, false) ∧
    left (.overtravelEnd 0) (pair0 0 fun p => { p with motion := .closing, travel := 0, runOn := some 79 }) (fun d =>
      ((at' d).travel, (at' d).motion)) = some (0, .rest) ∧
    left (.homingComplete 0) (pair0 0 fun p => { p with unknown := true, homing := some true, motion := .opening, runOn := some 79 })
      (fun d => ((at' d).unknown, (at' d).travel)) = some (false, 10000000) := by
  dsimp only
  repeat' apply And.intro
  all_goals decide +kernel

/-! ## The face -/

/-- A face of 24 × 16 pixels with frames of 1,000 µs, whose pot 1 has region 0 over columns 0 to 23 and rows 0 to 15 and the
stencil `b` under key 0x20. -/
def lit (b : List Byte) (f : FaceState → FaceState) : State := on fun d =>
  let d := allOn d
  let cfg := [24, 16] ++ leBytes 2 1000 ++ List.replicate 28 0 ++ [1] ++ List.replicate 31 0
  { d with
    sys := { d.sys with mode := .run, boot := .done }
    image := { d.image with
      chanOwn := List.replicate 0x61 1
      scripts := [{ key := 0x700, pot := 1, offset := 0, data := cfg }]
      stencils := [{ key := 0x20, pot := 1, offset := 0, data := b }]
      faceRegions := [{ owner := 1, x0 := 0, x1 := 24, y0 := 0, y1 := 16 }] }
    cycle := { d.cycle with presented := [(64 * 0x060, 1)] }
    face := f d.face }

/-- A stencil operation in flight at its first step with ink 9 and parameters 47, 5,000, 0 and 0. -/
def drawing : FaceOp :=
  { pot := 1, region := 0, work := .stencil 0x20, left := some 1, pixels := [], run := some { step := 0, ink := 9, params := [47, 5000, 0, 0] } }

/-- The stencil whose one step is of Table 17.6: OP, X, Y, W, H, the PARAM flag and ARG. -/
def oneStep (op x y w h flag : Byte) (arg : Nat) : List Byte := [0, 1, 0, 0, 0, 0, 0, 0, op, x, y, w, h, flag] ++ leBytes 2 arg

/-- FaceDrawn: frames that take LIGHT, an operation that completes, a flush, and passes. -/
theorem witness_face :
    let s := fun (r : FaceRun) => lit [] fun f => { f with run := r, permit := true }
    let dark := fun (r : FaceRun) => lit [] fun f => { f with run := r, permit := false }
    let o := lit [] fun f => { f with ops := [{ drawing with pixels := [(97, 5)], work := .rect 0 1 0 1 0 }] }
    (s .dark).dev.image.facePot = 1 ∧ (s .dark).dev.image.faceCfg.getD 0x20 0 = 1 ∧
    left (.faceFrameStart 3 [] none) (s .dark) (fun d => (d.face.run, d.face.frameEnd)) = some (.vrevRise, 4000) ∧
    left (.faceFrameStart 3 [] none) (dark .lit) (fun d => d.face.run) = some .anodeFall ∧
    left (.faceOperationComplete 1) o (fun d => (d.face.ops, d.face.opsDone, d.face.scan)) = some ([], 1, [(97, 5)]) ∧
    (s .dark).dev.time.count.toNat % 256 = 0 ∧ (s .dark).dev.time.wm = 0 ∧ (s .dark).dev.store.failed = [] ∧
    left .stressFlush (s .dark) (fun d => (d.face.energy, d.store.queue.length)) = some ([], 2) ∧
    left .fvPassStart (s .lit) (fun d => (d.face.fvRun, d.face.fvDue)) = some (some 0, false) ∧
    left .fvPassStart (s .dark) (fun d => (d.face.fvRun, d.face.fvDue)) = some (none, true) := by
  dsimp only
  repeat' apply And.intro
  all_goals decide +kernel

/-- FaceDrawn, the steps of a stencil (Table 17.6): parameter 1 clamped to 4,095, a fill that stops at its region, a mask of
one row, the number 47 in two cells, whose digits begin 5, 5 and 7, 1 (Table 17.7), and the arrow to the left. -/
theorem witness_stencil :
    let at' := fun b => lit b fun f => { f with ops := [drawing] }
    let drawn := fun i b => left i (at' b) (fun d => d.face.ops.map (fun o => o.pixels))
    AtStencil (at' (oneStep 2 23 0 2 1 0 0)).dev 0 drawing 0x20 (oneStep 2 23 0 2 1 0 0) { step := 0, ink := 9, params := [47, 5000, 0, 0] }
      { owner := 1, x0 := 0, x1 := 24, y0 := 0, y1 := 16 } 2 ∧
    left (.stencilInk 0) (at' (oneStep 1 0 0 0 0 1 1)) (fun d => d.face.ops.map (fun o => o.run.map (·.ink))) = some [some 4095] ∧
    left (.stencilEnd 0) (at' (oneStep 0 0 0 0 0 0 0)) (fun d => d.face.ops.map (fun o => o.run.map (·.step))) = some [some 1] ∧
    drawn (.stencilFill 0) (oneStep 2 23 0 2 1 0 0) = some [[(23, 9)]] ∧
    drawn (.stencilMask 0) (oneStep 3 0 0 3 1 0 16 ++ [5]) = some [[(0, 9), (2, 9)]] ∧
    (drawn (.stencilDigits 0) (oneStep 4 0 0 2 5 0 0)).map (fun l => l.map (fun ps => ps.filter (fun p => p.1 < 192))) =
      some [[(0, 9), (1, 0), (2, 9), (96, 9), (97, 0), (98, 9), (4, 9), (5, 9), (6, 9), (100, 0), (101, 0), (102, 9)]] ∧
    (drawn (.stencilArrow 0) (oneStep 5 0 0 5 5 0 0)).map (fun l => l.map (fun ps => ps.filter (fun p => p.2 = 9))) =
      some [[(2, 9), (97, 9), (192, 9), (193, 9), (194, 9), (195, 9), (196, 9), (289, 9), (386, 9)]] := by
  dsimp only [AtStencil]
  repeat' apply And.intro
  all_goals decide +kernel

/-! ## Worked examples of the spec and of the standards that it names -/

/-- R183: the budget of windows of 100, 120 and 40 waymarks. -/
theorem test_budgets : budgetOf 100 = 488944 ∧ budgetOf 120 = 586717 ∧ budgetOf 40 = 195380 := by decide +kernel

/-- A function with the given code. -/
def codeFn (nlocals : Nat) (bs : List Byte) : VFn :=
  let d := decodeBody bs.length 0 bs
  { index := 0, pot := 1, args := [], results := [], nlocals, offset := 0, size := bs.length, ins := d.1, bad := d.2 }

/-- The function of Table 7.14. -/
def damper : VFn := codeFn 0
  [0xA0, 0x20, 0x00, 0x02, 0x00, 0x05, 0x00, 0x00, 0x04, 0x00, 0x41, 0x05, 0x00, 0x00, 0x58, 0x02, 0x42, 0x7A, 0x01, 0x00, 0x2D,
   0x02, 0xFF, 0x0F, 0x2C, 0x70, 0xA2, 0x4B, 0x00, 0x01, 0x00, 0x85]

/-- The function of Table 7.16. -/
def averaging : VFn := codeFn 2
  [0x04, 0x00, 0x04, 0x00, 0x00, 0x11, 0x00, 0x10, 0x01, 0x10, 0x00, 0x94, 0x00, 0x20, 0x11, 0x01, 0x10, 0x00, 0x04, 0x04, 0x00,
   0x00, 0x00, 0x30, 0x12, 0x00, 0x04, 0x40, 0x04, 0x00, 0x00, 0x59, 0x02, 0x83, 0x10, 0x00, 0x1A, 0x00, 0x10, 0x01, 0x01, 0x04,
   0x66, 0xB9, 0x02, 0x00, 0x85]

/-- Tables 7.14 and 7.16: where each instruction begins, and the worst cases of 19 and 265 work units. -/
theorem test_listings :
    damper.bad = none ∧ damper.ins.map (·.pc) = [0, 5, 10, 11, 16, 17, 18, 20, 21, 24, 25, 26, 31] ∧
    damper.worst (damper.ins.map (·.pc)) (fun x => x.info.cost) = 19 ∧ averaging.bad = none ∧
    averaging.ins.map (·.pc) = [0, 5, 7, 9, 11, 13, 14, 16, 18, 23, 24, 26, 31, 33, 38, 40, 42, 43, 46] ∧
    averaging.worst (averaging.ins.map (·.pc)) (fun x => x.info.cost) = 265 := by
  repeat' apply And.intro
  all_goals decide +kernel

/-- Node 0x0A7 of Table 18.18. -/
def node0A7 : State := on fun d =>
  let no : HatchDecl := { used := false, writer := 0, length := 0, readers := 0 }
  let none' : Route := { used := false, pot := 0, lane := 0, period := 1, phase := 0, release := 0, length := 1, cold := 0, warm := 0, cyclic := 0 }
  { d with
    sys := { d.sys with mode := .run, boot := .done, start := 2, recorded := 1, acked := 0, role := 1 }
    lane := { d.lane with phys := d.lane.phys.set 2 { retired := true, cause := 1, fails := 1 } }
    image := { d.image with
      windows := [{ base := 0, pages := 16 }, { base := 16, pages := 64 }, { base := 80, pages := 16 }, { base := 96, pages := 16 }]
      pots := List.replicate 4 { declared := true, tag := [] }
      routes := List.replicate 6 none' ++ [{ none' with used := true, pot := 2, lane := 3 }] ++ List.replicate 2 none' ++
        [{ none' with used := true, pot := 3, lane := 4 }]
      hatches := [no, no, { used := true, writer := 6, length := 1, readers := 1 }, no, no,
        { used := true, writer := 9, length := 1, readers := 2 }] } }

/-- Table 18.18: what pot 2, an unprivileged and a privileged host read. -/
theorem test_views :
    let d := node0A7.dev
    ([0x4, 0x10, 0x24, 0x20008, 0x20118, 0x20128, 0x20810, 0x20828].map fun a =>
      (d.taskRead 2 a, d.hostRead false 0 a, d.hostRead true 0 a)) =
      [(0, 0, 0), (0xA, 0xA, 0xA), (4, 0, 0x1FFFF), (0, 0, 0x01013F03), (0, 0, 0x4010), (0x1050, 0, 0x1050),
       (0x11206, 0, 0x11206), (0, 0, 0x21309)] := by decide +kernel

/-- FIPS 197, appendix C.1. -/
theorem test_aes : aes128 ((upTo 16).map (BitVec.ofNat 8)) ((upTo 16).map (fun i => BitVec.ofNat 8 (17 * i))) =
    (leBytes 16 0x69C4E0D86A7B0430D8CDB78070B4C55A).reverse := by decide +kernel

/-- The octets of "123456789", whose CRC-32 and CRC-16/CCITT are the check values of the polynomials of Table 0.6. -/
theorem test_crcs :
    let m : List Byte := [0x31, 0x32, 0x33, 0x34, 0x35, 0x36, 0x37, 0x38, 0x39]
    crc32 m = 0xCBF43926 ∧ crc16 m = 0x29B1 := by decide +kernel

/-- FIPS 180-4: SHA-256 of "abc". -/
theorem test_sha256 : sha256 [0x61, 0x62, 0x63] =
    (leBytes 32 0xBA7816BF8F01CFEA414140DE5DAE2223B00361A396177A9CB410FF61F20015AD).reverse := by decide +kernel

end Sys2Proof.Tests
end

/-! ## The crystal, the die temperature, acknowledgements and requests (R31, R35, R50, R53, R71, R266, R272, R282) -/

namespace Sys2Proof.Laws

open Sys2Proof.Machine Sys2Proof.Safety

/-! ### What a command completes in, from its effect on the device -/

/-- A command whose effect raises no event and leaves SYS as it is. -/
theorem becomes_of_quiet {i : Instr} {s : State} {f : Dev → Dev} {d : Dev} (hi : exec i s = s.act f)
    (hf : f s.dev = d) (hl : Logged d) (hs : d.sys = s.dev.sys) : Becomes i s d := by
  subst hf
  exact hi.trans (act_quiet hl hs)

/-- A command whose effect raises no event and changes neither the mode nor a guarantee. -/
theorem becomes_of_calm {i : Instr} {s : State} {f : Dev → Dev} {d : Dev} (hi : exec i s = s.act f)
    (hf : f s.dev = d) (hl : Logged d) (hm : d.sys.mode = s.dev.sys.mode) (hv : d.void = s.dev.void)
    (hr : d.retirePend = s.dev.retirePend) : Becomes i s d := by
  subst hf
  exact hi.trans (act_calm hl hm hv hr)

/-- A command whose effect raises one event beside a change that leaves SYS as it is. -/
theorem becomes_of_event {i : Instr} {s : State} {f : Dev → Dev} {d : Dev} {code subject detail tag aux : Nat}
    (hi : exec i s = s.act f) (hf : f s.dev = d.event code subject detail tag aux) (hl : Logged d)
    (hs : d.sys = s.dev.sys) : Becomes i s (withEntry d code subject detail tag aux) := by
  have hact : s.act f = .next { s with dev := withEntry d code subject detail tag aux } := by
    unfold State.act
    rw [hf, logFlush_event hl, settle_same (d := withEntry d code subject detail tag aux) hs]
  exact hi.trans hact

/-- The attention bits that follow a command change nothing of SYS. -/
@[simp] theorem settle_sys (b d : Dev) : (Dev.settle b d).sys = d.sys := rfl

/-! ### The crystal (R53, R266) -/

/-- A crystal that has not failed yet fails: the time base leaves it, and the failure is counted and raised as an event. -/
theorem xtalFail_of_running {d : Dev} (h : d.time.xtalFail = false) :
    d.xtalFail = ({ d with time := { d.time with
      xtalFail := true, onXtal := false, cntXtal := satInc d.time.cntXtal } } : Dev).event 0x0F 0 0 0 0 := by
  simp [Dev.xtalFail, h, Dev.onTime]

theorem xtalSwitchover_of_onRc {d : Dev} (hf : d.time.xtalFail = false) (ho : d.time.onXtal = false) :
    d.xtalSwitchover = { d with sys := { d.sys with xtalAgree := true } } := by
  simp [Dev.xtalSwitchover, hf, ho]

/-- A crystal that has not agreed in time fails as one that stops does. -/
theorem xtalStartTimeout_of_waiting {d : Dev} (ho : d.time.onXtal = false) (ha : d.sys.xtalAgree = false) :
    d.xtalStartTimeout = d.xtalFail := by
  simp [Dev.xtalStartTimeout, ho, ha]

/-! ### The die temperature (R31, R50) -/

theorem xtalComp_of_due {d : Dev} (temp : Int) (hw : d.time.wm = 0) (hm : d.ms % 16 = 0) :
    d.xtalComp temp = { d with time := { d.time with dieTemp := temp, rate := -d.time.errorPpb temp } } := by
  unfold Dev.ms at hm
  simp [Dev.xtalComp, hw, hm, Dev.onTime]

theorem dieTempRefresh_of_due {d : Dev} (temp : Int) (hw : d.time.wm = 0) (hm : d.ms % 256 = 0) :
    d.dieTempRefresh temp =
      { d with time := { d.time with dieTemp := temp, dieShown := divRoundEven temp 100 } } := by
  unfold Dev.ms at hm
  simp [Dev.dieTempRefresh, hw, hm, Dev.onTime]

/-! ### Domain requests, acknowledgements and AUTO (R35, R71, R282) -/

theorem pdReqWrite_host (d : Dev) (v : Word) : d.pdReqWrite v true =
    { d with power := { d.power with req := v.setWidth 16, hostWrote := true } } := by
  simp [Dev.pdReqWrite, Dev.onPower]

/-- A Hob's write that no host's at the same boundary stands over. -/
theorem pdReqWrite_hob {d : Dev} (v : Word) (h : d.power.hostWrote = false) : d.pdReqWrite v false =
    { d with power := { d.power with req := v.setWidth 16 } } := by
  simp [Dev.pdReqWrite, Dev.onPower, h]

/-- An acknowledgement of retirements that are pending moves ACKED and leaves the rest of SYS as it is. -/
theorem ackRetire_sys {d : Dev} {upto : Word} (h : d.sys.acked < upto) :
    (d.ackRetire upto).sys = { d.sys with acked := upto } := by
  unfold Dev.ackRetire
  rw [if_neg (Nat.not_le.mpr h)]
  rfl

theorem tollAutoClear_of_due {d : Dev} (hm : d.sys.mode = .run) (hd : d.sys.runMs + 65536 ≤ d.ms) :
    d.tollAutoClear = { d with sys := { d.sys with tollAuto := 0 } } := by
  simp [Dev.tollAutoClear, hm, hd, Dev.onSys]

/-- GUAR_ACK.RETIRE with a retirement pending: its log entry and the ATTN bits behind it touch neither count. -/
theorem completes_guarAckRetire {s : State} (h : s.dev.sys.acked < s.dev.sys.recorded) :
    Completes .guarAckRetire s (fun d => d.sys.acked = s.dev.sys.recorded ∧ d.retirePend = false) := by
  have hsys := ackRetire_sys h
  exact ⟨_, rfl, rfl, by simp [hsys], by simp [Dev.retirePend, hsys]⟩

end Sys2Proof.Laws

namespace Sys2Proof.Proofs

open Sys2Proof.Machine Sys2Proof.Safety Sys2Proof.Laws

/-- Settles O18. The failures are one event each; the other rows raise none and touch no guarantee. -/
theorem crystalAndTemperature : Obligations.CrystalAndTemperature := by
  unfold Obligations.CrystalAndTemperature
  constructor
  · intro s hl hf
    have hfail := xtalFail_of_running hf
    refine ⟨becomes_of_event rfl hfail hl rfl, fun ho => ⟨?switchover, fun ha => ?startTimeout⟩⟩
    case switchover => exact becomes_of_calm rfl (xtalSwitchover_of_onRc hf ho) hl rfl rfl rfl
    case startTimeout =>
      exact becomes_of_event rfl ((xtalStartTimeout_of_waiting ho ha).trans hfail) hl rfl
  · intro temp s hl hw
    constructor
    · intro hm
      exact becomes_of_quiet rfl (xtalComp_of_due temp hw hm) hl rfl
    · intro hm
      exact becomes_of_quiet rfl (dieTempRefresh_of_due temp hw hm) hl rfl

/-- Settles O16. Requests, BOOT_READ and AUTO are changes without an event; an acknowledgement is one to SYS with its log
entry. -/
theorem acknowledgementsAndRequests : Obligations.AcknowledgementsAndRequests := by
  unfold Obligations.AcknowledgementsAndRequests
  constructor
  · intro s hl
    refine ⟨fun v => ⟨?host, fun hw => ?hob⟩, completes_guarAckRetire⟩
    case host => exact becomes_of_quiet rfl (pdReqWrite_host s.dev v) hl rfl
    case hob => exact becomes_of_quiet rfl (pdReqWrite_hob v hw) hl rfl
  · intro s hl
    refine ⟨becomes_of_quiet rfl (rfl : s.dev.bootRead = _) hl rfl, fun hm hd => ?autoClear⟩
    case autoClear => exact becomes_of_calm rfl (tollAutoClear_of_due hm hd) hl rfl rfl rfl

end Sys2Proof.Proofs

/-! ## Crossings, the lock, the time registers and the network time (R25, R38, R42, R55, R56, R58) -/

namespace Sys2Proof.Laws

open Sys2Proof.Machine Sys2Proof.Safety

/-- A command completes in what its effect leaves once the events are written and the attention bits follow. -/
theorem completes_of_act {i : Instr} {s : State} {f : Dev → Dev} {P : Dev → Prop} (hi : exec i s = s.act f)
    (hp : P (Dev.settle s.dev (f s.dev).logFlush)) : Completes i s P :=
  ⟨_, hi, rfl, hp⟩

/-! ### The stamp of a crossing (R58) -/

/-- An instant `x` after a start, truncated to the 2²⁴ parts of a length, lies at or before `x`, by less than a part. -/
theorem truncateToPart_bounds (x : Nat) {len : Nat} (h : 0 < len) :
    x * 2 ^ 24 / len * len / 2 ^ 24 ≤ x ∧ x < x * 2 ^ 24 / len * len / 2 ^ 24 + len / 2 ^ 24 + 2 := by
  have below := Nat.div_mul_le_self (x * 2 ^ 24) len
  have above := Nat.lt_div_mul_add (a := x * 2 ^ 24) h
  generalize x * 2 ^ 24 / len * len = q at below above ⊢
  omega

theorem zcStamp_bounds {t : TimeState} {at' : Nat} (hs : t.msStart ≤ at') (hl : 0 < t.msLen) :
    t.zcStamp at' ≤ at' ∧ at' < t.zcStamp at' + t.msLen / 2 ^ 24 + 2 := by
  have hstamp : t.zcStamp at' = t.msStart + (at' - t.msStart) * 2 ^ 24 / t.msLen * t.msLen / 2 ^ 24 := by
    unfold TimeState.zcStamp
    exact if_pos hs
  have hpart := truncateToPart_bounds (at' - t.msStart) hl
  rw [hstamp]
  omega

/-! ### The record of an input (R38) -/

@[simp] theorem okBits_zc (t : TimeState) : t.okBits.zc = t.zc := rfl
@[simp] theorem okBits_lock (t : TimeState) : t.okBits.lock = t.lock := rfl
@[simp] theorem okBits_source (t : TimeState) : t.okBits.source = t.source := rfl
@[simp] theorem okBits_zcMode (t : TimeState) : t.okBits.zcMode = t.zcMode := rfl
@[simp] theorem okBits_cntLoss (t : TimeState) : t.okBits.cntLoss = t.cntLoss := rfl

/-- What an accepted crossing leaves in its input's record. -/
def ZcInput.crossed (z : ZcInput) (stamp : Nat) : ZcInput :=
  let p := match z.last with | some l => stamp - l | none => 0
  { last := some stamp, period := p, mains := if periodInRange p then p else z.mains
    good := if z.last.isSome && goodPeriod z.period p then z.good + 1 else 0, accepted := z.accepted + 1 }

/-- A crossing is entered in the record of its own input. -/
theorem stampZc_zc (t : TimeState) (i : Fin 3) (stamp : Nat) :
    (t.stampZc i stamp).zc = t.zc.set i (ZcInput.crossed t.zc[i] stamp) := by
  unfold TimeState.stampZc
  extract_lets z p good t1
  have hzc : t1.zc = t.zc.set i (ZcInput.crossed t.zc[i] stamp) := rfl
  clear_value t1
  split
  case isTrue => exact hzc
  case isFalse =>
    split
    · dsimp only
      split
      · split <;> exact hzc
      · exact hzc
    · exact hzc

/-- The step of the lock leaves the records as they are. -/
@[simp] theorem lockStep_zc (t : TimeState) (i stamp : Nat) : (t.lockStep i stamp).zc = t.zc := by
  unfold TimeState.lockStep
  extract_lets z out
  clear_value out z
  cases t.lock
  case free => dsimp only; split <;> rfl
  case acquire =>
    dsimp only
    split
    · rfl
    · split
      · rfl
      · split <;> rfl
  case holdover => dsimp only; split <;> rfl
  case locked =>
    dsimp only
    split
    · split
      · split <;> rfl
      · rfl
    · split <;> rfl

/-- A crossing that stays above its threshold long enough, is not early and comes on an input that is in use is accepted. -/
theorem zcCrossing_accepted {d : Dev} {i : Fin 3} {at' high last : Nat} (hz : (d.time.zc[i]).last = some last)
    (hh : 400000 ≤ high) (hlt : last < d.time.zcStamp at')
    (hm : (d.time.zc[i]).mains ≤ 2 * (d.time.zcStamp at' - last)) (hi : i.val = 0 ∨ d.time.zcMode = 1) :
    d.zcCrossing i at' high =
      d.onTime fun t => (t.stampZc i (d.time.zcStamp at')).lockStep i.val (d.time.zcStamp at') := by
  have hlong : ¬ high < 400000 := by omega
  have hlate : ¬ d.time.zcStamp at' ≤ last := by omega
  have hfull : ¬ 2 * (d.time.zcStamp at' - last) < (d.time.zc[i]).mains := by omega
  have hused : (i.val ≠ 0 && d.time.zcMode != 1) = false := by
    rcases hi with h | h <;> simp [h]
  unfold Dev.zcCrossing
  simp only [hz, hlong, hlate, hfull, hused, decide_false, Bool.or_false, Bool.false_eq_true, if_false]

/-! ### The lock (R42) -/

/-- The source of the lock misses its crossing where no other input may take over. -/
theorem zcTimeout_of_source {d : Dev} {i : Fin 3} (hl : d.time.lock = .locked) (hs : d.time.source.input = some i.val)
    (hm : d.time.zcMode ≠ 1) : (d.zcTimeout i).time.lock = .holdover ∧ (d.zcTimeout i).time.source = .timeBase ∧
      (d.zcTimeout i).time.cntLoss = satInc d.time.cntLoss := by
  have hone : (d.time.zcMode == 1) = false := by simpa using hm
  simp only [Dev.zcTimeout, Dev.onTime_time, okBits_lock, okBits_source, okBits_zcMode, okBits_cntLoss, hl, hs, hone,
    ne_eq, not_true_eq_false, Bool.false_and, Bool.false_eq_true, if_false, and_self]

theorem holdoverExpiry_of_due {d : Dev} (hl : d.time.lock = .holdover) (hd : 250 ≤ d.time.holdMs) :
    d.holdoverExpiry = { d with time := d.time.free } := by
  simp [Dev.holdoverExpiry, hl, hd, Dev.onTime]

/-! ### The time registers (R55, R56) -/

/-- The upper 16 bits of the milestone count. -/
theorem ofNat_count_high (c : BitVec 48) : BitVec.ofNat 16 (c.toNat / 2 ^ 32) = (c >>> 32).setWidth 16 := by
  apply BitVec.eq_of_toNat_eq
  simp [Nat.shiftRight_eq_div_pow]

theorem msLoRead_eq (d : Dev) (who : Fin 17) (frac : BitVec 16) :
    d.msLoRead who frac = { d with time := { d.time with
      latchHi := d.time.latchHi.set who ((d.time.count >>> 32).setWidth 16)
      latchWm := d.time.latchWm.set who (BitVec.ofNat 32 (frac.toNat + d.time.wm * 65536)) } } := by
  rw [← ofNat_count_high]
  rfl

theorem siOfsWrite_of_junction {d : Dev} (hi : Word) (hj : d.junction = true) :
    d.siOfsWrite hi = { d with time := { d.time with siOfs := hi ++ d.time.siOfsLoHeld, siValid := true } } := by
  simp [Dev.siOfsWrite, hj, Dev.onTime]

/-! ### The checkpoint of the network number and the end of BEACON (R25, R55) -/

/-- The newest value of a group is that of the write queued last. -/
theorem queuedGroup_append_imm (g : Nat) (b : List Byte) (host : Bool) (q : List LarderWrite) :
    queuedGroup g (q ++ [.imm g b host]) = some b := by
  induction q with
  | nil => simp [queuedGroup]
  | cons w ws ih => simp [queuedGroup, ih]

/-- A group that has not failed holds what was written to it. -/
theorem group_writeImm_same {s : StoreState} {g : Nat} (b : List Byte) (hf : s.failed.contains g = false) :
    (s.writeImm g b).group g = b := by
  simp only [StoreState.writeImm, StoreState.writeImmBy, hf, Bool.false_eq_true, if_false, StoreState.group,
    queuedGroup_append_imm]
  simp

theorem netCheckpoint_of_due {d : Dev} (hj : d.junction = true) (hv : d.time.netValid = true)
    (hm : d.netMs % 65536 = 0) :
    d.netCheckpoint = d.onStore fun s => s.writeImm 0x82 (leBytes 6 d.netMs ++ [0, 0]) := by
  simp [Dev.netCheckpoint, hj, hv, hm]

/-- A checkpoint raises no event. -/
theorem logged_netCheckpoint {d : Dev} (h : Logged d) : Logged d.netCheckpoint := by
  unfold Dev.netCheckpoint
  split
  · exact (congrArg StoreState.logPend (writeImm_keeps _ _ _)).trans h
  · exact h

theorem beaconTimeout_clears {d : Dev} (h : 50 ≤ d.time.beaconAge) : d.beaconTimeout.time.beacon = false := by
  unfold Dev.beaconTimeout
  rw [if_pos h]
  dsimp only
  split <;> rfl

end Sys2Proof.Laws

namespace Sys2Proof.Proofs

open Sys2Proof.Machine Sys2Proof.Safety Sys2Proof.Laws

/-- Settles O17. An accepted crossing changes the record of its own input, which the lock's step leaves as it is. What is too early
is judged by the last period in range (log 154). -/
theorem crossingsAndLock : Obligations.CrossingsAndLock := by
  unfold Obligations.CrossingsAndLock
  intro s hl
  refine ⟨?crossing, fun i hk hs hm => ?timeout, fun hk hd => ?expiry⟩
  case crossing =>
    rintro i at' stamp high last hz hh rfl hlt hm hi
    refine completes_of_act rfl ?_
    have hzc : (s.dev.zcCrossing i at' high).time.zc =
        s.dev.time.zc.set i (ZcInput.crossed s.dev.time.zc[i] (s.dev.time.zcStamp at')) := by
      rw [zcCrossing_accepted hz hh hlt hm hi, Dev.onTime_time, lockStep_zc, stampZc_zc]
    simp only [Dev.settle_time, logFlush_time, hzc]
    refine ⟨?_, zcStamp_bounds, ?_, ?_, fun j hj => ?_⟩
    · simp [ZcInput.crossed]
    · have hz' : (s.dev.time.zc[i.val]).last = some last := hz
      simp [ZcInput.crossed, hz']
    · simp [ZcInput.crossed]
    · have hne : i.val ≠ j.val := fun h => hj (Fin.ext h.symm)
      simp [hne]
  case timeout => exact completes_of_act rfl (zcTimeout_of_source hk hs hm)
  case expiry => exact becomes_of_quiet rfl (holdoverExpiry_of_due hk hd) hl rfl

/-- Settles O19. Each read writes its accessor's latches alone (R56); the checkpoint is the newest write of its group (R55); BEACON
clears with the age of the last locked beacon (R25, R394). -/
theorem timeReadAndKept : Obligations.TimeReadAndKept := by
  unfold Obligations.TimeReadAndKept
  constructor
  · intro s hl
    refine ⟨fun who frac => ⟨?msLo, ?siLo⟩, fun hi hr hc => ?siOfs⟩
    case msLo => exact becomes_of_quiet rfl (msLoRead_eq s.dev who frac) hl rfl
    case siLo => exact becomes_of_quiet rfl (rfl : s.dev.siLoRead who frac = _) hl rfl
    case siOfs =>
      have hj : s.dev.junction = true := by simp [Dev.junction, hr, hc]
      exact becomes_of_quiet rfl (siOfsWrite_of_junction hi hj) hl rfl
  · intro s hl
    refine ⟨fun hj hv hm hf => completes_of_act rfl ?checkpoint, fun hb => completes_of_act rfl ?beacon⟩
    case checkpoint =>
      rw [logFlush_logged (logged_netCheckpoint hl), Dev.settle_store, netCheckpoint_of_due hj hv hm]
      exact group_writeImm_same _ hf
    case beacon =>
      rw [Dev.settle_time, logFlush_time]
      exact beaconTimeout_clears hb

end Sys2Proof.Proofs

/-! ## What frames of the network change (R55, R394, R396, R407, R409, R432) -/

namespace Sys2Proof.Laws

open Sys2Proof.Machine Sys2Proof.Safety

/-! ### The MAC changes the Line alone -/

/-- Nothing but the Line differs. -/
def OnlyLine (d e : Dev) : Prop := ∃ l, e = { d with line := l }

theorem OnlyLine.refl (d : Dev) : OnlyLine d d := ⟨d.line, rfl⟩

theorem OnlyLine.trans {a b c : Dev} (h : OnlyLine a b) (k : OnlyLine b c) : OnlyLine a c := by
  obtain ⟨l, rfl⟩ := h
  obtain ⟨m, rfl⟩ := k
  exact ⟨m, rfl⟩

theorem OnlyLine.time {d e : Dev} (h : OnlyLine d e) : e.time = d.time := by
  obtain ⟨l, rfl⟩ := h
  rfl

theorem OnlyLine.seat {d e : Dev} (h : OnlyLine d e) : e.seat = d.seat := by
  obtain ⟨l, rfl⟩ := h
  rfl

theorem OnlyLine.netMs {d e : Dev} (h : OnlyLine d e) : e.netMs = d.netMs := by
  obtain ⟨l, rfl⟩ := h
  rfl

theorem onlyLine_onLine (d : Dev) (f : LineState → LineState) : OnlyLine d (d.onLine f) := ⟨f d.line, rfl⟩

/-- A frame queued, or counted as too long. -/
theorem onlyLine_enqueue (d : Dev) (q : QFrame) : OnlyLine d (d.enqueue q) := by
  unfold Dev.enqueue
  dsimp only
  split <;> exact onlyLine_onLine _ _

theorem onlyLine_nextEseq (d : Dev) : OnlyLine d d.nextEseq.1 := ⟨_, rfl⟩

theorem onlyLine_askMap (d : Dev) (n : Nat) : OnlyLine d (d.askMap n) := by
  unfold Dev.askMap
  exact (onlyLine_nextEseq d).trans (onlyLine_enqueue _ _)

theorem onlyLine_mapFor (d : Dev) (n : Nat) : OnlyLine d (d.mapFor n) := by
  unfold Dev.mapFor
  extract_lets has
  split
  · exact OnlyLine.refl d
  · exact onlyLine_askMap d n

theorem onlyLine_sendRouted (d : Dev) (q : QFrame) (robust : Bool) : OnlyLine d (d.sendRouted q robust) := by
  unfold Dev.sendRouted
  split
  · exact onlyLine_onLine _ _
  · exact ((onlyLine_mapFor d _).trans (onlyLine_enqueue _ _)).trans (onlyLine_onLine _ _)

theorem onlyLine_sendTo (d : Dev) (ftype place fdst : Nat) (body : List Byte) (robust : Bool) :
    OnlyLine d (d.sendTo ftype place fdst body robust) :=
  (onlyLine_nextEseq d).trans (onlyLine_sendRouted _ _ _)

theorem onlyLine_sendTunnel (d : Dev) (dst ch kind : Nat) (inner : List Byte) :
    OnlyLine d (d.sendTunnel dst ch kind inner) := onlyLine_sendTo _ _ _ _ _ _

theorem onlyLine_joinReq (d : Dev) : OnlyLine d d.joinReq := by
  unfold Dev.joinReq
  exact (onlyLine_sendTo _ _ _ _ _ _).trans (onlyLine_onLine _ _)

theorem onlyLine_chooseParent (d : Dev) : OnlyLine d d.chooseParent := by
  unfold Dev.chooseParent
  split
  · exact OnlyLine.refl d
  · split
    · exact onlyLine_onLine _ _
    · dsimp only
      split
      · exact ((onlyLine_onLine _ _).trans (onlyLine_onLine _ _)).trans (onlyLine_joinReq _)
      · exact onlyLine_onLine _ _

theorem onlyLine_offerMap (d : Dev) (n : Nat) (snr : List Int) : OnlyLine d (d.offerMap n snr) := by
  unfold Dev.offerMap
  dsimp only
  split
  · exact (onlyLine_nextEseq d).trans (onlyLine_enqueue _ _)
  · exact ((onlyLine_nextEseq d).trans (onlyLine_onLine _ _)).trans (onlyLine_enqueue _ _)

theorem onlyLine_accept (d : Dev) (m : Mac) (f : RxFrame) : OnlyLine d (d.accept m f) := by
  unfold Dev.accept
  extract_lets l1 l2 l3 low run
  split
  · split
    · exact OnlyLine.trans ⟨_, rfl⟩ (onlyLine_offerMap _ _ _)
    · exact ⟨_, rfl⟩
  · exact ⟨_, rfl⟩

theorem onlyLine_sendAck (d : Dev) (m : Mac) (f : RxFrame) : OnlyLine d (d.sendAck m f) := by
  unfold Dev.sendAck
  exact ((onlyLine_mapFor d m.lsrc).trans (onlyLine_nextEseq _)).trans (onlyLine_enqueue _ _)

theorem onlyLine_forward (d : Dev) (m : Mac) : OnlyLine d (d.forward m) := by
  unfold Dev.forward
  split
  · exact onlyLine_onLine _ _
  · extract_lets place robust q as idx
    split
    · exact (onlyLine_sendRouted _ _ _).trans (onlyLine_onLine _ _)
    · exact onlyLine_sendRouted _ _ _

/-- A frame that ends at the pin is delivered or dropped in the Line alone. -/
theorem onlyLine_received (e : RxEnd) (d : Dev) : OnlyLine d (d.received e).1 := by
  unfold Dev.received
  split
  · exact OnlyLine.refl d
  · split
    · exact OnlyLine.refl d
    · split <;> exact ⟨_, rfl⟩

theorem onlyLine_ite {α : Type} {c : Prop} [Decidable c] {d : Dev} {x y : Dev × α} (hx : OnlyLine d x.1)
    (hy : OnlyLine d y.1) : OnlyLine d (if c then x else y).1 := by
  split
  · exact hx
  · exact hy

/-- The MAC checks, accepts, acknowledges and forwards a delivered frame in the Line alone. -/
theorem onlyLine_deliver (ftype : Nat) (f : RxFrame) (d : Dev) : OnlyLine d (d.deliver ftype f).1 := by
  unfold Dev.deliver
  refine onlyLine_ite (OnlyLine.refl d) ?keyed
  split
  · exact ⟨_, rfl⟩
  · refine onlyLine_ite ⟨_, rfl⟩ (onlyLine_ite (OnlyLine.refl d) (onlyLine_ite (OnlyLine.refl d) ?forThis))
    extract_lets n
    split
    · exact ⟨_, rfl⟩
    · extract_lets m old d2 d3
      have h3 : OnlyLine d d3 := by
        refine (onlyLine_accept d m f).trans ?_
        dsimp only [d3]
        split
        · exact onlyLine_sendAck _ _ _
        · exact OnlyLine.refl _
      have hforward : OnlyLine d (d3.forward m) := h3.trans (onlyLine_forward _ _)
      exact onlyLine_ite ⟨_, rfl⟩ (onlyLine_ite h3 (onlyLine_ite h3 (onlyLine_ite hforward h3)))

theorem onlyLine_receive (ftype : Nat) (e : RxEnd) (d : Dev) : OnlyLine d (d.receive ftype e).1 := by
  have h := onlyLine_received e d
  unfold Dev.receive
  split
  next d1 hr => simpa [hr] using h
  next d1 f hr =>
    have h1 : OnlyLine d d1 := by simpa [hr] using h
    exact h1.trans (onlyLine_deliver _ _ _)

/-! ### The frames that a relay repeats (R401) -/

@[simp] theorem enqueue_courierIn (d : Dev) (q : QFrame) : (d.enqueue q).line.courierIn = d.line.courierIn := by
  unfold Dev.enqueue
  dsimp only
  split <;> rfl

/-- A broadcast repeated or not, the contributions that wait stay. -/
@[simp] theorem repeatBroadcast_courierIn (d : Dev) (m : Mac) :
    (d.repeatBroadcast m).line.courierIn = d.line.courierIn := by
  unfold Dev.repeatBroadcast
  extract_lets seen
  split
  · rfl
  split
  · rfl
  · exact enqueue_courierIn _ _

/-! ### Beacons (R55, R394) -/

theorem onlyLine_planRepeat (d : Dev) (b : Beacon) : OnlyLine d (d.planRepeat b) := by
  unfold Dev.planRepeat
  extract_lets base drop
  split
  · exact onlyLine_onLine _ _
  split
  · exact onlyLine_onLine _ _
  · exact OnlyLine.refl d

/-- The discipline of the phase leaves the network time as it is. -/
theorem discipline_keeps (t : TimeState) (err : Int) : (t.discipline err).netOfs = t.netOfs ∧
    (t.discipline err).netValid = t.netValid ∧ (t.discipline err).junctionAge = t.junctionAge := by
  unfold TimeState.discipline
  extract_lets a
  split
  · exact ⟨rfl, rfl, rfl⟩
  split <;> exact ⟨rfl, rfl, rfl⟩

/-- The network offset that a beacon gives: its number less that of the local milestone that starts nearest to its
sender's. -/
def beaconOffset (d : Dev) (b : Beacon) (f : RxFrame) : BitVec 48 :=
  BitVec.ofInt 48 ((b.ms : Int) -
    ((d.ms : Int) + divRoundUp (d.senderStart b f - (d.time.msStart : Int)) (max d.time.msLen 1)))

/-- The network time of a member that has accepted a beacon. -/
theorem memberBeacon_time (d : Dev) (b : Beacon) (f : RxFrame) :
    (d.memberBeacon b f).time.netValid = true ∧ (d.memberBeacon b f).time.junctionAge = 0 ∧
      (d.memberBeacon b f).time.netOfs = beaconOffset d b f ∧
      (b.locked = true → (d.memberBeacon b f).time.beacon = true ∧ (d.memberBeacon b f).time.beaconAge = 0) := by
  unfold Dev.memberBeacon
  extract_lets off near ofs old t1 disciplined t2 l1 d1 d2
  have hd2 : d2.time = t2 := (onlyLine_chooseParent d1).time
  have ht2 : t2.netValid = true ∧ t2.junctionAge = 0 ∧ t2.netOfs = beaconOffset d b f ∧
      (b.locked = true → t2.beacon = true ∧ t2.beaconAge = 0) := by
    dsimp only [t2]
    split
    case isTrue =>
      obtain ⟨hofs, hvalid, hage⟩ := discipline_keeps t1 (d.beaconError b f)
      exact ⟨hvalid, hage, hofs, fun _ => ⟨rfl, rfl⟩⟩
    case isFalse h => exact ⟨rfl, rfl, rfl, fun hb => absurd hb h⟩
  rw [← hd2] at ht2
  split
  · rw [((onlyLine_onLine d2 _).trans (onlyLine_joinReq _)).time]
    exact ht2
  · exact ht2

/-- A member takes a beacon of its network that opens under its key. -/
theorem rxBeacon_of_member {e : RxEnd} {d d0 : Dev} {f : RxFrame} {b : Beacon} {x : List Byte}
    (hr : d.received e = (d0, some f)) (hk : d.line.key.all (· == 0) = false) (hp : parseBeacon f.bytes = some b)
    (hn : b.netId = d.line.params.netId.toNat)
    (ho : ccmOpen d.line.key (beaconNonce (f.bytes.take (f.bytes.length - 8))) (f.bytes.take (f.bytes.length - 8)) []
      (f.bytes.drop (f.bytes.length - 8)) = some x)
    (hj : d.junction = false) : d.rxBeacon e = (d0.memberBeacon b f).planRepeat b := by
  simp only [Dev.rxBeacon, hr, hk, hp, hn, ho, hj, bne_self_eq_false, Bool.false_eq_true, if_false]

/-! ### TIME frames (R396) -/

/-- A TIME frame whose milestone this member has on record gives it its SI offset. -/
theorem rxTime_of_member {e : RxEnd} {d d1 : Dev} {f : RxFrame} {m : Mac} {own : Nat}
    (hr : d.receive 2 e = (d1, some (f, m))) (hlen : m.body.length = 14) (hj : d.junction = false)
    (hv : d.time.netValid = true)
    (ho : d.time.starts[(d.ms + 2 ^ 48 - (leAt m.body 0 6 + 2 ^ 48 - d.time.netOfs.toNat) % 2 ^ 48) % 2 ^ 48]? = some own) :
    (d.rxTime e).time.siValid = true ∧
      (d.rxTime e).time.siOfs = BitVec.ofInt 64 ((leAt m.body 6 8 : Int) - ((own / 1000 : Nat) : Int)) := by
  simp only [Dev.rxTime, hr, hlen, hj, hv, ho, bne_self_eq_false, Bool.not_true, Bool.or_self, Bool.false_eq_true,
    if_false, Option.map_some, and_self]

/-! ### Contributions (R407, R409) -/

/-- A COURIER frame that holds as many values as its producer has elements in the group waits for step 7. -/
theorem rxCourier_of_producer {e : RxEnd} {d d1 : Dev} {f : RxFrame} {m : Mac} {x : GroupDecl}
    (hr : d.receive 8 e = (d1, some (f, m))) (hg : d.image.group (byteAt m.body 0) = some x) (hc : x.convoy = false)
    (he : x.elemsOf m.osrc ≠ []) (hlen : m.body.length = 3 + 4 * (x.elemsOf m.osrc).length) :
    (d.rxCourier e).line.courierIn = d1.line.courierIn ++
      [(byteAt m.body 0, m.osrc, leAt m.body 1 2, wordsOf (m.body.drop 3))] := by
  have hsome : (x.elemsOf m.osrc).isEmpty = false := by simpa using he
  simp only [Dev.rxCourier, hr, hg, hc, hsome, hlen, bne_self_eq_false, Bool.or_self, Bool.false_eq_true, if_false,
    Dev.onLine_line, repeatBroadcast_courierIn]

/-- A CONVOY body of one group with its producer's values and nothing behind them. -/
theorem convoyParts_single {im : Image} {p : Nat} {g : BitVec 8} {x : GroupDecl} {vs : List Byte} (k : Nat)
    (hg : im.group g.toNat = some x) (hv : vs.length = 4 * (x.elemsOf p).length) :
    convoyParts im p (k + 2) (g :: vs) = [(g.toNat, x, wordsOf vs)] := by
  simp [convoyParts, hg, ← hv]

/-- The contribution of one convoy group is kept for the next milestone of its group, which it is stamped for. -/
theorem rxConvoy_of_producer {e : RxEnd} {d d1 : Dev} {f : RxFrame} {m : Mac} {g : BitVec 8} {x : GroupDecl}
    {vs : List Byte} (hr : d.receive 9 e = (d1, some (f, m))) (hg : d.image.group g.toNat = some x)
    (hc : x.convoy = true) (hv : vs.length = 4 * (x.elemsOf m.osrc).length)
    (hb : m.body = leBytes 2 (x.nextDue d.netMs % 65536) ++ g :: vs) :
    d.rxConvoy e = { d1 with line := { d1.line with
      convoyIn := d1.line.convoyIn ++ [(g.toNat, m.osrc, x.nextDue d.netMs, wordsOf vs)] } } := by
  have hstamp : leAt m.body 0 2 = x.nextDue d.netMs % 65536 := by
    rw [hb, leAt_leBytes]
    omega
  have hrest : m.body.drop 2 = g :: vs := by
    rw [hb]
    exact List.drop_left' (leBytes_length 2 _)
  simp only [Dev.rxConvoy, hr, hstamp, hrest, convoyParts_single 254 hg hv]
  simp [hc, Dev.onLine]

/-! ### Tunnels (R432) -/

@[simp] theorem settle_holder (b d : Dev) : (Dev.settle b d).seat.holder = d.seat.holder := rfl
@[simp] theorem settle_priv (b d : Dev) : (Dev.settle b d).seat.priv = d.seat.priv := rfl

/-- A request from the junction is judged as its remote host's and answered through the tunnel. -/
theorem rxTunnel_of_request {e : RxEnd} {env : SeatEnv} {d d1 : Dev} {f : RxFrame} {m : Mac} {ch : BitVec 8}
    {inner : List Byte} {cmd : Nat} {q : SeatReq} (hr : d.receive 10 e = (d1, some (f, m))) (ho : m.osrc = 0)
    (hb : m.body = ch :: 1 :: inner) (hp : parseRequest inner = some (cmd, q)) :
    d.rxTunnel e env = (d1.seatAny (.remote ch.toNat) cmd q env).2.sendTunnel 0 ch.toNat 2
      (d1.seatAny (.remote ch.toNat) cmd q env).1.bytes := by
  simp [Dev.rxTunnel, hr, ho, hb, hp, byteAt]

/-- A close from the junction frees the seat that its channel holds. -/
theorem rxTunnel_of_close {e : RxEnd} {env : SeatEnv} {d d1 : Dev} {f : RxFrame} {m : Mac} {ch : BitVec 8}
    (hr : d.receive 10 e = (d1, some (f, m))) (ho : m.osrc = 0) (hb : m.body = [ch, 3])
    (hh : d1.seat.holder = .remote ch.toNat) : d.rxTunnel e env = d1.onSeat SeatState.freed := by
  simp [Dev.rxTunnel, hr, ho, hb, byteAt, Dev.tunClosed, hh]

end Sys2Proof.Laws

namespace Sys2Proof.Proofs

open Sys2Proof.Machine Sys2Proof.Safety Sys2Proof.Laws

/-- Settles O47. The MAC's own work changes the Line alone, so that a frame finds the time and the seat as they
were. That every accepted beacon, LOCKED or not, returns the age of the junction to 0 is log 56. -/
theorem networkFramesTakeEffect : Obligations.NetworkFramesTakeEffect := by
  unfold Obligations.NetworkFramesTakeEffect
  intro e f env s d1 m d
  refine ⟨?beacon, ?time, ?courier, ?convoy, ?tunnel⟩
  case beacon =>
    intro b x d0 hr hk hp hn ho hj
    have hd0 : OnlyLine d d0 := by simpa [hr] using onlyLine_received e d
    obtain ⟨l, rfl⟩ := hd0
    refine completes_of_act rfl ?_
    rw [Dev.settle_time, logFlush_time, rxBeacon_of_member hr hk hp hn ho hj, (onlyLine_planRepeat _ b).time]
    exact memberBeacon_time _ b f
  case time =>
    intro own hr hlen hj hv ho
    refine completes_of_act rfl ?_
    rw [Dev.settle_time, logFlush_time]
    exact rxTime_of_member hr hlen hj hv ho
  case courier =>
    intro x hr hg hc he hlen
    refine completes_of_act rfl ?_
    rw [Dev.settle_line, logFlush_line]
    exact rxCourier_of_producer hr hg hc he hlen
  case convoy =>
    intro g x vs hr hg hc hv hb
    have hnet : d1.netMs = d.netMs := by simpa [hr] using (onlyLine_receive 9 e d).netMs
    rw [hnet] at hb ⊢
    refine completes_of_act rfl ?_
    rw [Dev.settle_line, logFlush_line, rxConvoy_of_producer hr hg hc hv hb]
  case tunnel =>
    intro ch hr ho
    constructor
    case left =>
      intro inner cmd q hb hp out
      refine completes_of_act rfl ?_
      rw [rxTunnel_of_request hr ho hb hp]
      have hseat := (onlyLine_sendTunnel out.2 0 ch.toNat 2 out.1.bytes).seat
      rw [Dev.settle_line, logFlush_line, settle_holder, settle_priv, logFlush_seat, hseat]
      exact ⟨rfl, rfl, rfl⟩
    case right =>
      intro hb hh
      refine completes_of_act rfl ?_
      rw [rxTunnel_of_close hr ho hb hh, settle_holder, settle_priv, logFlush_seat]
      exact ⟨rfl, rfl⟩

end Sys2Proof.Proofs

namespace Sys2Proof.Laws

open Sys2Proof.Machine Sys2Proof.Safety

/-! ## What keeps the power state

Of all that the device does only the domain switching, the requests for it, the resets and the readings of the core
voltages touch `Dev.power`. A lemma `f_power` says so of each other function, in the order of the model, so that
`simp` carries the power state through any composition of them. The ones that hold by computation are proved `by rfl`:
`simp` then keeps a proof of each, which the hypothesis of `foldl_power` asks for. -/

/-! ### Choices, folds and frames -/

@[simp] theorem power_ite (c : Prop) [Decidable c] (a b : Dev) :
    (if c then a else b).power = if c then a.power else b.power := apply_ite Dev.power c a b

@[simp] theorem foldl_power {α : Type} {f : Dev → α → Dev} (hf : ∀ d a, (f d a).power = d.power)
    (l : List α) (d : Dev) : (l.foldl f d).power = d.power := by
  induction l generalizing d with
  | nil => rfl
  | cons a l ih => exact (ih _).trans (hf d a)

theorem OnlyLine.power {d e : Dev} (h : OnlyLine d e) : e.power = d.power := by
  obtain ⟨l, rfl⟩ := h
  rfl

theorem foldl_snd_power {α β : Type} {f : β × Dev → α → β × Dev} (hf : ∀ x a, (f x a).2.power = x.2.power)
    (l : List α) (x : β × Dev) : (l.foldl f x).2.power = x.2.power := by
  induction l generalizing x with
  | nil => rfl
  | cons a l ih => exact (ih _).trans (hf x a)

theorem foldl_fst_power {α β : Type} {f : Dev × β → α → Dev × β} (hf : ∀ x a, (f x a).1.power = x.1.power)
    (l : List α) (x : Dev × β) : (l.foldl f x).1.power = x.1.power := by
  induction l generalizing x with
  | nil => rfl
  | cons a l ih => exact (ih _).trans (hf x a)

/-! ### Events, lost and retired groups -/

@[simp] theorem attnStore_power (d : Dev) : d.attnStore.power = d.power := by rfl

@[simp] theorem event_power (d : Dev) (code subject detail tag aux : Nat) :
    (d.event code subject detail tag aux).power = d.power := by rfl

@[simp] theorem uncorrPot_power (d : Dev) (kind p aux : Nat) : (d.uncorrPot kind p aux).power = d.power := by
  simp [Dev.uncorrPot]

@[simp] theorem uncorrShared_power (d : Dev) (kind aux : Nat) : (d.uncorrShared kind aux).power = d.power := by rfl

@[simp] theorem onRegion_power (d : Dev) (g : Nat) (f : RegionStat → RegionStat) :
    (d.onRegion g f).power = d.power := by
  unfold Dev.onRegion
  split <;> simp

@[simp] theorem countWear_power (d : Dev) (g : Nat) : (d.countWear g).power = d.power := by
  simp [Dev.countWear]

@[simp] theorem cellWrite_power (d : Dev) (g : Nat) (b : List Byte) : (d.cellWrite g b).power = d.power := by
  simp [Dev.cellWrite]

@[simp] theorem retireGroup_power (d : Dev) (g cause : Nat) : (d.retireGroup g cause).power = d.power := by
  simp [Dev.retireGroup]

@[simp] theorem loseGroup_power (d : Dev) (g : Nat) : (d.loseGroup g).power = d.power := by
  simp [Dev.loseGroup]

@[simp] theorem larderFindBy_power (d : Dev) (g : Nat) (e : EccFind) (mate : Bool) :
    (d.larderFindBy g e mate).power = d.power := by
  fun_cases Dev.larderFindBy d g e mate <;> simp +zetaDelta [Dev.remapFind]

@[simp] theorem larderFind_power (d : Dev) (g : Nat) (e : EccFind) : (d.larderFind g e).power = d.power := by
  simp [Dev.larderFind]

@[simp] theorem larderReads_power (finds : List (Nat × EccFind)) (d : Dev) :
    (d.larderReads finds).power = d.power := by
  simp [Dev.larderReads]

@[simp] theorem markLostRead_power (d : Dev) (g : Nat) : (d.markLostRead g).power = d.power := by
  simp [Dev.markLostRead]

@[simp] theorem recordRetirement_power (d : Dev) (kind unit cause : Nat) :
    (d.recordRetirement kind unit cause).power = d.power := by rfl

/-! ### The Line: reception, its rate -/

@[simp] theorem readHeader_power (d : Dev) (p : PreambleEnv) : (d.readHeader p).power = d.power := by
  fun_cases Dev.readHeader d p <;> simp +zetaDelta [Dev.beginRx]

@[simp] theorem preamble_power (p : PreambleEnv) (d : Dev) : (d.preamble p).power = d.power := by
  fun_cases Dev.preamble p d <;> simp

@[simp] theorem received_power (e : RxEnd) (d : Dev) :
    (d.received e).1.power = d.power := (onlyLine_received e d).power

@[simp] theorem phyCfgApply_power (d : Dev) : d.phyCfgApply.power = d.power := by
  unfold Dev.phyCfgApply
  split <;> simp

@[simp] theorem retimeTx_power (d : Dev) : d.retimeTx.power = d.power := by
  fun_cases Dev.retimeTx d <;> simp +zetaDelta

/-! ### Frames for the network -/

@[simp] theorem enqueue_power (d : Dev) (q : QFrame) : (d.enqueue q).power = d.power := (onlyLine_enqueue d q).power

@[simp] theorem nextEseq_power (d : Dev) : d.nextEseq.1.power = d.power := (onlyLine_nextEseq d).power

@[simp] theorem askMap_power (d : Dev) (n : Nat) : (d.askMap n).power = d.power := (onlyLine_askMap d n).power

@[simp] theorem mapFor_power (d : Dev) (n : Nat) : (d.mapFor n).power = d.power := (onlyLine_mapFor d n).power

@[simp] theorem sendBroadcast_power (d : Dev) (ftype place : Nat) (mode : LineMode) (body : List Byte) :
    (d.sendBroadcast ftype place mode body).power = d.power := by
  simp [Dev.sendBroadcast]

@[simp] theorem sendRouted_power (d : Dev) (q : QFrame) (r : Bool) : (d.sendRouted q r).power = d.power :=
  (onlyLine_sendRouted d q r).power

@[simp] theorem joinReq_power (d : Dev) : d.joinReq.power = d.power := (onlyLine_joinReq d).power

@[simp] theorem chooseParent_power (d : Dev) : d.chooseParent.power = d.power := (onlyLine_chooseParent d).power

@[simp] theorem offerMap_power (d : Dev) (n : Nat) (snr : List Int) : (d.offerMap n snr).power = d.power :=
  (onlyLine_offerMap d n snr).power

/-! ### The building bus -/

@[simp] theorem busSay_power (d : Dev) (mac : Nat) (m : BacMsg) : (d.busSay mac m).power = d.power := by
  simp [Dev.busSay]

@[simp] theorem readProperty_power (mac invoke : Nat) (r : BacRef) (d : Dev) :
    (d.readProperty mac invoke r).power = d.power := by
  unfold Dev.readProperty
  split <;> simp

@[simp] theorem writeProperty_power (mac invoke : Nat) (r : BacRef) (v : BacValue) (d : Dev) :
    (d.writeProperty mac invoke r v).power = d.power := by
  fun_cases Dev.writeProperty mac invoke r v d <;> simp +zetaDelta

@[simp] theorem whoHas_power (key : WhoHasKey) (d : Dev) : (d.whoHas key).power = d.power := by
  fun_cases Dev.whoHas key d <;> simp

@[simp] theorem subscribeCov_power (mac invoke process type inst lifetime : Nat) (confirmed : Bool) (d : Dev) :
    (d.subscribeCov mac invoke process type inst lifetime confirmed).power = d.power := by
  unfold Dev.subscribeCov
  split <;> simp

@[simp] theorem busRelease_power (d : Dev) : d.busRelease.power = d.power := by
  unfold Dev.busRelease
  split
  · rfl
  · exact foldl_power (fun d s => by split <;> simp) _ _

@[simp] theorem busStart_power (d : Dev) : d.busStart.power = d.power := by
  simp [Dev.busStart]

@[simp] theorem busStop_power (d : Dev) : d.busStop.power = d.power := by rfl

/-! ### Input elements and captures -/

@[simp] theorem setInput_power (d : Dev) (ch el : Nat) (v : Word) : (d.setInput ch el v).power = d.power := by rfl

@[simp] theorem setInputs_power (d : Dev) (ch el : Nat) (vs : List Word) :
    (d.setInputs ch el vs).power = d.power := by
  simp [Dev.setInputs]

@[simp] theorem capture_power (d : Dev) (stream stamp : Nat) (rise : Bool) :
    (d.capture stream stamp rise).power = d.power := by rfl

/-! ### Converters, scripts and crossings -/

@[simp] theorem onSlot_power (d : Dev) (n : Nat) (f : Slot → Slot) : (d.onSlot n f).power = d.power := by rfl

@[simp] theorem onConv_power (d : Dev) (c : Nat) (f : Converter → Converter) :
    (d.onConv c f).power = d.power := by rfl

@[simp] theorem loadConverters_power (d : Dev) : d.loadConverters.power = d.power := by rfl

@[simp] theorem retireSlice_power (d : Dev) (c k cause : Nat) : (d.retireSlice c k cause).power = d.power := by
  simp [Dev.retireSlice]

@[simp] theorem calAttempt_power (d : Dev) (c k : Nat) (r : CalResult) : (d.calAttempt c k r).power = d.power := by
  simp [Dev.calAttempt]

@[simp] theorem calExchange_power (d : Dev) (c connect : Nat) : (d.calExchange c connect).power = d.power := by
  fun_cases Dev.calExchange d c connect <;> simp +zetaDelta

@[simp] theorem slotRun_power (d : Dev) (n : Nat) : (d.slotRun n).power = d.power := by
  fun_cases Dev.slotRun d n <;> simp

@[simp] theorem abortSlot_power (d : Dev) (n at' : Nat) : (d.abortSlot n at').power = d.power := by rfl

@[simp] theorem scriptStart_power (n : Fin 16) (d : Dev) : (d.scriptStart n).power = d.power := by
  fun_cases Dev.scriptStart n d <;> simp

@[simp] theorem scriptAbort_power (n : Fin 16) (d : Dev) : (d.scriptAbort n).power = d.power := by
  fun_cases Dev.scriptAbort n d <;> simp

@[simp] theorem advance_power (d : Dev) (n : Nat) (r : ScriptRun) : (d.advance n r).power = d.power := by rfl

@[simp] theorem pushEntry_power (d : Dev) (n : Nat) (t : Tick) (w : Word) :
    (d.pushEntry n t w).power = d.power := by rfl

@[simp] theorem setRun_power (d : Dev) (n : Nat) (r : ScriptRun) : (d.setRun n r).power = d.power := by rfl

@[simp] theorem pushSample_power (d : Dev) (n : Nat) (r : ScriptRun) (t : Tick) (v : SampleVal) :
    (d.pushSample n r t v).power = d.power := by rfl

@[simp] theorem scriptSample_power (n : Fin 16) (vs : List SampleIn) (d : Dev) :
    (d.scriptSample n vs).power = d.power := by
  fun_cases Dev.scriptSample n vs d <;> simp +zetaDelta

@[simp] theorem scriptAverage_power (n : Fin 16) (vs : List SampleIn) (d : Dev) :
    (d.scriptAverage n vs).power = d.power := by
  fun_cases Dev.scriptAverage n vs d <;> simp

@[simp] theorem scriptWait_power (n : Fin 16) (d : Dev) : (d.scriptWait n).power = d.power := by
  unfold Dev.scriptWait
  split <;> simp

@[simp] theorem scriptRepeat_power (n : Fin 16) (d : Dev) : (d.scriptRepeat n).power = d.power := by
  unfold Dev.scriptRepeat
  split <;> simp

@[simp] theorem scriptMark_power (n : Fin 16) (d : Dev) : (d.scriptMark n).power = d.power := by
  unfold Dev.scriptMark
  split <;> simp

@[simp] theorem scriptEnd_power (n : Fin 16) (d : Dev) : (d.scriptEnd n).power = d.power := by
  unfold Dev.scriptEnd
  split <;> simp

@[simp] theorem trigger_power (d : Dev) (g at' : Nat) : (d.trigger g at').power = d.power := by
  simp [Dev.trigger]

@[simp] theorem scriptFire_power (n : Fin 16) (d : Dev) : (d.scriptFire n).power = d.power := by
  unfold Dev.scriptFire
  split <;> simp

@[simp] theorem scriptGsample_power (n : Fin 16) (v : SampleIn) (d : Dev) :
    (d.scriptGsample n v).power = d.power := by
  fun_cases Dev.scriptGsample n v d <;> simp

@[simp] theorem loadGroups_power (d : Dev) : d.loadGroups.power = d.power := by rfl

@[simp] theorem putWorktop_power (d : Dev) (a : Nat) (b : List Byte) : (d.putWorktop a b).power = d.power := by rfl

@[simp] theorem ringWriteSlot_power (d : Dev) (n : Nat) : (d.ringWriteSlot n).power = d.power := by
  fun_cases Dev.ringWriteSlot d n <;> simp +zetaDelta [Dev.ringHeader]

@[simp] theorem slotsLeave_power (d : Dev) (p : Nat) : (d.slotsLeave p).power = d.power := by
  simp [Dev.slotsLeave]

@[simp] theorem slotsStart_power (d : Dev) (p : Nat) : (d.slotsStart p).power = d.power :=
  foldl_power (fun d n => by dsimp only; split <;> simp) _ _

@[simp] theorem waymarkStarts_power (d : Dev) (c : Nat) : (d.waymarkStarts c).power = d.power := by
  unfold Dev.waymarkStarts
  exact foldl_power (fun d n => by split <;> simp) _ _

@[simp] theorem onCx_power (d : Dev) (i : Nat) (f : Crossing → Crossing) : (d.onCx i f).power = d.power := by rfl

@[simp] theorem cxDrop_power (d : Dev) (i stamp : Nat) : (d.cxDrop i stamp).power = d.power := by
  simp [Dev.cxDrop]

@[simp] theorem cxApply_power (d : Dev) (a : Nat) (v : Word) : (d.cxApply a v).power = d.power := by
  simp [Dev.cxApply]

@[simp] theorem mandoPresent_power (d : Dev) : d.mandoPresent.power = d.power := by
  simp [Dev.mandoPresent]

@[simp] theorem cxAssert_power (d : Dev) (i stamp : Nat) : (d.cxAssert i stamp).power = d.power := by
  unfold Dev.cxAssert
  extract_lets d1 d2
  have h2 : d2.power = d1.power := foldl_power (fun d n => by split <;> simp) _ _
  simp [h2, d1]

@[simp] theorem convScriptsOff_power (d : Dev) (c at' : Nat) : (d.convScriptsOff c at').power = d.power := by
  simp [Dev.convScriptsOff]

/-! ### The larder and the code banks -/

@[simp] theorem storeRefuse_power (d : Dev) (op code : Nat) : (d.storeRefuse op code).power = d.power := by rfl

@[simp] theorem storeEnd_power (d : Dev) (op code : Nat) (point : Bool) :
    (d.storeEnd op code point).power = d.power := by rfl

@[simp] theorem storeEraseEnd_power (d : Dev) : d.storeEraseEnd.power = d.power := by
  unfold Dev.storeEraseEnd
  split <;> simp

@[simp] theorem storeWriteEnd_power (d : Dev) : d.storeWriteEnd.power = d.power := by
  unfold Dev.storeWriteEnd
  split <;> simp

@[simp] theorem abortBusy_power (d : Dev) (o : StoreOp) (words : Nat) : (d.abortBusy o words).power = d.power := by
  unfold Dev.abortBusy
  split <;> simp

@[simp] theorem storeErase_power (b : Bool) (d : Dev) : (d.storeErase b).power = d.power := by
  fun_cases Dev.storeErase b d <;> simp +zetaDelta

@[simp] theorem storeWrite_power (b : Bool) (d : Dev) : (d.storeWrite b).power = d.power := by
  fun_cases Dev.storeWrite b d <;> simp +zetaDelta

@[simp] theorem storeSeal_power (b : Bool) (d : Dev) : (d.storeSeal b).power = d.power := by
  fun_cases Dev.storeSeal b d <;> simp +zetaDelta

@[simp] theorem storeSwitch_power (b : Bool) (d : Dev) : (d.storeSwitch b).power = d.power := by
  fun_cases Dev.storeSwitch b d <;> simp +zetaDelta

@[simp] theorem storeAbort_power (words : Nat) (d : Dev) : (d.storeAbort words).power = d.power := by
  fun_cases Dev.storeAbort words d <;> simp +zetaDelta

@[simp] theorem txnBegin_power (d : Dev) : d.txnBegin.power = d.power := by
  fun_cases Dev.txnBegin d <;> simp +zetaDelta

@[simp] theorem txnWrite_power (d : Dev) : d.txnWrite.power = d.power := by
  fun_cases Dev.txnWrite d <;> simp +zetaDelta

@[simp] theorem txnCommit_power (d : Dev) : d.txnCommit.power = d.power := by
  fun_cases Dev.txnCommit d <;> simp +zetaDelta

@[simp] theorem storeProvision_power (priv : Bool) (d : Dev) : (d.storeProvision priv).power = d.power := by
  fun_cases Dev.storeProvision priv d <;> simp +zetaDelta

@[simp] theorem writeHome_power (d : Dev) (g : Nat) (b : List Byte) (ok host : Bool) :
    (d.writeHome g b ok host).power = d.power := by
  simp [Dev.writeHome]

@[simp] theorem hostLanded_power (d : Dev) : d.hostLanded.power = d.power := by
  fun_cases Dev.hostLanded d <;> simp

@[simp] theorem landFront_power (ok : Bool) (d : Dev) : (d.landFront ok).power = d.power := by
  fun_cases Dev.landFront ok d <;> simp +zetaDelta

@[simp] theorem landMany_power (worn : List Nat) (n : Nat) (d : Dev) : (Dev.landMany worn n d).power = d.power := by
  induction n generalizing d with
  | zero => rfl
  | succ n ih => rw [Dev.landMany, ih, landFront_power]

/-! ### Pantry words -/

@[simp] theorem fadeWord_power (b : Bool) (w : Nat) (d : Dev) : (d.fadeWord b w).power = d.power := by
  simp [Dev.fadeWord]

@[simp] theorem foundWord_power (b : Bool) (w : Nat) (d : Dev) : (d.foundWord b w).power = d.power := by
  simp [Dev.foundWord, Dev.reportWord]

@[simp] theorem fetchFail_power (d : Dev) (t : Fin 64) (w : Window) (ws : List Nat) :
    (d.fetchFail t w ws).power = d.power := by
  simp [Dev.fetchFail]

/-! ### The face -/

@[simp] theorem faceDraw_power (d : Dev) (ps : List (Nat × Nat)) : (d.faceDraw ps).power = d.power := by
  simp [Dev.faceDraw]

@[simp] theorem addMemFault_power (d : Dev) (p n : Nat) : (d.addMemFault p n).power = d.power := by rfl

@[simp] theorem opStart_power (d : Dev) (o : FaceOp) : (d.opStart o).1.power = d.power := by
  unfold Dev.opStart
  split <;> simp

@[simp] theorem faceStart_power (d : Dev) : d.faceStart.power = d.power := by
  unfold Dev.faceStart
  exact foldl_fst_power (fun x o => by split <;> simp) _ _

@[simp] theorem stencilEvent_power (op : Nat) (r : Fin 16) (d : Dev) : (d.stencilEvent op r).power = d.power := by rfl

@[simp] theorem opFinish_power (d : Dev) (o : FaceOp) : (d.opFinish o).power = d.power := by
  simp [Dev.opFinish]

@[simp] theorem faceComplete_power (d : Dev) : d.faceComplete.power = d.power := by
  unfold Dev.faceComplete
  extract_lets d1 r
  have hr : r.1.power = d1.power := foldl_fst_power (fun x o => by
    split
    · split <;> simp
    · rfl) _ _
  simp [hr, d1]

@[simp] theorem faceOpComplete_power (p : Fin 16) (d : Dev) : (d.faceOpComplete p).power = d.power := by
  unfold Dev.faceOpComplete
  split <;> simp

@[simp] theorem faceCommit_power (d : Dev) (p : Nat) (s : Staged) : (d.faceCommit p s).power = d.power := by
  simp -implicitDefEqProofs [Dev.faceCommit, Dev.stenCommit, Dev.rectCommit]

@[simp] theorem faceLeave_power (d : Dev) (p : Nat) : (d.faceLeave p).power = d.power :=
  foldl_power (fun d r => by split <;> simp) _ _

@[simp] theorem faceGains_power (d : Dev) : d.faceGains.power = d.power := by rfl

@[simp] theorem stressFlush_power (d : Dev) : d.stressFlush.power = d.power := by
  simp [Dev.stressFlush]

@[simp] theorem fvWrite_power (d : Dev) : d.fvWrite.power = d.power := by
  unfold Dev.fvWrite
  extract_lets c p ofs ended put d1 n d2
  have hput : ∀ d a bs, (put d a bs).power = d.power := fun d a bs => by
    dsimp only [put]
    split <;> rfl
  have h1 : d1.power = d.power := foldl_power (fun d r => hput d _ _) _ _
  simp [d2, hput, h1]

@[simp] theorem faceMilestone_power (n : Nat) (d : Dev) : (d.faceMilestone n).power = d.power := by
  simp [Dev.faceMilestone, Dev.faceTemp]

@[simp] theorem faceOff_power (d : Dev) : d.faceOff.power = d.power := by rfl

/-! ### Fans, actuators and outputs -/

@[simp] theorem onFanN_power (d : Dev) (f : Nat) (g : Fan → Fan) : (d.onFanN f g).power = d.power := by rfl

@[simp] theorem fanAssess_power (d : Dev) (f rpm drv : Nat) : (d.fanAssess f rpm drv).power = d.power := by
  simp [Dev.fanAssess]

@[simp] theorem fanMeasure_power (d : Dev) (f : Nat) (c : List Byte) : (d.fanMeasure f c).power = d.power := by
  unfold Dev.fanMeasure
  extract_lets lo hi d1 d2 x
  have h2 : d2.power = d.power := by
    dsimp only [d2]
    split
    · split <;> simp [d1]
    · simp [d1]
  simp [h2]

@[simp] theorem fanStep_power (d : Dev) (f : Nat) : (d.fanStep f).power = d.power := by
  simp [Dev.fanStep, Dev.fanDeliver]

@[simp] theorem pairOut_power (d : Dev) (k : Nat) : (d.pairOut k).power = d.power := by rfl

@[simp] theorem pairDecide_power (d : Dev) (k : Nat) : (d.pairDecide k).power = d.power := by rfl

@[simp] theorem fanPresent_power (d : Dev) : d.fanPresent.power = d.power := by
  simp -implicitDefEqProofs [Dev.fanPresent, Dev.aoStep, Dev.pairStep, Dev.doStep, Dev.fanIdle]

/-! ### Digital inputs, analogue scans and I²C -/

@[simp] theorem senseApply_power (old : List Byte) (d : Dev) : (d.senseApply old).power = d.power := by
  simp [Dev.senseApply, Dev.senseNoData]

@[simp] theorem senseImage_power (old : List Byte) (d : Dev) : (d.senseImage old).power = d.power := by
  simp [Dev.senseImage]

@[simp] theorem senseDeliver_power (d : Dev) : d.senseDeliver.power = d.power := by
  unfold Dev.senseDeliver
  split <;> simp [Dev.presenceStep]

@[simp] theorem sensePresent_power (d : Dev) : d.sensePresent.power = d.power :=
  foldl_power (fun d i => by split <;> simp) _ _

@[simp] theorem onI2c_power (d : Dev) (x : Nat) (f : I2cDev → I2cDev) : (d.onI2c x f).power = d.power := by rfl

@[simp] theorem i2cWriteEnd_power (d : Dev) (x : Nat) (e : I2cEnd) : (d.i2cWriteEnd x e).power = d.power := by rfl

@[simp] theorem i2cReadEnd_power (d : Dev) (x : Nat) (e : I2cEnd) : (d.i2cReadEnd x e).power = d.power := by rfl

theorem i2cPhase_power {f : Dev → Nat → I2cEnd → Dev} (hf : ∀ d x e, (f d x e).power = d.power)
    (xs : List Nat) (es : List I2cEnd) (dead : Bool) (d : Dev) : (Dev.i2cPhase f xs es dead d).power = d.power := by
  induction xs generalizing es dead d with
  | nil => rfl
  | cons x xs ih => exact (ih _ _ _).trans (hf d x _)

@[simp] theorem i2cWritePhase_power (es : List I2cEnd) (d : Dev) : (d.i2cWritePhase es).power = d.power := by
  unfold Dev.i2cWritePhase
  split
  · rfl
  · exact i2cPhase_power i2cWriteEnd_power _ _ _ _

@[simp] theorem i2cReadPhase_power (es : List I2cEnd) (d : Dev) : (d.i2cReadPhase es).power = d.power := by
  unfold Dev.i2cReadPhase
  split
  · rfl
  · exact (i2cPhase_power i2cReadEnd_power _ _ _ _).trans (foldl_power (fun d x => by split <;> simp) _ _)

@[simp] theorem i2cDeliver_power (d : Dev) : d.i2cDeliver.power = d.power := by
  unfold Dev.i2cDeliver
  exact foldl_power (fun d x => by dsimp only; split <;> simp) _ _

/-! ### Motor units -/

@[simp] theorem tripUnit_power (d : Dev) (u cause cx : Nat) : (d.tripUnit u cause cx).power = d.power := by
  simp [Dev.tripUnit]

@[simp] theorem loadWhisk_power (d : Dev) : d.loadWhisk.power = d.power := by
  simp [Dev.loadWhisk]

/-! ### Safe states and what a domain's power takes with it -/

@[simp] theorem writeSafe_power (d : Dev) (pick : Nat → Bool) : (d.writeSafe pick).power = d.power := by
  simp [Dev.writeSafe]

@[simp] theorem safeAll_power (d : Dev) : d.safeAll.power = d.power := by
  simp [Dev.safeAll]

@[simp] theorem safePot_power (d : Dev) (p : Nat) : (d.safePot p).power = d.power := by
  simp [Dev.safePot]

@[simp] theorem convLost_power (d : Dev) (c at' : Nat) : (d.convLost c at').power = d.power := by
  simp [Dev.convLost]

@[simp] theorem domainOff_power (d : Dev) (at' n : Nat) : (d.domainOff at' n).power = d.power := by
  simp [Dev.domainOff, Dev.convOff, Dev.whiskOff, Dev.frontsOff]

@[simp] theorem lineStart_power (d : Dev) : d.lineStart.power = d.power := by
  simp [Dev.lineStart]

@[simp] theorem afterConv_power (d e : Dev) (c at' : Nat) : (d.afterConv e c at').power = e.power := by
  simp [Dev.afterConv]

@[simp] theorem sliceStall_power (c : Fin 4) (k : Fin 9) (at' : Nat) (d : Dev) :
    (d.sliceStall c k at').power = d.power := by
  simp [Dev.sliceStall, Dev.stallSlice]

@[simp] theorem rotation_power (c : Fin 4) (e : CalEnv) (d : Dev) : (d.rotation c e).power = d.power := by
  rw [Dev.rotation, afterConv_power]
  fun_cases Dev.calRotation c e d <;> simp [Dev.freedAttempt, Dev.idleAttempt]

@[simp] theorem crossingAssert_power (i : Fin 16) (stamp level : Nat) (d : Dev) :
    (d.crossingAssert i stamp level).power = d.power := by
  simp [Dev.crossingAssert]

/-! ### Lanes -/

@[simp] theorem retireLane_power (d : Dev) (k cause served : Nat) :
    (d.retireLane k cause served).power = d.power := by rfl

@[simp] theorem laneFail_power (d : Dev) (k cause : Nat) : (d.laneFail k cause).power = d.power := by
  fun_cases Dev.laneFail d k cause <;> simp +zetaDelta

@[simp] theorem exchangeFailed_power (d : Dev) (i cause : Nat) : (d.exchangeFailed i cause).power = d.power := by
  fun_cases Dev.exchangeFailed d i cause <;> simp +zetaDelta

@[simp] theorem exchangePlanned_power (d : Dev) (i : Nat) : (d.exchangePlanned i).power = d.power := by
  fun_cases Dev.exchangePlanned d i <;> simp +zetaDelta

@[simp] theorem laneExchange_power (d : Dev) : d.laneExchange.power = d.power := by
  fun_cases Dev.laneExchange d <;> simp +zetaDelta

/-! ### The die temperature -/

@[simp] theorem readDie_power (temp : Int) (d : Dev) : (d.readDie temp).power = d.power := by
  simp [Dev.readDie, Dev.xtalComp, Dev.dieTempRefresh]

/-! ### Pots, tasks and modes -/

@[simp] theorem onPot_power (d : Dev) (p : Nat) (f : PotState → PotState) : (d.onPot p f).power = d.power := by rfl

@[simp] theorem onTask_power (d : Dev) (t : Nat) (f : TaskState → TaskState) :
    (d.onTask t f).power = d.power := by rfl

@[simp] theorem abandon_power (d : Dev) (p : Nat) : (d.abandon p).power = d.power := by
  simp [Dev.abandon]

@[simp] theorem potLeave_power (d : Dev) (p : Nat) : (d.potLeave p).power = d.power := by
  simp [Dev.potLeave]

@[simp] theorem holdCrcs_power (old : Mem) (d : Dev) : (d.holdCrcs old).power = d.power := by
  simp [Dev.holdCrcs]

@[simp] theorem remoteStart_power (d : Dev) (p : Nat) : (d.remoteStart p).power = d.power := by
  simp -implicitDefEqProofs [Dev.remoteStart]

@[simp] theorem potStart_power (d : Dev) (p : Nat) (warm same host : Bool) :
    (d.potStart p warm same host).power = d.power := by
  simp [Dev.potStart, Dev.facePotStart]

@[simp] theorem enterRun_power (d : Dev) (warm : Bool) : (d.enterRun warm).power = d.power := by
  simp [Dev.enterRun]

@[simp] theorem potCommand_power (p : Nat) (a : PotAction) (host : Bool) (d : Dev) :
    (d.potCommand p a host).power = d.power := by
  simp [Dev.potCommand]

@[simp] theorem potApply_power (d : Dev) (p : Nat) : (d.potApply p).power = d.power := by
  fun_cases Dev.potApply d p <;> simp +zetaDelta

@[simp] theorem potCommands_power (d : Dev) : d.potCommands.power = d.power := by
  simp [Dev.potCommands]

@[simp] theorem enterTollgate_power (d : Dev) (cause vfyA : Nat) : (d.enterTollgate cause vfyA).power = d.power := by
  simp [Dev.enterTollgate, Dev.forceReset, Dev.switchAbandon]

@[simp] theorem overruns_power (d : Dev) : d.overruns.power = d.power := by
  fun_cases Dev.overruns d <;> simp +zetaDelta [Dev.recordOverrun]

@[simp] theorem overrunPlates_power (before d : Dev) : (Dev.overrunPlates before d).power = d.power := by
  simp [Dev.overrunPlates]

/-! ### Frames of the network -/

@[simp] theorem repeatBroadcast_power (d : Dev) (m : Mac) : (d.repeatBroadcast m).power = d.power := by
  simp [Dev.repeatBroadcast]

@[simp] theorem receive_power (n : Nat) (e : RxEnd) (d : Dev) : (d.receive n e).1.power = d.power :=
  (onlyLine_receive n e d).power

@[simp] theorem fmtFail_power (d : Dev) : d.fmtFail.power = d.power := by rfl

@[simp] theorem rxAck_power (e : RxEnd) (d : Dev) : (d.rxAck e).power = d.power := by
  have h := receive_power 3 e d
  fun_cases Dev.rxAck e d <;> simp_all

@[simp] theorem dropNeighbour_power (d : Dev) (n : Nat) : (d.dropNeighbour n).power = d.power := by
  simp [Dev.dropNeighbour]

@[simp] theorem ackTimeout_power (lseq : Nat) (d : Dev) : (d.ackTimeout lseq).power = d.power := by
  fun_cases Dev.ackTimeout lseq d <;> simp +zetaDelta

@[simp] theorem rxMapAsk_power (e : RxEnd) (d : Dev) : (d.rxMapAsk e).power = d.power := by
  have h := receive_power 4 e d
  fun_cases Dev.rxMapAsk e d <;> simp_all

@[simp] theorem rxMapOffer_power (e : RxEnd) (d : Dev) : (d.rxMapOffer e).power = d.power := by
  have h := receive_power 5 e d
  fun_cases Dev.rxMapOffer e d <;> simp_all

@[simp] theorem mapRefresh_power (n : Nat) (d : Dev) : (d.mapRefresh n).power = d.power := by
  unfold Dev.mapRefresh
  split <;> simp

@[simp] theorem memberBeacon_power (d : Dev) (b : Beacon) (f : RxFrame) : (d.memberBeacon b f).power = d.power := by
  simp [Dev.memberBeacon]

@[simp] theorem planRepeat_power (d : Dev) (b : Beacon) :
    (d.planRepeat b).power = d.power := (onlyLine_planRepeat d b).power

@[simp] theorem rxBeacon_power (e : RxEnd) (d : Dev) : (d.rxBeacon e).power = d.power := by
  unfold Dev.rxBeacon
  split
  next d1 hr => simpa [hr] using received_power e d
  next d1 f hr =>
    have h1 : d1.power = d.power := by simpa [hr] using received_power e d
    split
    · exact h1
    split
    · exact h1
    split
    · exact h1
    extract_lets n body
    split
    · exact h1
    split
    · split
      · exact (memberBeacon_power _ _ _).trans h1
      · exact h1
    · rw [planRepeat_power, memberBeacon_power, h1]

@[simp] theorem rxTime_power (e : RxEnd) (d : Dev) : (d.rxTime e).power = d.power := by
  have h := receive_power 2 e d
  fun_cases Dev.rxTime e d <;> simp_all +zetaDelta

@[simp] theorem rxJoinReq_power (e : RxEnd) (d : Dev) : (d.rxJoinReq e).power = d.power := by
  have h := receive_power 6 e d
  unfold Dev.rxJoinReq
  split
  next d1 hr => simpa [hr] using h
  next d1 f m hr =>
    have h1 : d1.power = d.power := by simpa [hr] using h
    split
    · simpa using h1
    split
    · exact h1
    · extract_lets uid clash path d2
      have h2 : d2.power = d.power := by simp [d2, h1]
      clear_value path d2
      dsimp only
      split
      · split <;> simp [h2]
      · simp [h2]

@[simp] theorem rxJoinAcc_power (e : RxEnd) (d : Dev) : (d.rxJoinAcc e).power = d.power := by
  have h := receive_power 7 e d
  fun_cases Dev.rxJoinAcc e d <;> simp_all

@[simp] theorem sendProbe_power (d : Dev) (dst due : Nat) : (d.sendProbe dst due).power = d.power := by
  simp [Dev.sendProbe]

@[simp] theorem rxProbe_power (e : RxEnd) (d : Dev) : (d.rxProbe e).power = d.power := by
  have h := receive_power 11 e d
  fun_cases Dev.rxProbe e d <;> simp_all

@[simp] theorem rxCourier_power (e : RxEnd) (d : Dev) : (d.rxCourier e).power = d.power := by
  have h := receive_power 8 e d
  fun_cases Dev.rxCourier e d <;> simp_all +zetaDelta

@[simp] theorem rxConvoy_power (e : RxEnd) (d : Dev) : (d.rxConvoy e).power = d.power := by
  have h := receive_power 9 e d
  fun_cases Dev.rxConvoy e d <;> simp_all

@[simp] theorem applyCourier_power (d : Dev) (c : Nat × Nat × Nat × List Word) :
    (d.applyCourier c).power = d.power := by
  fun_cases Dev.applyCourier d c <;> simp

@[simp] theorem courierStale_power (g p : Nat) (d : Dev) : (d.courierStale g p).power = d.power := by
  unfold Dev.courierStale
  split <;> simp

@[simp] theorem convoyApply_power (d : Dev) (n : Nat) : (d.convoyApply n).power = d.power := by
  unfold Dev.convoyApply
  exact foldl_power (fun d p => foldl_power (fun d q => by dsimp only; split <;> rfl) _ _) _ _

@[simp] theorem courierQueue_power (d : Dev) : d.courierQueue.power = d.power := by
  simp [Dev.courierQueue]

@[simp] theorem checkpoint_power (d : Dev) : d.checkpoint.power = d.power := by
  simp [Dev.checkpoint]

@[simp] theorem transmit_power (d : Dev) (k : Nat) (c : Contender) : (d.transmit k c).power = d.power := by
  simp [Dev.transmit]

@[simp] theorem startFrames_power (d : Dev) (k : Nat) : (d.startFrames k).power = d.power := by
  fun_cases Dev.startFrames d k <;> simp +zetaDelta

@[simp] theorem frameStart_power (k rnd : Nat) (heard : Option Nat) (d : Dev) :
    (d.frameStart k rnd heard).power = d.power := by
  unfold Dev.frameStart
  split
  · rfl
  extract_lets d0
  split
  next cv d1 hc =>
    have h1 : d1.power = d.power := by
      rw [← startFrames_power d k]
      split at hc
      · split at hc <;> cases hc <;> rfl
      · cases hc; rfl
    extract_lets pick d2
    have h2 : d2.power = d.power := by simp [d2, h1]
    generalize pick = pick'
    cases pick' with
    | none => exact h2
    | some c =>
      simp [h2, Dev.defer, apply_ite Prod.fst]

@[simp] theorem frameSent_power (d : Dev) : d.frameSent.power = d.power := by
  unfold Dev.frameSent
  split <;> simp

/-! ### Register accesses of the host and of tasks -/

@[simp] theorem latchReads_power (d : Dev) (who : Fin 17) (frac : BitVec 16) (as : List Nat) :
    (d.latchReads who frac as).power = d.power := by
  simp [Dev.latchReads, Dev.msLoRead, Dev.siLoRead]

@[simp] theorem orderReset_power (source : Nat) (kind : ResetKind) (d : Dev) :
    (d.orderReset source kind).power = d.power := by rfl

@[simp] theorem modeWrite_power (v : Word) (d : Dev) : (d.modeWrite v).power = d.power := by
  unfold Dev.modeWrite
  split <;> simp [Dev.modeCommand]

@[simp] theorem potCmdWrite_power (v : Word) (host : Bool) (d : Dev) : (d.potCmdWrite v host).power = d.power := by
  fun_cases Dev.potCmdWrite v host d <;> simp +zetaDelta [Dev.hobPotCommand]

@[simp] theorem storeCmd_power (v : Word) (priv : Bool) (words : Nat) (d : Dev) :
    (d.storeCmd v priv words).power = d.power := by
  fun_cases Dev.storeCmd v priv words d <;> simp

@[simp] theorem writeMando_power (d : Dev) (o : Nat) (v : Word) : (d.writeMando o v).power = d.power := by
  fun_cases Dev.writeMando d o v <;> simp +zetaDelta

@[simp] theorem deny_power (d : Dev) (p : Nat) : (d.deny p).power = d.power := by rfl

/-! ### Start-up and image acceptance -/

@[simp] theorem attempt_power (b fresh : Bool) (d : Dev) : (d.attempt b fresh).1.power = d.power := by
  simp [Dev.attempt]

@[simp] theorem tollAutoOrder_power (d : Dev) : d.tollAutoOrder.power = d.power := by
  simp [Dev.tollAutoOrder]

@[simp] theorem acceptProgress_power (d : Dev) : d.acceptProgress.power = d.power := by
  fun_cases Dev.acceptProgress d <;> simp +zetaDelta

@[simp] theorem acceptBank_power (d : Dev) (b : Bool) (m : Image) (second : Bool) :
    (d.acceptBank b m second).power = d.power := by rfl

@[simp] theorem refuseBanks_power (d : Dev) (cause : Nat) : (d.refuseBanks cause).power = d.power := by rfl

@[simp] theorem firstAttempt_power (d : Dev) : d.firstAttempt.power = d.power := by
  unfold Dev.firstAttempt
  split
  · simp
  next b _ =>
    have h := attempt_power b true d
    split <;> simp_all

@[simp] theorem secondAttempt_power (b : Bool) (d : Dev) : (d.secondAttempt b).power = d.power := by
  have h := attempt_power b true d
  unfold Dev.secondAttempt
  split <;> simp_all

@[simp] theorem imageAcceptance_power (e : AcceptEnv) (d : Dev) : (d.imageAcceptance e).power = d.power := by
  fun_cases Dev.imageAcceptance e d <;> simp +zetaDelta

@[simp] theorem junctionStart_power (d : Dev) : d.junctionStart.power = d.power := by
  simp [Dev.junctionStart]

@[simp] theorem remoteReset_power (d : Dev) : d.remoteReset.power = d.power := by
  simp -implicitDefEqProofs [Dev.remoteReset]

/-! ### The seat and the tunnels -/

@[simp] theorem doIdentify_power (who : Holder) (r : SeatReq) (d : Dev) :
    (d.doIdentify who r).2.power = d.power := by rfl

@[simp] theorem doTake_power (who : Holder) (r : SeatReq) (d : Dev) : (d.doTake who r).2.power = d.power := by
  unfold Dev.doTake
  split <;> simp

@[simp] theorem doSeatReset_power (r : SeatReq) (d : Dev) : (d.doSeatReset r).2.power = d.power := by
  fun_cases Dev.doSeatReset r d <;> simp

@[simp] theorem doRelease_power (d : Dev) : d.doRelease.2.2.power = d.power := by rfl

@[simp] theorem readLarder_power (g n : Nat) (fs : List EccFind) (d : Dev) :
    (Dev.readLarder g n fs d).2.power = d.power := by
  induction n generalizing g fs d with
  | zero => rfl
  | succ n ih =>
    rw [Dev.readLarder]
    dsimp only
    rw [ih]
    split <;> simp

@[simp] theorem doRead_power (who : Holder) (r : SeatReq) (e : SeatEnv) (d : Dev) :
    (d.doRead who r e).2.2.power = d.power := by
  fun_cases Dev.doRead who r e d
  case case3 => exact foldl_snd_power (fun x w => by simp +zetaDelta [Dev.bootRead]) _ _
  all_goals simp +zetaDelta

@[simp] theorem accepted_power (d : Dev) (ws : List HostWrite) : (d.accepted ws).power = d.power := by rfl

@[simp] theorem writeRegs_power (a : Nat) (ws : List Nat) (words : Nat) (d : Dev) :
    (d.writeRegs a ws words).2.power = d.power := by
  fun_cases Dev.writeRegs a ws words d <;> simp +zetaDelta

@[simp] theorem doWrite_power (who : Holder) (r : SeatReq) (e : SeatEnv) (d : Dev) :
    (d.doWrite who r e).2.2.power = d.power := by
  fun_cases Dev.doWrite who r e d <;> simp +zetaDelta

@[simp] theorem readKey_power (e : SeatEnv) (d : Dev) : (d.readKey e).power = d.power := by
  simp [Dev.readKey]

@[simp] theorem doChallenge_power (e : SeatEnv) (d0 : Dev) : (d0.doChallenge e).2.2.power = d0.power := by
  fun_cases Dev.doChallenge e d0 <;> simp +zetaDelta

@[simp] theorem doRespond_power (who : Holder) (r : SeatReq) (e : SeatEnv) (nonce : Option (List Byte × Nat))
    (d0 : Dev) : (d0.doRespond who r e nonce).2.2.power = d0.power := by
  fun_cases Dev.doRespond who r e nonce d0 <;> simp +zetaDelta

@[simp] theorem doClose_power (d : Dev) : d.doClose.2.2.power = d.power := by rfl

theorem gate_power {r : SeatReq} {ident : Bool} {d : Dev} {x : Response × Dev} (h : d.gate r ident = some x) :
    x.2.power = d.power := by
  unfold Dev.gate at h
  split at h
  · cases h; rfl
  split at h
  · cases h; rfl
  · cases h

@[simp] theorem hear_power (who : Holder) (d : Dev) : (d.hear who).power = d.power := by
  simp [Dev.hear]

theorem bySeq_power (cmd : Nat) (r : SeatReq)
    {run : Option (List Byte × Nat) → Dev → SeatStatus × List Byte × Dev}
    (hr : ∀ n d, (run n d).2.2.power = d.power) (d : Dev) : (d.bySeq cmd r run).2.power = d.power := by
  unfold Dev.bySeq
  split
  · exact hr _ _
  · extract_lets again
    cases again <;> rfl

theorem sequenced_power (who : Holder) (cmd : Nat) (r : SeatReq)
    {run : Option (List Byte × Nat) → Dev → SeatStatus × List Byte × Dev}
    (hr : ∀ n d, (run n d).2.2.power = d.power) (d : Dev) : (d.sequenced who cmd r run).2.power = d.power := by
  unfold Dev.sequenced
  extract_lets d1
  have h1 : d1.power = d.power := hear_power who d
  split
  next x hx => exact (gate_power hx).trans h1
  next =>
    split
    · exact h1
    split
    · exact h1
    · exact (bySeq_power cmd r hr d1).trans h1

@[simp] theorem seatIdentify_power (who : Holder) (r : SeatReq) (d : Dev) :
    (d.seatIdentify who r).2.power = d.power := by
  unfold Dev.seatIdentify
  extract_lets d1
  split
  next x hx => simpa [d1] using gate_power hx
  · simp [d1]

@[simp] theorem seatTake_power (who : Holder) (r : SeatReq) (d : Dev) : (d.seatTake who r).2.power = d.power := by
  unfold Dev.seatTake
  extract_lets d1
  have h1 : d1.power = d.power := hear_power who d
  split
  next x hx => exact (gate_power hx).trans h1
  next =>
    split
    · exact h1
    split
    · exact (doTake_power who r d1).trans h1
    · exact (bySeq_power 0x02 r (fun _ _ => rfl) d1).trans h1

@[simp] theorem seatReset_power (who : Holder) (r : SeatReq) (d : Dev) : (d.seatReset who r).2.power = d.power := by
  unfold Dev.seatReset
  extract_lets d1
  have h1 : d1.power = d.power := hear_power who d
  split
  next x hx => exact (gate_power hx).trans h1
  next => split <;> simp [h1]

@[simp] theorem seatRelease_power (who : Holder) (r : SeatReq) (d : Dev) :
    (d.seatRelease who r).2.power = d.power :=
  sequenced_power who 0x03 r (fun _ d => doRelease_power d) d

@[simp] theorem seatRead_power (who : Holder) (r : SeatReq) (e : SeatEnv) (d : Dev) :
    (d.seatRead who r e).2.power = d.power :=
  sequenced_power who 0x10 r (fun _ d => doRead_power who r e d) d

@[simp] theorem seatWrite_power (who : Holder) (r : SeatReq) (e : SeatEnv) (d : Dev) :
    (d.seatWrite who r e).2.power = d.power :=
  sequenced_power who 0x11 r (fun _ d => doWrite_power who r e d) d

@[simp] theorem seatChallenge_power (who : Holder) (r : SeatReq) (e : SeatEnv) (d : Dev) :
    (d.seatChallenge who r e).2.power = d.power :=
  sequenced_power who 0x20 r (fun _ d => doChallenge_power e d) d

@[simp] theorem seatRespond_power (who : Holder) (r : SeatReq) (e : SeatEnv) (d : Dev) :
    (d.seatRespond who r e).2.power = d.power :=
  sequenced_power who 0x21 r (fun n d => doRespond_power who r e n d) d

@[simp] theorem seatClose_power (who : Holder) (r : SeatReq) (d : Dev) :
    (d.seatClose who r).2.power = d.power :=
  sequenced_power who 0x22 r (fun _ d => doClose_power d) d

@[simp] theorem seatAny_power (who : Holder) (cmd : Nat) (r : SeatReq) (e : SeatEnv) (d : Dev) :
    (d.seatAny who cmd r e).2.power = d.power := by
  unfold Dev.seatAny
  split
  case h_10 =>
    split
    · split
      next x hx => simpa using gate_power hx
      · simp
    · exact sequenced_power who cmd r (fun _ _ => by rfl) d
  all_goals simp

@[simp] theorem spi_power (x : Response × Dev) : (Dev.spi x).power = x.2.power := by rfl

@[simp] theorem port_power {f : Dev → Dev} (hf : ∀ d, (f d).power = d.power) (d : Dev) :
    (Dev.port f d).power = d.power := by
  simp [Dev.port, hf]

@[simp] theorem setTun_power (d : Dev) (ch : Nat) (t : Option Tunnel) : (d.setTun ch t).power = d.power := by rfl

@[simp] theorem tunArrive_power (d : Dev) (ch : Nat) (bs : List Byte) : (d.tunArrive ch bs).power = d.power := by
  unfold Dev.tunArrive
  split <;> simp [Dev.attnTun]

@[simp] theorem sendTunnel_power (d : Dev) (dst ch kind : Nat) (inner : List Byte) :
    (d.sendTunnel dst ch kind inner).power = d.power := (onlyLine_sendTunnel d dst ch kind inner).power

@[simp] theorem tunClosed_power (d : Dev) (ch : Nat) : (d.tunClosed ch).power = d.power := by
  simp [Dev.tunClosed]

@[simp] theorem closeTun_power (d : Dev) (ch : Nat) : (d.closeTun ch).power = d.power := by
  unfold Dev.closeTun
  split <;> simp

@[simp] theorem tunCommand_power (r : SeatReq) {run : Nat → Dev → SeatStatus × List Byte × Dev}
    (hr : ∀ n d, (run n d).2.2.power = d.power) (d : Dev) : (d.tunCommand r run).power = d.power := by
  unfold Dev.tunCommand
  rw [spi_power]
  split
  next x hx => exact gate_power hx
  next =>
    extract_lets ch out
    split
    · rfl
    · exact hr _ _

@[simp] theorem tunOpen_power (target ch : Nat) (d : Dev) : (d.tunOpen target ch).2.2.power = d.power := by
  fun_cases Dev.tunOpen target ch d <;> simp

@[simp] theorem tunSend_power (frame : List Byte) (e : SeatEnv) (ch : Nat) (d : Dev) :
    (d.tunSend frame e ch).2.2.power = d.power := by
  fun_cases Dev.tunSend frame e ch d <;> simp +zetaDelta

@[simp] theorem tunRecv_power (ch : Nat) (d : Dev) : (d.tunRecv ch).2.2.power = d.power := by
  fun_cases Dev.tunRecv ch d <;> simp

@[simp] theorem tunClose_power (ch : Nat) (d : Dev) : (d.tunClose ch).2.2.power = d.power := by
  unfold Dev.tunClose
  split <;> simp

@[simp] theorem rxTunnel_power (f : RxEnd) (e : SeatEnv) (d : Dev) : (d.rxTunnel f e).power = d.power := by
  have h := receive_power 10 f d
  fun_cases Dev.rxTunnel f e d <;> simp_all +zetaDelta

/-! ### The bank switch -/

@[simp] theorem sealComplete_power (d : Dev) : d.sealComplete.power = d.power := by
  unfold Dev.sealComplete
  split <;> simp

@[simp] theorem switchVerified_power (d : Dev) : d.switchVerified.power = d.power := by
  unfold Dev.switchVerified
  split
  next b at' warm net asap hsw =>
    have h := attempt_power b false d
    split
    · simp_all [Dev.switchEnd]
    next d1 m _ hm =>
      have h1 : d1.power = d.power := by simpa [hm] using h
      split <;> simp [Dev.switchEnd, h1]
  · rfl

@[simp] theorem switchPots_power (old : Dev) (warm : Nat) (d : Dev) : (switchPots old warm d).power = d.power := by
  simp [switchPots]

@[simp] theorem switchRole_power (d : Dev) (old : Image) : (d.switchRole old).power = d.power := by
  fun_cases Dev.switchRole d old
  simp +zetaDelta

/-! ### Releases and commits -/

@[simp] theorem release_power (d : Dev) (t : Nat) : (d.release t).power = d.power := by
  fun_cases Dev.release d t <;> simp +zetaDelta

@[simp] theorem commitLarder_power (d : Dev) (p : Nat) (g : Staged) : (d.commitLarder p g).power = d.power := by
  unfold Dev.commitLarder
  refine foldl_power (fun d r => ?_) _ _
  split
  · split <;> rfl
  · rfl

@[simp] theorem commitScripts_power (d : Dev) (s : Staged) : (d.commitScripts s).power = d.power := by
  unfold Dev.commitScripts
  exact (foldl_power (fun _ _ => slotRun_power _ _) _ _).trans
    ((foldl_power (fun _ _ => onSlot_power _ _ _) _ _).trans (foldl_power (fun _ _ => onSlot_power _ _ _) _ _))

/-! ### Steps of a boundary and the patrol -/

@[simp] theorem step6_power (d : Dev) (len : Option Nat) : (d.step6 len).power = d.power := by
  cases len <;> simp [Dev.step6, Dev.present, Dev.whiskPresent, Dev.faceDeliver]

@[simp] theorem step7_power (d : Dev) : d.step7.power = d.power := by
  unfold Dev.step7
  extract_lets d1 d2 d3
  have h1 : d1.power = d.power := by simp [d1, Dev.courierApply]
  have h2 : d2.power = d1.power := by
    dsimp only [d2]
    split
    · exact convoyApply_power _ _
    · rfl
  have h3 : d3.power = d2.power := by simp [d3, Dev.covExpiry]
  rw [waymarkStarts_power, Dev.releaseAll, foldl_power release_power, h3, h2, h1]

@[simp] theorem patrolOne_power (d : Dev) (x : Nat × EccFind) : (d.patrolOne x).power = d.power := by
  unfold Dev.patrolOne
  extract_lets b k
  split <;> simp

@[simp] theorem pantryPatrol_power (es : List EccFind) (d : Dev) : (d.pantryPatrol es).power = d.power := by
  simp [Dev.pantryPatrol]

@[simp] theorem dueAborts_power (d : Dev) : d.dueAborts.power = d.power :=
  foldl_power (fun d n => by split <;> simp) _ _

@[simp] theorem worktopError_power (d : Dev) (x : Nat × Byte) : (d.worktopError x).power = d.power := by
  fun_cases Dev.worktopError d x <;> simp +zetaDelta

@[simp] theorem replanning_power (f : Dev → Dev) (d : Dev) : (d.replanning f).power = (f d).power := by
  simp [Dev.replanning]

/-! ### The crystal and the estimate of a motor unit -/

@[simp] theorem xtalFail_power (d : Dev) : d.xtalFail.power = d.power := by
  simp [Dev.xtalFail]

@[simp] theorem whiskDeliver_power (d : Dev) (u : Nat) : (d.whiskDeliver u).power = d.power := by
  simp [Dev.whiskDeliver]

@[simp] theorem whiskEstimate_power (u : Fin 2) (now : Nat) (d : Dev) : (d.whiskEstimate u now).power = d.power := by
  unfold Dev.whiskEstimate
  extract_lets c d1
  have h1 : d1.power = d.power := by rfl
  simp [h1]

/-! ### Registers with an effect -/

@[simp] theorem siOfsLo_power (v : BitVec 32) (d : Dev) : (d.siOfsLo v).power = d.power := by
  simp [Dev.siOfsLo]

@[simp] theorem siOfsWrite_power (hi : BitVec 32) (d : Dev) : (d.siOfsWrite hi).power = d.power := by
  simp [Dev.siOfsWrite]

@[simp] theorem forceClear_power (d : Dev) : d.forceClear.power = d.power := by
  simp [Dev.forceClear]

@[simp] theorem forceWrite_power (i : Fin 256) (value : Bool) (v : Word) (d : Dev) :
    (d.forceWrite i value v).power = d.power := by
  simp [Dev.forceWrite, Dev.forceValue, Dev.forceSel]

@[simp] theorem laneXchg_power (v : Word) (d : Dev) : (d.laneXchg v).power = d.power := by
  simp [Dev.laneXchg]

@[simp] theorem retry_power (d : Dev) : d.retry.power = d.power := by
  simp [Dev.retry]

@[simp] theorem ackRetire_power (upto : Word) (d : Dev) : (d.ackRetire upto).power = d.power := by
  simp [Dev.ackRetire]

@[simp] theorem resetWrite_power (v : Word) (d : Dev) : (d.resetWrite v).power = d.power := by
  simp [Dev.resetWrite]

@[simp] theorem probeGo_power (dst : Nat) (d : Dev) : (d.probeGo dst).power = d.power := by
  simp [Dev.probeGo]

@[simp] theorem jclr_power (addr : Nat) (d : Dev) : (d.jclr addr).power = d.power := by
  simp [Dev.jclr]

@[simp] theorem fanCapture_power (go : BitVec 6) (d : Dev) : (d.fanCapture go).power = d.power := by rfl

@[simp] theorem busSubmit_power (d : Dev) (i : Nat) : (d.busSubmit i).power = d.power := by rfl

@[simp] theorem writeTx_power (d : Dev) (i o : Nat) (v : Word) : (d.writeTx i o v).power = d.power := by
  simp [Dev.writeTx]

@[simp] theorem newNetKey_power (d : Dev) (key : List Byte) : (d.newNetKey key).power = d.power := by rfl

/-! ### The passing of a waymark and of a milestone -/

@[simp] theorem nextWaymark_power (d : Dev) : d.nextWaymark.power = d.power := by rfl

@[simp] theorem newGrids_power (d : Dev) : d.newGrids.power = d.power := by rfl

@[simp] theorem planMilestone_power (d : Dev) : d.planMilestone.power = d.power := by rfl

@[simp] theorem lineStep_power (steps : Bool) (d : Dev) : (d.lineStep steps).power = d.power := by
  simp [Dev.lineStep]

@[simp] theorem blanker_power (samples : List (List LineSample)) (d : Dev) : (d.blanker samples).power = d.power := by
  simp [Dev.blanker]

@[simp] theorem xcompWriteback_power (d : Dev) : d.xcompWriteback.power = d.power := by
  simp [Dev.xcompWriteback]

@[simp] theorem wearWriteback_power (d : Dev) : d.wearWriteback.power = d.power := by
  simp [Dev.wearWriteback]

@[simp] theorem netCheckpoint_power (d : Dev) : d.netCheckpoint.power = d.power := by
  simp [Dev.netCheckpoint]

@[simp] theorem beaconTimeout_power (d : Dev) : d.beaconTimeout.power = d.power := by
  simp [Dev.beaconTimeout]

@[simp] theorem idleFree_power (d : Dev) : d.idleFree.power = d.power := by
  simp [Dev.idleFree]

@[simp] theorem tollAutoClear_power (d : Dev) : d.tollAutoClear.power = d.power := by
  simp [Dev.tollAutoClear]

@[simp] theorem potCommandsAge_power (d : Dev) : d.potCommandsAge.power = d.power := by rfl

@[simp] theorem tunCheck_power (d : Dev) : d.tunCheck.power = d.power := by
  simp [Dev.tunCheck]

@[simp] theorem patrolGroupRead_power (worn : List Nat) (d : Dev) (x : Nat × EccFind) :
    (Dev.patrolGroupRead worn d x).power = d.power := by
  simp [Dev.patrolGroupRead]

@[simp] theorem larderPatrol_power (es : List EccFind) (worn : List Nat) (d : Dev) :
    (d.larderPatrol es worn).power = d.power := by
  simp [Dev.larderPatrol]

@[simp] theorem commitStores_power (d : Dev) (s : Staged) : (d.commitStores s).power = d.power := by rfl

@[simp] theorem commitOuts_power (d : Dev) (t : Nat) (s : Staged) : (d.commitOuts t s).power = d.power := by
  simp [Dev.commitOuts]

@[simp] theorem commitHatches_power (d : Dev) (t : Nat) (s : Staged) : (d.commitHatches t s).power = d.power := by
  simp [Dev.commitHatches]

@[simp] theorem commitCounts_power (d : Dev) (t p : Nat) (s : Staged) : (d.commitCounts t p s).power = d.power := by
  simp [Dev.commitCounts]

@[simp] theorem faceScan_power (d : Dev) : d.faceScan.power = d.power := by
  simp [Dev.faceScan, Dev.scanLine]

@[simp] theorem step3_power (d : Dev) : d.step3.power = d.power := by
  simp [Dev.step3, Dev.countWindows]

@[simp] theorem allIdle_power (d : Dev) : d.allIdle.power = d.power := by
  simp [Dev.allIdle]

@[simp] theorem autorun_power (d : Dev) : d.autorun.power = d.power := by
  simp [Dev.autorun]

@[simp] theorem cxUnowned_power (d : Dev) : d.cxUnowned.power = d.power := by
  simp [Dev.cxUnowned]

/-! ### Parameters and the journal at start-up -/

@[simp] theorem journalRead_power (ts : List JournalTxn) (d : Dev) (f : Nat × EccFind) :
    (Dev.journalRead ts d f).power = d.power := by
  fun_cases Dev.journalRead ts d f <;> simp

@[simp] theorem recoverTxn_power (worn : List Nat) (d : Dev) (t : JournalTxn) :
    (Dev.recoverTxn worn d t).power = d.power := by
  fun_cases Dev.recoverTxn worn d t <;> simp +zetaDelta

@[simp] theorem journalRecovery_power (c : CellEnv) (d : Dev) : (d.journalRecovery c).power = d.power := by
  fun_cases Dev.journalRecovery c d <;> simp +zetaDelta

@[simp] theorem loadWear_power (finds : List (Nat × EccFind)) (d : Dev) : (d.loadWear finds).power = d.power := by rfl

@[simp] theorem loadLaneRecords_power (d : Dev) : d.loadLaneRecords.power = d.power := by rfl

@[simp] theorem loadSliceRecords_power (d : Dev) : d.loadSliceRecords.power = d.power := by rfl

@[simp] theorem parameterLoad_power (c : CellEnv) (d0 : Dev) : (d0.parameterLoad c).power = d0.power := by
  unfold Dev.parameterLoad
  split
  · rfl
  · extract_lets read d s sys d1 d2 d3
    have hd : d.power = d0.power := by simp [d]
    have h1 : d1.power = d.power := by rfl
    simp [d3, d2, h1, hd]

/-! ### A domain fault (R80 to R82) -/

/-- A floor is at least 700 mV. -/
theorem vFloor_ge (n : Fin 16) : 700 ≤ vFloor n.val := by
  revert n
  decide

/-- The voltage at which a domain in fault stood is more than 50 mV under its floor. -/
theorem faultVoltage_lt_vFloor (d : Dev) (n : Fin 16) : (d.faultVoltage n.val).toNat + 50 < vFloor n.val := by
  have hf := vFloor_ge n
  have hle : (d.faultVoltage n.val).toNat ≤ min (vFloor n.val - 51) (Config.coreVoltage n.val d.free) := by
    rw [Dev.faultVoltage, BitVec.toNat_ofNat]
    exact Nat.mod_le _ _
  omega

theorem vupdN_fin {α : Type} (v : Vector α 16) (n : Fin 16) (f : α → α) :
    vupdN v n.val f = v.set n.val (f v[n]) := by
  simp [vupdN]

/-- The domains that start-up powers are those whose fault resets the device. -/
theorem tollgateOn_getLsbD (n : Fin 16) : tollgateOn.getLsbD n.val = decide (n.val ∈ [0, 1, 2, 6, 7]) := by
  revert n
  decide

theorem domainFaultAny_of_off {n : Fin 16} (h : n.val ∉ [0, 1, 2, 6, 7]) (e : ResetEnv) (d : Dev) :
    d.domainFaultAny n e = d.domainFault e.at' n.val := by
  unfold Dev.domainFaultAny
  rw [tollgateOn_getLsbD, decide_eq_false h]
  split
  next ho => simp [Dev.domainFault, ho]
  · simp

/-- A fault removes the domain's power at once. -/
theorem domainFault_power {d : Dev} {n : Fin 16} (h : d.power.on.getLsbD n.val = true) (at' : Nat) :
    (d.domainFault at' n.val).power =
      { d.power with
        on := d.power.on &&& ~~~(1#16 <<< n.val), ready := d.power.ready &&& ~~~(1#16 <<< n.val)
        req := d.power.req &&& ~~~(1#16 <<< n.val), fault := d.power.fault ||| (1#16 <<< n.val)
        faults := satInc d.power.faults, vnow := d.power.vnow.set n 0
        vlow := d.power.vlow.set n
          (if (d.faultVoltage n.val).toNat < (d.power.vlow[n]).toNat then d.faultVoltage n.val else d.power.vlow[n]) } := by
  unfold Dev.domainFault
  rw [if_neg (by simp [Dev.pdOn, h])]
  rw [event_power, domainOff_power]
  dsimp only [Dev.dropVcore, Dev.onPower]
  rw [vupdN_fin, vupdN_fin]
  rfl

theorem xtalComp_sys (temp : Int) (d : Dev) : (d.xtalComp temp).sys = d.sys := by
  unfold Dev.xtalComp
  split <;> rfl

theorem dieTempRefresh_sys (temp : Int) (d : Dev) : (d.dieTempRefresh temp).sys = d.sys := by
  unfold Dev.dieTempRefresh
  split <;> rfl

theorem readDie_sys (temp : Int) (d : Dev) : (d.readDie temp).sys = d.sys :=
  (dieTempRefresh_sys temp _).trans (xtalComp_sys temp d)

/-- What a reset records of its own (Table 9.4). -/
theorem doReset_cause (r : PendReset) (boundary : Bool) (e : ResetEnv) (d : Dev) :
    (d.doReset r boundary e).sys.rstSource = BitVec.ofNat 4 r.source ∧
    (d.doReset r boundary e).sys.rstPd = BitVec.ofNat 4 r.faultPd ∧
    (d.doReset r boundary e).sys.rstKind = r.kind := by
  unfold Dev.doReset
  extract_lets d1 d2 d3 ready
  have hs : (if boundary then d3.readDie e.die else d3).sys = d2.sys.atReset r boundary := by
    split
    · rw [readDie_sys]
      rfl
    · rfl
  dsimp only [Dev.onSys]
  rw [hs]
  split <;> exact ⟨rfl, rfl, rfl⟩

/-! ### Only powered domains are usable (R74, R82) -/

theorem readyOn_of_power {d e : Dev} (h : ReadyOn d) (hp : e.power = d.power) : ReadyOn e := by
  unfold ReadyOn
  rw [hp]
  exact h

/-- Where the domains on and those usable stay, what else changes in the power state does not matter. -/
theorem readyOn_of_domains {d e : Dev} (h : ReadyOn d) (ho : e.power.on = d.power.on)
    (hr : e.power.ready = d.power.ready) : ReadyOn e := by
  unfold ReadyOn
  rw [ho, hr]
  exact h

/-- Where some of the domains on are those usable, the others are off. -/
theorem readyOn_of_and {d : Dev} {r : BitVec 16} (h : d.power.ready = r &&& d.power.on) : ReadyOn d := by
  unfold ReadyOn
  rw [h, BitVec.and_assoc, BitVec.and_not_self]
  exact BitVec.and_zero

/-- Domains switched to any states: what stays usable is on. -/
theorem readyOn_switchTo {d : Dev} {p : PowerState} {want : BitVec 16} (h : d.power = p.switchTo want) : ReadyOn d :=
  readyOn_of_and (r := p.ready) (by rw [h]; rfl)

/-- Power removed from some domains takes their readiness with it. -/
theorem readyOn_of_removed {d e : Dev} (h : ReadyOn d) {m : BitVec 16} (ho : e.power.on = d.power.on &&& ~~~m)
    (hr : e.power.ready = d.power.ready &&& ~~~m) : ReadyOn e := by
  unfold ReadyOn at h ⊢
  rw [ho, hr]
  ext i hi
  have hbit := congrArg (fun x => x.getLsbD i) h
  simp only [BitVec.getLsbD_and, BitVec.getLsbD_not] at hbit ⊢
  grind

theorem foldl_readyOn {α : Type} {f : Dev → α → Dev} (hf : ∀ d a, ReadyOn d → ReadyOn (f d a)) (l : List α)
    {d : Dev} (h : ReadyOn d) : ReadyOn (l.foldl f d) := by
  induction l generalizing d with
  | nil => exact h
  | cons a l ih => exact ih (hf d a h)

/-! ### Register writes -/

theorem pdReqWrite_readyOn (v : BitVec 32) (byHost : Bool) {d : Dev} (h : ReadyOn d) :
    ReadyOn (d.pdReqWrite v byHost) := by
  unfold Dev.pdReqWrite
  split
  · exact h
  · exact readyOn_of_domains h rfl rfl

/-- The requests of PD_REQ and the flag of PD_REF are all that a register write changes of the power state. -/
theorem regWrite_readyOn (host : Bool) (rec : Word) (words a : Nat) (v : Word) {d : Dev} (h : ReadyOn d) :
    ReadyOn (d.regWrite host rec words a v) := by
  fun_cases Dev.regWrite host rec words a v d
  case case7 =>
    -- PD_REQ
    exact pdReqWrite_readyOn v host h
  case case8 =>
    -- PD_REF
    exact readyOn_of_domains h rfl rfl
  all_goals exact readyOn_of_power h (by simp +zetaDelta)

theorem hobWrite_readyOn (a : Nat) (v : Word) {d : Dev} (h : ReadyOn d) : ReadyOn (d.hobWrite a v) := by
  unfold Dev.hobWrite
  split
  · exact readyOn_of_power h (deny_power d 0)
  · exact regWrite_readyOn _ _ _ a v h

theorem potWrite_readyOn (p a : Nat) (v : Word) {d : Dev} (h : ReadyOn d) : ReadyOn (d.potWrite p a v) := by
  have hdeny : ReadyOn (d.deny p) := readyOn_of_power h (deny_power d p)
  have hreg : ReadyOn (d.regWrite false 0 0 a v) := regWrite_readyOn _ _ _ a v h
  fun_cases Dev.potWrite d p a v <;> assumption

theorem taskWrite_readyOn (p a : Nat) (v : Word) {d : Dev} (h : ReadyOn d) : ReadyOn (d.taskWrite p a v) := by
  unfold Dev.taskWrite
  split
  · exact hobWrite_readyOn a v h
  · exact potWrite_readyOn p a v h

theorem registerWrite_readyOn (a : Nat) (v : Word) {d : Dev} (h : ReadyOn d) : ReadyOn (d.registerWrite a v) := by
  unfold Dev.registerWrite
  split
  · exact regWrite_readyOn _ _ _ a v h
  · exact h

theorem applyWrite_readyOn (d : Dev) (w : HostWrite) (h : ReadyOn d) : ReadyOn (d.applyWrite w) := by
  fun_cases Dev.applyWrite d w
  case case2 => exact regWrite_readyOn _ _ _ _ _ h
  all_goals exact readyOn_of_power h (by simp +zetaDelta)

theorem writeBy_readyOn (w : RegWriter) (a : Nat) (v : Word) {d : Dev} (h : ReadyOn d) :
    ReadyOn (d.writeBy w a v) := by
  cases w with
  | host => exact registerWrite_readyOn a v h
  | guest =>
    simp only [Dev.writeBy]
    split
    · exact applyWrite_readyOn d _ h
    · exact readyOn_of_power h rfl
  | pot p => exact taskWrite_readyOn p.val a v h

/-! ### The steps of a boundary (Table 5.2) -/

theorem step1_readyOn {d : Dev} (h : ReadyOn d) : ReadyOn d.step1 :=
  foldl_readyOn applyWrite_readyOn _ (readyOn_of_power h rfl)

theorem judgeRequests_readyOn (d : Dev) : ReadyOn d.judgeRequests :=
  readyOn_switchTo rfl

theorem planOn_readyOn {d : Dev} (h : ReadyOn d) : ReadyOn d.planOn := by
  unfold Dev.planOn
  split
  · split
    · extract_lets need
      split
      · exact h
      · exact readyOn_switchTo rfl
    · exact h
  · exact h

/-- Judging the requests switches every domain, so that what stood before in step 2 does not matter. -/
theorem step2_readyOn (cals : List (List CalResult)) (d : Dev) : ReadyOn (d.step2 cals) :=
  planOn_readyOn (judgeRequests_readyOn _)

theorem commitRegs_readyOn (p : Nat) (s : Staged) {d : Dev} (h : ReadyOn d) : ReadyOn (d.commitRegs p s) :=
  foldl_readyOn (fun _ q hd => taskWrite_readyOn p q.1 q.2 hd) _ h

theorem commit_readyOn (t : Nat) {d : Dev} (h : ReadyOn d) : ReadyOn (d.commit t) := by
  unfold Dev.commit
  split
  · exact h
  next w _ =>
    extract_lets p s d1 d2
    have h1 : d1.power = d.power := by simp [d1]
    have h2 : ReadyOn d2 := commitRegs_readyOn p s (readyOn_of_power h (by simp [h1]))
    exact readyOn_of_power h2 (by simp)

theorem commitAll_readyOn {d : Dev} (h : ReadyOn d) : ReadyOn d.commitAll := by
  refine foldl_readyOn (fun d x hd => ?_) _ h
  split
  · exact commit_readyOn x.1 hd
  · exact hd

theorem step4_readyOn (before : Dev) {d : Dev} (h : ReadyOn d) : ReadyOn (Dev.step4 before d) := by
  have hc : ReadyOn d.faceComplete.commitAll := commitAll_readyOn (readyOn_of_power h (faceComplete_power d))
  exact readyOn_of_power hc (by simp [Dev.step4, Dev.ringWrite])

theorem steps34_readyOn {d : Dev} (h : ReadyOn d) : ReadyOn d.steps34 := by
  unfold Dev.steps34
  extract_lets d1
  have h1 : ReadyOn d1 := readyOn_of_power h (by simp [d1])
  exact readyOn_of_power (step4_readyOn d h1) (by simp)

theorem planOff_readyOn {d : Dev} (h : ReadyOn d) : ReadyOn d.planOff := by
  unfold Dev.planOff
  extract_lets off
  split
  · exact h
  · exact readyOn_switchTo rfl

theorem bankSwitch_readyOn {d : Dev} (h : ReadyOn d) : ReadyOn d.bankSwitch := by
  unfold Dev.bankSwitch
  split
  · split
    · exact h
    · extract_lets d1 d2 d3 c d4 d5 d6 d7 d8 d9
      exact planOff_readyOn (readyOn_of_power h (by simp [d9, d8, d7, d6, d5, d4, d3, d2, d1]))
  · exact h

theorem modeChange_readyOn {d : Dev} (h : ReadyOn d) : ReadyOn d.modeChange := by
  have hHalt : ReadyOn d.enterHalt := readyOn_of_domains h (by simp [Dev.enterHalt]) (by simp [Dev.enterHalt])
  have hRun (warm : Bool) : ReadyOn (d.enterRun warm) := readyOn_of_power h (enterRun_power d warm)
  unfold Dev.modeChange
  split
  · exact hHalt
  · exact hHalt
  · split
    · exact hRun true
    · exact h
  · split
    · exact hRun false
    · exact h
  · split
    · exact hRun true
    · exact h
  · split
    · exact hRun false
    · exact h
  · exact h

theorem step5_readyOn {d : Dev} (h : ReadyOn d) : ReadyOn d.step5 := by
  have hm : ReadyOn d.bankSwitch.modeChange := modeChange_readyOn (bankSwitch_readyOn h)
  exact readyOn_of_power hm (by simp [Dev.step5])

theorem milestoneEnd_readyOn (p : PatrolEnv) {d : Dev} (h : ReadyOn d) : ReadyOn (d.milestoneEnd p) := by
  refine readyOn_of_domains h ?_ ?_ <;> simp [Dev.milestoneEnd, Dev.readVcore]

theorem endBoundary_readyOn {d : Dev} (h : ReadyOn d) : ReadyOn d.endBoundary := by
  refine readyOn_of_domains h ?_ ?_ <;> simp [Dev.endBoundary]

theorem waymark_readyOn {d : Dev} (h : ReadyOn d) : ReadyOn d.waymark := by
  unfold Dev.waymark
  extract_lets d1 d2 d3
  have h1 : ReadyOn d1 := readyOn_of_power h (by simp [d1])
  have h2 : ReadyOn d2 := steps34_readyOn (readyOn_of_power (step1_readyOn h1) (logFlush_power _))
  have h3 : ReadyOn d3 := readyOn_of_power h2 (by simp [d3])
  exact readyOn_of_power (endBoundary_readyOn h3) (logFlush_power _)

theorem milestoneBoundary_readyOn (p : PatrolEnv) (d : Dev) : ReadyOn (d.milestoneBoundary p) := by
  unfold Dev.milestoneBoundary
  extract_lets d1 d2 dm d3 d4
  have h2 : ReadyOn d2 := steps34_readyOn (readyOn_of_power (step2_readyOn p.cals _) (logFlush_power _))
  have hm : ReadyOn dm := readyOn_of_power (step5_readyOn h2) (by simp [dm])
  have h4 : ReadyOn d4 := readyOn_of_power hm (by simp [d4, d3])
  exact readyOn_of_power (endBoundary_readyOn (milestoneEnd_readyOn p h4)) (logFlush_power _)

/-! ### Resets and faults -/

theorem reset_readyOn {d : Dev} (h : d.power = PowerState.reset) : ReadyOn d := by
  unfold ReadyOn
  rw [h]
  rfl

/-- A reset switches the domains to those of TOLLGATE, or removes those outside it. -/
theorem atReset_readyOn {d : Dev} {p : PowerState} {warm boundary : Bool} (h : d.power = p.atReset warm boundary) :
    ReadyOn d := by
  cases boundary
  case false => exact readyOn_of_and (r := p.ready) (by rw [h]; rfl)
  case true => exact readyOn_of_and (r := p.ready &&& (p.on &&& tollgateOn)) (by rw [h]; rfl)

theorem afterReset_readyOn (r : PendReset) (boundary : Bool) (d : Dev) : ReadyOn (d.afterReset r boundary) := by
  cases hk : r.kind == .powerOn
  case true => exact reset_readyOn (by simp [Dev.afterReset, hk])
  case false =>
    exact atReset_readyOn (p := d.power) (warm := r.kind == .warm) (boundary := boundary)
      (by simp [Dev.afterReset, hk])

theorem doReset_readyOn (r : PendReset) (boundary : Bool) (e : ResetEnv) (d : Dev) :
    ReadyOn (d.doReset r boundary e) := by
  unfold Dev.doReset
  extract_lets d1 d2 d3 ready
  exact readyOn_of_power (afterReset_readyOn r boundary d2) (by cases boundary <;> simp [d3])

theorem resetApply_readyOn (e : ResetEnv) {d : Dev} (h : ReadyOn d) : ReadyOn (d.resetApply e) := by
  unfold Dev.resetApply
  split
  · exact h
  · split
    · exact h
    · exact doReset_readyOn _ _ _ _

theorem tollAutoReset_readyOn (e : ResetEnv) {d : Dev} (h : ReadyOn d) : ReadyOn (d.tollAutoReset e) := by
  unfold Dev.tollAutoReset
  split
  · exact resetApply_readyOn e (readyOn_of_power h (tollAutoOrder_power d))
  · exact h

theorem boundary_readyOn (p : PatrolEnv) (e : ResetEnv) {d : Dev} (h : ReadyOn d) : ReadyOn (d.boundary p e) := by
  unfold Dev.boundary
  extract_lets d0 d1
  have h0 : ReadyOn d0 := readyOn_of_power h (by simp [d0])
  split
  · split
    · exact milestoneBoundary_readyOn p d1
    · exact resetApply_readyOn e (readyOn_of_power h0 (tollAutoOrder_power d0))
  · exact waymark_readyOn h0

theorem domainFault_readyOn (at' : Nat) (n : Fin 16) {d : Dev} (h : ReadyOn d) :
    ReadyOn (d.domainFault at' n.val) := by
  by_cases hon : d.power.on.getLsbD n.val = true
  · exact readyOn_of_removed h (by rw [domainFault_power hon]) (by rw [domainFault_power hon])
  · rw [Dev.domainFault, if_pos (by simpa [Dev.pdOn] using hon)]
    exact h

theorem domainFaultAny_readyOn (n : Fin 16) (e : ResetEnv) {d : Dev} (h : ReadyOn d) :
    ReadyOn (d.domainFaultAny n e) := by
  unfold Dev.domainFaultAny
  split
  · exact h
  split
  · exact doReset_readyOn _ _ _ _
  · exact domainFault_readyOn e.at' n h

/-! ### The Rhamet rows -/

/-- A Rhamet instruction works on its task's window alone. -/
@[simp] theorem rhRaw_power (d : Dev) (t : Fin 64) (imm cost need : Nat)
    (f : Window → Frame → List Frame → Window) : (d.rhRaw t imm cost need f).power = d.power := by
  fun_cases Dev.rhRaw d t imm cost need f <;> simp

@[simp] theorem rhPush_power (d : Dev) (t : Fin 64) (imm cost : Nat) (v : Window → Frame → Word) :
    (d.rhPush t imm cost v).power = d.power := rhRaw_power ..

theorem rhConst_power (d : Dev) (t : Fin 64) (imm n : Nat) : (d.rhConst t imm n).power = d.power := by
  unfold Dev.rhConst Dev.rhGuard
  split
  · rfl
  · split
    · split
      · exact fetchFail_power ..
      · exact rhRaw_power ..
    · rfl

theorem rhCall_power (t : Fin 64) (fn : BitVec 16) (d : Dev) : (d.rhCall t fn).power = d.power := by
  unfold Dev.rhCall
  split
  · rfl
  · exact rhRaw_power ..

theorem rhLRd_power (t : Fin 64) (r : BitVec 6) (half : Bool) (g : BitVec 15) (ty : RhType) (e : EccFind) (d : Dev) :
    (d.rhLRd t r half g ty e).power = d.power := by
  fun_cases Dev.rhLRd t r half g ty e d <;> simp +zetaDelta

/-! ### Every row -/

theorem act_readyOn {s t : State} {f : Dev → Dev} (hx : s.act f = .next t) (hf : ReadyOn (f s.dev)) :
    ReadyOn t.dev := by
  cases hx
  exact readyOn_of_power hf (by rw [Dev.settle_power, logFlush_power])

theorem act_frame {s t : State} {f : Dev → Dev} (h : ReadyOn s.dev) (hx : s.act f = .next t)
    (hf : (f s.dev).power = s.dev.power) : ReadyOn t.dev :=
  act_readyOn hx (readyOn_of_power h hf)

theorem lane_frame {s t : State} {f : Dev → Dev} (h : ReadyOn s.dev) (hx : s.lane f = .next t)
    (hf : (f s.dev).power = s.dev.power) : ReadyOn t.dev := by
  cases hx
  exact readyOn_of_power h hf

/-- The rows that write the power state keep readiness within the domains on; every other row leaves the power state as it
was. -/
theorem exec_readyOn {i : Instr} {s t : State} (h : ReadyOn s.dev) (hx : exec i s = .next t) : ReadyOn t.dev := by
  cases i with
  | powerOn e => exact act_readyOn hx (doReset_readyOn _ _ _ _)
  | brownOut e => exact act_readyOn hx (doReset_readyOn _ _ _ _)
  | resetApply e => exact act_readyOn hx (resetApply_readyOn e h)
  | domainFault n e => exact act_readyOn hx (domainFaultAny_readyOn n e h)
  | tollAutoReset e => exact act_readyOn hx (tollAutoReset_readyOn e h)
  | waymarkBoundary p e => exact act_readyOn hx (boundary_readyOn p e h)
  | bankSwitch => exact act_readyOn hx (readyOn_of_power (bankSwitch_readyOn h) (replanning_power _ _))
  | pdReqWrite v host => exact act_readyOn hx (pdReqWrite_readyOn v host h)
  | registerWrite w a v => exact act_readyOn hx (writeBy_readyOn w a.toNat v h)
  | rhLRd t r half g ty e => exact act_frame h hx (rhLRd_power t r half g ty e _)
  | rhCall t fn => exact lane_frame h hx (rhCall_power t fn _)
  | rhLdc8u t => exact lane_frame h hx (rhConst_power _ t 0 1)
  | rhLdc16u t => exact lane_frame h hx (rhConst_power _ t 0 2)
  | rhLdc32 t ty => exact lane_frame h hx (rhConst_power _ t 1 4)
  | csNEarlyRise => exact act_frame (f := id) h hx rfl
  -- Start-up and resets
  | resetN | resetWarm | resetCold | strapLatch | parameterLoad | journalRecovery | imageAcceptance | retry |
    tollAutoClear | bootRead | resetNRelease =>
    exact act_frame h hx (by simp [Dev.resetN, Dev.strapLatch, Dev.bootRead, Dev.resetRelease])
  -- Time
  | zcCrossing | zcTimeout | holdoverExpiry | xtalFail | xtalSwitchover | xtalStartTimeout | xtalComp |
    dieTempRefresh | netCheckpoint | beaconTimeout | timeMsLoRead | timeSiLoRead | siOfsWrite =>
    exact act_frame h hx (by simp [Dev.zcCrossing, Dev.zcTimeout, Dev.holdoverExpiry, Dev.xtalSwitchover,
      Dev.xtalStartTimeout, Dev.xtalComp, Dev.dieTempRefresh, Dev.msLoRead, Dev.siLoRead])
  -- Modes, pots and registers
  | autorun | runWarm | runCold | halt | potStop | potWarm | potCold | forceTableWrite | forceClearAll |
    guarAckRetire | laneXchg =>
    exact act_frame h hx (by simp [Dev.modeCommand])
  -- Lanes
  | selftest | laneStall | laneParity | laneExchange =>
    exact act_frame h hx (by simp [Dev.selftest, Dev.laneStall, Dev.laneParity])
  -- The Larder and the banks
  | erase | eraseComplete | storeWrite | storeSeal | sealComplete | bankSwitchTo | switchVerified | storeAbort |
    txnBegin | txnWrite | txnCommit | provision | larderWriteComplete | wearWriteback | storeWriteComplete =>
    exact act_frame h hx (by simp)
  -- Mando
  | calibrationRotation | sliceStall | crossingAssert | crossingDeassert | scriptStart | scriptAbort | scriptEnd |
    scriptSample | scriptAverage | scriptWait | scriptRepeat | scriptMark | scriptFire | scriptGsample =>
    exact act_frame h hx (by simp [Dev.crossingDrop])
  -- Sense
  | senseSequence | diLevelChange | i2cWritePhase | i2cReadPhase | i2cTimeout =>
    exact act_frame h hx (by simp [Dev.senseSequence, Dev.diChange, Dev.i2cTimeout])
  -- The Line and the network
  | phyCfgApply | carrierDetect | bandInUse | preambleDetect | frameStart | frameSent | beacon | timeFrame |
    ackFrame | ackTimeout | mapAsk | mapOffer | mapRefresh | joinReq | joinAcc | joinRetry | courier | courierStale |
    convoy | tunnel | probe | probeGo | probeTimeout | jclr | bandNotInUse =>
    exact act_frame h hx (by simp [Dev.carrier, Dev.bandLevel, Dev.joinRetry, Dev.probeTimeout])
  -- The seat
  | identify | take | release | seatRead | seatWrite | challenge | respond | close | seatReset | tunOpen | tunSend |
    tunRecv | tunClose | seatIdleFree =>
    exact act_frame h hx (by simp)
  -- The bus
  | token | pollForMaster | replyToPollForMaster | testRequest | testResponse | bacnetDataExpectingReply |
    bacnetDataNotExpectingReply | replyPostponed | noTokenTimeout | txSlotSubmit | readProperty |
    readPropertyMultiple | writeProperty | whoIs | whoHas | subscribeCov | covLifetimeExpiry | unsupportedFrame |
    crcErr | tUsageTimeout =>
    exact act_frame h hx (by simp [Dev.busToken, Dev.busPoll, Dev.busPollReply, Dev.busTest, Dev.busReply,
      Dev.busDataReply, Dev.busData, Dev.busNoToken, Dev.readMulti, Dev.whoIs, Dev.covExpiry, Dev.busUnsupported,
      Dev.busCrcErr, Dev.busUsage])
  -- Whisk
  | decision | estimate | alignComplete | standstillTimeout | overcurrent | dcVoltage | drvFault | cmdLoss |
    cmdRegained | speedCommandEdge =>
    exact act_frame h hx (by simp [Dev.whiskDecision, Dev.whiskAlign, Dev.whiskStill, Dev.whiskOver, Dev.whiskVdc,
      Dev.whiskFault, Dev.whiskLoss, Dev.whiskRegain, Dev.whiskEdge])
  -- Fan
  | kickEnd | tachEdge | tachLost | fanCapture | shdnCompare | reversalPauseEnd | overtravelEnd | homingComplete =>
    exact act_frame h hx (by simp [Dev.kickEnd, Dev.tachEdge, Dev.tachLostEvent, Dev.shdnCompare, Dev.pauseEnd,
      Dev.overtravelEnd, Dev.homingComplete])
  -- Face
  | faceFrameStart | faceOperationComplete | stressFlush | fvPassStart | stencilEnd | stencilInk | stencilFill |
    stencilMask | stencilDigits | stencilArrow =>
    exact act_frame h hx (by simp [Dev.faceFrame, Dev.fvPassStart, Dev.stencilEnd, Dev.stencilInk,
      Dev.stencilFill, Dev.stencilMask, Dev.stencilDigits, Dev.stencilArrow])
  -- Rhamet
  | rhNop | rhPushI8 | rhPushI16 | rhPushI32 | rhPushU32 | rhPushQ | rhPushF | rhDrop | rhDup | rhSwap | rhOver |
    rhRot | rhPick | rhLdL | rhStL | rhTeeL | rhAddI | rhSubI | rhMulI | rhDivI | rhRemI | rhNegI | rhAbsI | rhAddsI |
    rhSubsI | rhMulsI | rhNegsI | rhAbssI | rhMinI | rhMaxI | rhAddU | rhSubU | rhMulU | rhDivU | rhRemU | rhAddsU |
    rhSubsU | rhMulsU | rhMinU | rhMaxU | rhAddQ | rhSubQ | rhMulQ | rhDivQ | rhNegQ | rhAbsQ | rhMinQ | rhMaxQ |
    rhAddF | rhSubF | rhMulF | rhDivF | rhNegF | rhAbsF | rhMinF | rhMaxF | rhSqrtF | rhFloorF | rhCeilF | rhRoundF |
    rhTruncF | rhCmpI | rhCmpU | rhCmpQ | rhCmpF | rhAnd | rhOr | rhXor | rhNot | rhShlI | rhShlU | rhShrI |
    rhShrU | rhRotl | rhRotr | rhClz | rhPopc | rhEqz | rhI2u | rhU2i | rhI2f | rhU2f | rhQ2f | rhF2i | rhF2u |
    rhF2q | rhI2q | rhU2q | rhQ2i | rhFBits | rhFFrom | rhQBits | rhQFrom | rhBr | rhBrz | rhBrnz | rhLoop | rhRet |
    rhSelect | rhLd8u | rhLd8s | rhLd16u | rhLd16s | rhLd32 | rhSt8 | rhSt16 | rhSt32 | rhIn | rhInst | rhOut |
    rhOutget | rhPrev | rhEdgeR | rhEdgeF | rhCapN | rhCapX | rhCapCp | rhTStart | rhTExp | rhTLeft | rhTime |
    rhRegRd | rhRegWr | rhSelf | rhHRd | rhHWr | rhHGen | rhLWr | rhLStat | rhSRun | rhSStop | rhSPar | rhSStat |
    rhFRect | rhFAbort | rhFSten | rhFStat =>
    exact lane_frame h hx (rhRaw_power ..)

end Sys2Proof.Laws

namespace Sys2Proof.Proofs

open Sys2Proof.Machine Sys2Proof.Safety Sys2Proof.Laws

/-- Settles O12. The domains whose fault resets the device are those that start-up powers, by which the model tells the
two outcomes apart; the voltage at which the other domains failed is free, under the floor by more than 50 mV. -/
theorem domainFaults : Obligations.DomainFaults := by
  unfold Obligations.DomainFaults
  intro n e s hon
  constructor
  case left =>
    intro hn
    refine completes_of_act rfl ⟨s.dev.faultVoltage n.val, faultVoltage_lt_vFloor _ n, ?_⟩
    rw [Dev.settle_power, logFlush_power, domainFaultAny_of_off hn, domainFault_power hon]
  case right =>
    intro hn
    refine completes_of_act rfl ?_
    rw [settle_sys, logFlush_sys]
    unfold Dev.domainFaultAny
    rw [if_neg (by simp [Dev.pdOn, hon]), tollgateOn_getLsbD, decide_eq_true hn, if_pos rfl]
    exact doReset_cause _ _ _ _

/-- Settles O5: every row either leaves the power state as it was or switches domains with their readiness. -/
theorem usableDomainsStayPowered : Obligations.UsableDomainsStayPowered := by
  unfold Obligations.UsableDomainsStayPowered
  intro s s' h hs
  unfold step at hs
  split at hs
  case h_1 =>
    cases hs
    exact h
  case h_2 c rest _ => exact exec_readyOn (s := { s with pending := rest }) h hs

end Sys2Proof.Proofs

/-! ## Lanes fail and are exchanged (R86 to R92) -/

namespace Sys2Proof.Laws

open Sys2Proof.Machine Sys2Proof.Safety

/-! ### Entries of the lane tables -/

theorem vgetD_fin {α : Type} {n : Nat} (v : Vector α n) (i : Fin n) (x : α) : vgetD v i.val x = v[i] := by
  simp [vgetD]

theorem vupdN_fin_get {α : Type} {n : Nat} (v : Vector α n) (i : Fin n) (f : α → α) :
    (vupdN v i.val f)[i] = f v[i] := by
  simp [vupdN]

theorem vgetD_of_getElem? {α : Type} {n i : Nat} {v : Vector α n} {y : α} (h : v[i]? = some y) (x : α) :
    vgetD v i x = y := by
  obtain ⟨hi, hy⟩ := Vector.getElem?_eq_some_iff.mp h
  simp [vgetD, hi, hy]

theorem vupdN_getElem? {α : Type} {n i : Nat} {v : Vector α n} {y : α} (h : v[i]? = some y) (f : α → α) :
    (vupdN v i f)[i]? = some (f y) := by
  obtain ⟨hi, hy⟩ := Vector.getElem?_eq_some_iff.mp h
  simp [vupdN, hi, hy]

/-! ### A failure (R86 to R90) -/

theorem vgetD_working {l : LaneState} {k : Fin 48} (hw : (l.phys[k]).retired = false) (x : PhysLane) :
    ¬(vgetD l.phys k.val x).retired = true := by
  rw [vgetD_fin, hw]
  exact Bool.false_ne_true

/-- The retirement of a physical lane changes its entry alone among the lanes. -/
theorem retireLane_lane (d : Dev) (k cause served : Nat) : (d.retireLane k cause served).lane =
    { d.lane with phys := vupdN d.lane.phys k (fun p => { p with retired := true, cause := BitVec.ofNat 4 cause }) } :=
  rfl

/-- The failure of a working lane that serves no logical lane retires it at once. -/
theorem laneFail_unmapped {d : Dev} {k : Fin 48} (cause : Nat) (hw : (d.lane.phys[k]).retired = false)
    (hu : d.lane.logical k.val = none) :
    LaneRetired d (d.laneFail k.val cause) k (BitVec.ofNat 4 cause) := by
  unfold Dev.laneFail
  rw [if_neg (vgetD_working hw _)]
  extract_lets d1
  have hu1 : d1.lane.logical k.val = none := hu
  rw [hu1]
  constructor
  · simp only [retireLane_lane, Dev.onLane_lane, vupdN_fin_get, d1]
  · rfl

/-- The failure of a working lane that serves a logical lane leaves it waiting for its exchange. -/
theorem laneFail_mapped {d : Dev} {k : Fin 48} {i : Nat} (cause : Nat) (hw : (d.lane.phys[k]).retired = false)
    (hm : d.lane.logical k.val = some i) (hf : ∀ c, (i, c) ∉ d.lane.failing) :
    LaneWaits d (d.laneFail k.val cause) k i cause := by
  have hnew : d.lane.failing.any (fun f => f.1 == i) = false := by
    rw [List.any_eq_false]
    rintro ⟨j, c⟩ hmem hj
    rw [beq_iff_eq] at hj
    subst hj
    exact hf c hmem
  unfold Dev.laneFail
  rw [if_neg (vgetD_working hw _)]
  extract_lets d1
  split
  next j hj =>
    obtain rfl : i = j := Option.some.inj (hm.symm.trans hj)
    extract_lets stuck d2
    have h2 : d2.lane = d1.lane := by
      dsimp only [d2]
      split <;> rfl
    have hnew2 : ¬d2.lane.failing.any (fun f => f.1 == i) = true := by
      rw [h2]
      exact Bool.eq_false_iff.mp hnew
    rw [if_neg hnew2]
    constructor
    · simp only [Dev.onLane_lane, h2, d1, vupdN_fin_get]
    · simp only [Dev.onLane_lane, h2, d1]
  next hj => exact absurd (hm.symm.trans hj) (Option.some_ne_none i)

/-- SELFTEST with a wrong signature is a failure, where no window of the lane is open (R86). -/
theorem selftest_fails {d : Dev} {k : Fin 48} (ho : ∀ i, d.lane.logical k.val = some i → d.laneOpen i = false) :
    d.selftest k false = d.laneFail k.val 1 := by
  unfold Dev.selftest
  extract_lets open'
  have hopen : open' = false := by
    dsimp only [open']
    split
    next i hi => exact ho i hi
    next => rfl
  rw [hopen]
  rfl

/-! ### The exchange (R88, R90, R92) -/

/-- GO for a mapped lane whose carriageway has a spare. -/
theorem laneXchg_go {d : Dev} {v : Word} {i : Fin 44} {k sp : Nat} (hi : v.extractLsb' 0 6 = BitVec.ofNat 6 i.val)
    (hgo : v.getLsbD 8 = true) (hm : d.lane.map[i] = some k) (hs : d.lane.spare[i.val / 11]? = some (some sp)) :
    d.laneXchg v = { d with lane := { d.lane with planned := some i.val } } := by
  have hlane : bitsOf v.toNat 5 0 = i.val := by
    have h := congrArg BitVec.toNat hi
    rw [BitVec.extractLsb'_toNat, BitVec.toNat_ofNat, Nat.mod_eq_of_lt (by omega : i.val < 2 ^ 6)] at h
    exact h
  have hserved : d.lane.served i.val = some k := by
    rw [LaneState.served, vgetD_fin, hm]
  have hbit : bitOf v.toNat 8 = true := hgo
  unfold Dev.laneXchg
  rw [hlane]
  simp [hbit, hserved, vgetD_of_getElem? hs, Dev.onLane, Nat.not_le.mpr i.isLt]

/-- The one lane that failed gets the spare of its carriageway, and what served it is retired. -/
theorem laneExchange_one {d : Dev} {i : Fin 44} {c k sp : Nat} (hf : d.lane.failing = [(i.val, c)])
    (ho : d.laneOpen i.val = false) (hk : k < 48) (hm : d.lane.map[i] = some k)
    (hs : d.lane.spare[i.val / 11]? = some (some sp)) (hp : d.lane.planned = none) :
    d.laneExchange.lane.map[i] = some sp ∧ d.laneExchange.lane.spare[i.val / 11]? = some none ∧
      d.laneExchange.lane.failing = [] ∧ (d.laneExchange.lane.phys[k]?.map (·.retired)) = some true := by
  have hserved : d.lane.served i.val = some k := by
    rw [LaneState.served, vgetD_fin, hm]
  have hx : (d.exchangeFailed i.val c).lane = { d.lane with
      map := vupdN d.lane.map i.val (fun _ => some sp), spare := vupdN d.lane.spare (i.val / 11) (fun _ => none)
      failing := []
      phys := vupdN d.lane.phys k (fun p => { p with retired := true, cause := BitVec.ofNat 4 c }) } := by
    simp [Dev.exchangeFailed, hserved, vgetD_of_getElem? hs, retireLane_lane, hp, hf]
  have hlane : d.laneExchange = d.exchangeFailed i.val c := by
    simp [Dev.laneExchange, hf, ho, hx, hp]
  rw [hlane, hx]
  refine ⟨vupdN_fin_get _ i _, vupdN_getElem? hs _, rfl, ?_⟩
  dsimp only
  rw [vupdN_getElem? (Vector.getElem?_eq_getElem hk)]
  rfl

end Sys2Proof.Laws

namespace Sys2Proof.Proofs

open Sys2Proof.Machine Sys2Proof.Safety Sys2Proof.Laws

/-- Settles O23. A failure touches one physical lane and, where it serves a logical lane, the lanes that wait; the
exchange is that of the one lane that waits. -/
theorem lanesFailAndExchange : Obligations.LanesFailAndExchange := by
  unfold Obligations.LanesFailAndExchange
  constructor
  · intro k s hw
    constructor
    · intro hu
      have hfail (cause : Nat) := laneFail_unmapped cause hw hu
      have hself := selftest_fails (d := s.dev) (k := k) (fun i hi => by rw [hu] at hi; cases hi)
      exact ⟨completes_of_act rfl (hself ▸ hfail 1), completes_of_act rfl (hfail 2),
        completes_of_act rfl (hfail 3)⟩
    · intro i hm hf
      have hfail (cause : Nat) := laneFail_mapped cause hw hm hf
      refine ⟨completes_of_act rfl (hfail 2), completes_of_act rfl (hfail 3), fun ho => ?_⟩
      have hself := selftest_fails (d := s.dev) (k := k) (fun j hj => by rw [hm] at hj; cases hj; exact ho)
      exact completes_of_act rfl (hself ▸ hfail 1)
  · intro s
    constructor
    · intro v i k sp hl hi hgo hm hs
      exact becomes_of_quiet rfl (laneXchg_go hi hgo hm hs) hl rfl
    · intro i c k sp hf ho hk hm hs hp
      exact completes_of_act rfl (laneExchange_one hf ho hk hm hs hp)

end Sys2Proof.Proofs

/-! ## What the holder of the seat reads and writes (R106, R421, R422, R424, R425) -/

namespace Sys2Proof.Laws

open Sys2Proof.Machine Sys2Proof.Safety

/-! ### A request of the holder (R412, R418, R427) -/

/-- The next request of the holder is performed on the device as its frame finds it, and its response is kept. -/
theorem sequenced_nextOfHolder {d e : Dev} {r : SeatReq} (h : NextOfHolder d r) (cmd : Nat)
    {run : Option (List Byte × Nat) → Dev → SeatStatus × List Byte × Dev} {st : SeatStatus} {p : List Byte}
    (hrun : run d.seat.nonce (heardDev d) = (st, p, e)) :
    d.sequenced .spi cmd r run = (answerTo r st.code p, e.onSeat fun x =>
      { x with e := x.e + 1, stored := some { crc := r.crc cmd, resp := answerTo r st.code p } }) := by
  obtain ⟨⟨-, hcrc, hboot⟩, hholder, hestr, hseq⟩ := h
  have hheard : (d.hear .spi).onSeat (fun x => { x with nonce := none }) = heardDev d := by
    simp [Dev.hear, hholder, Dev.onSeat, heardDev]
  have hgate : (d.hear .spi).gate r false = none := by
    simp [Dev.gate, Dev.hear, hcrc, hboot, hholder]
  have hsame : (d.hear .spi).seat = { d.seat with heard := d.ms } := by
    simp [Dev.hear, hholder]
  have hjudge : d.sequenced .spi cmd r run = (d.hear .spi).bySeq cmd r run := by
    simp [Dev.sequenced, hgate, hsame, hestr, hholder]
  have hnext : r.seq = (d.hear .spi).seat.e := by
    rw [hsame, hseq]
  rw [hjudge, Dev.bySeq, if_pos hnext, hheard, hsame, hrun]
  rfl

/-- What the next request of the holder completes in, from what performing it answers. -/
theorem becomes_answered {i : Instr} {s : State} {r : SeatReq} {cmd status : Nat} {st : SeatStatus} {p : List Byte}
    {d : Dev} {run : Option (List Byte × Nat) → Dev → SeatStatus × List Byte × Dev}
    (hi : exec i s = s.act (Dev.port fun d => Dev.spi (d.sequenced .spi cmd r run))) (hn : NextOfHolder s.dev r)
    (hrun : run s.dev.seat.nonce (heardDev s.dev) = (st, p, d)) (hst : st.code = status) (hl : Logged d)
    (hs : d.sys = s.dev.sys) : Becomes i s (answered d cmd r status p) := by
  have hpd : s.dev.pd 1 = true := by
    obtain ⟨⟨hpd, -, -⟩, -⟩ := hn
    exact hpd
  have hf : Dev.port (fun d => Dev.spi (d.sequenced .spi cmd r run)) s.dev = answered d cmd r status p := by
    rw [Dev.port, if_pos hpd, sequenced_nextOfHolder hn cmd hrun, hst]
    rfl
  exact becomes_of_quiet hi hf hl hs

/-! ### The regions of the host's addresses (Table 18.1, R421) -/

theorem hostRegion_registers {a : Nat} (h : a < 0x100000) : hostRegion a = 0 := by
  simp [hostRegion, h]

theorem hostRegion_worktop {a : Nat} (h : 0x100000 ≤ a) (h' : a < 0x200000) : hostRegion a = 1 := by
  rw [hostRegion, if_neg (by omega), if_pos h']

theorem hostRegion_pantry {a : Nat} (h : 0x200000 ≤ a) (h' : a < 0x400000) : hostRegion a = 2 := by
  rw [hostRegion, if_neg (by omega), if_neg (by omega), if_pos h']

/-- One aligned word of register space is within one region. -/
theorem rangeOk_register {a : Nat} (h : a < 0x100000) (ha : a % 4 = 0) : rangeOk .spi a 4 = true := by
  simp [rangeOk, Holder.isRemote, hostRegion_registers h, hostRegion_registers (a := a + 3) (by omega)]

theorem rangeOk_worktop {a n : Nat} (h : 0x100000 ≤ a) (h1 : 1 ≤ n) (h2 : n ≤ 1024) (h3 : a + n ≤ 0x200000) :
    rangeOk .spi a n = true := by
  simp [rangeOk, Holder.isRemote, h1, h2, hostRegion_worktop h (by omega),
    hostRegion_worktop (a := a + n - 1) (by omega) (by omega)]

/-! ### Reads (R421, R422) -/

theorem readBytes_eq_map (u : Nat → Byte) (m : Mem) (a n : Nat) :
    Mem.readBytes u m a n = (upTo n).map (fun i => Mem.read u m (a + i)) := by
  induction n generalizing a with
  | zero => rfl
  | succ n ih =>
    rw [Mem.readBytes, ih, upTo, upTo, List.range_succ_eq_map, List.map_cons, List.map_map]
    simp [Function.comp_def, Nat.add_comm, Nat.add_left_comm]

/-- Only the low words of the milestone count and of the SI time latch what follows them (R56). -/
theorem latchReads_unlatched (d : Dev) (who : Fin 17) (frac : BitVec 16) {a : Nat} (h1 : a ≠ 0x10010)
    (h2 : a ≠ 0x10028) : d.latchReads who frac [a] = d := by
  simp [Dev.latchReads, h1.symm, h2.symm]

theorem doRead_register {r : SeatReq} {a : Nat} (hr : r.addr.toNat = a) (env : SeatEnv) (d : Dev) (h : a < 0x100000)
    (ha : a % 4 = 0) (hlen : r.len = 4) (h0 : a ≠ 0x48) (h1 : a ≠ 0x10010) (h2 : a ≠ 0x10028) :
    d.doRead .spi r env = (.ok, leBytes 4 (d.hostRead d.seat.priv env.frac a).toNat, d) := by
  simp [Dev.doRead, hr, hlen, rangeOk_register h ha, hostRegion_registers h, ha, wordAddrs, upTo,
    latchReads_unlatched d 16 env.frac h1 h2, h0]

theorem doRead_worktop {r : SeatReq} {a : Nat} (hr : r.addr.toNat = a) (env : SeatEnv) {d : Dev} (h : 0x100000 ≤ a)
    (h1 : 1 ≤ r.len.toNat) (h2 : r.len.toNat ≤ 1024) (h3 : a + r.len.toNat ≤ 0x200000) (hp : d.seat.priv = true) :
    d.doRead .spi r env =
      (.ok, (upTo r.len.toNat).map (fun i => Mem.read zeroByte d.cycle.worktop (a - 0x100000 + i)), d) := by
  simp [Dev.doRead, hr, rangeOk_worktop h h1 h2 h3, hostRegion_worktop (a := a) h (by omega), hp, readBytes_eq_map]

theorem doRead_worktop_denied {r : SeatReq} {a : Nat} (hr : r.addr.toNat = a) (env : SeatEnv) {d : Dev}
    (h : 0x100000 ≤ a) (h1 : 1 ≤ r.len.toNat) (h2 : r.len.toNat ≤ 1024) (h3 : a + r.len.toNat ≤ 0x200000)
    (hp : d.seat.priv = false) : d.doRead .spi r env = (.denied, [], d) := by
  simp [Dev.doRead, hr, rangeOk_worktop h h1 h2 h3, hostRegion_worktop (a := a) h (by omega), hp]

/-! ### Writes (R106, R422, R424, R425) -/

/-- Counting one event up to the greatest value is counting up by one. -/
theorem satAdd_one {n : Nat} (c : BitVec n) : satAdd c 1 = satInc c := by
  have hc := c.isLt
  apply BitVec.eq_of_toNat_eq
  unfold satAdd satInc
  split
  next h =>
    subst h
    rw [BitVec.toNat_ofNat, BitVec.toNat_allOnes]
    rw [Nat.min_eq_right (by omega), Nat.mod_eq_of_lt (by omega)]
  next h =>
    have hne : c.toNat ≠ 2 ^ n - 1 := fun he => h (BitVec.eq_of_toNat_eq (by rw [he, BitVec.toNat_allOnes]))
    have hlt : c.toNat + 1 < 2 ^ n := by omega
    have hone : 1 < 2 ^ n := by omega
    rw [BitVec.toNat_ofNat, BitVec.toNat_add, Nat.min_eq_left (by omega)]
    simp [Nat.mod_eq_of_lt hone]

/-- The word that four bytes spell. -/
theorem payloadWords_four {p : List Byte} (h : p.length = 4) : payloadWords p = [leNat p] := by
  simp [payloadWords, h, upTo, leAt, List.take_of_length_le]

theorem doWrite_register {r : SeatReq} {a : Nat} (hr : r.addr.toNat = a) (env : SeatEnv) {d : Dev} (h : a < 0x100000)
    (ha : a % 4 = 0) (hlen : r.payload.length = 4) (hp : d.seat.priv = true) (hm : d.sys.mode ≠ .tollgate) :
    d.doWrite .spi r env = (.ok, [], d.accepted
      [.reg a (BitVec.ofNat 32 (leNat r.payload)) true d.sys.recorded env.words]) := by
  simp [Dev.doWrite, hr, hlen, rangeOk_register h ha, hostRegion_registers h, ha, payloadWords_four hlen,
    Dev.writeRegs, wordAddrs, upTo, hp, hm]

theorem doWrite_register_denied {r : SeatReq} {a : Nat} (hr : r.addr.toNat = a) (env : SeatEnv) {d : Dev}
    (h : a < 0x100000) (ha : a % 4 = 0) (hlen : r.payload.length = 4) (hp : d.seat.priv = false)
    (hprov : d.sys.provEn = false) : d.doWrite .spi r env =
      (.denied, [], { d with lane := { d.lane with hostDenied := satInc d.lane.hostDenied } }) := by
  simp [Dev.doWrite, hr, hlen, rangeOk_register h ha, hostRegion_registers h, ha, payloadWords_four hlen,
    Dev.writeRegs, hp, hprov, satAdd_one]

/-- A write of the worktop by a host with a session: accepted for step 1, or refused whole in TOLLGATE (R277). -/
theorem doWrite_worktop {r : SeatReq} {a : Nat} (hr : r.addr.toNat = a) (env : SeatEnv) {d : Dev} (h : 0x100000 ≤ a)
    (h1 : 1 ≤ r.payload.length) (h2 : r.payload.length ≤ 1024) (h3 : a + r.payload.length ≤ 0x200000)
    (hp : d.seat.priv = true) : d.doWrite .spi r env =
      if d.sys.mode = .tollgate then (.tollgate, [], d)
      else (.ok, [], d.accepted [.worktop (a - 0x100000) r.payload]) := by
  simp [Dev.doWrite, hr, rangeOk_worktop h h1 h2 h3, hostRegion_worktop (a := a) h (by omega), hp]

/-- The pantry is never written through its window (R425). -/
theorem doWrite_pantry {r : SeatReq} {a : Nat} (hr : r.addr.toNat = a) (env : SeatEnv) (d : Dev) (h : 0x200000 ≤ a)
    (h' : a < 0x400000) : d.doWrite .spi r env = (.denied, [], d) := by
  simp [Dev.doWrite, hr, hostRegion_pantry h h']

end Sys2Proof.Laws

namespace Sys2Proof.Proofs

open Sys2Proof.Machine Sys2Proof.Safety Sys2Proof.Laws

/-- Settles O51: each request is performed on the device as its frame finds it, and raises no event. -/
theorem seatReadsAndWrites : Obligations.SeatReadsAndWrites := by
  unfold Obligations.SeatReadsAndWrites
  intro r env s hl hn d a
  have hread {st p e} (status : Nat) (h : d.doRead .spi r env = (st, p, e)) (hst : st.code = status) (he : Logged e)
      (hs : e.sys = s.dev.sys) : Becomes (.seatRead r env) s (answered e 0x10 r status p) :=
    becomes_answered (run := fun _ x => x.doRead .spi r env) rfl hn h hst he hs
  have hwrite {st p e} (status : Nat) (h : d.doWrite .spi r env = (st, p, e)) (hst : st.code = status) (he : Logged e)
      (hs : e.sys = s.dev.sys) : Becomes (.seatWrite r env) s (answered e 0x11 r status p) :=
    becomes_answered (run := fun _ x => x.doWrite .spi r env) rfl hn h hst he hs
  refine ⟨?registerRead, ?worktopRead, ?registerWrite, ?worktopWrite, ?pantryWrite⟩
  case registerRead =>
    intro h ha hlen hne
    simp only [List.mem_cons, List.not_mem_nil, or_false, not_or] at hne
    obtain ⟨h0, h1, h2⟩ := hne
    exact hread 0 (doRead_register rfl env d h ha hlen h0 h1 h2) rfl hl rfl
  case worktopRead =>
    intro h h1 h2 h3
    exact ⟨fun hp => hread 0 (doRead_worktop rfl env h h1 h2 h3 hp) rfl hl rfl,
      fun hp => hread 2 (doRead_worktop_denied rfl env h h1 h2 h3 hp) rfl hl rfl⟩
  case registerWrite =>
    intro h ha hlen
    exact ⟨fun hp hm => hwrite 0 (doWrite_register rfl env h ha hlen hp hm) rfl hl rfl,
      fun hp hprov => hwrite 2 (doWrite_register_denied rfl env h ha hlen hp hprov) rfl hl rfl⟩
  case worktopWrite =>
    intro h h1 h2 h3 hp
    have hw := doWrite_worktop (d := d) rfl env h h1 h2 h3 hp
    exact ⟨fun hm => hwrite 0 (hw.trans (if_neg hm)) rfl hl rfl,
      fun hm => hwrite 6 (hw.trans (if_pos hm)) rfl hl rfl⟩
  case pantryWrite =>
    intro h h'
    exact hwrite 2 (doWrite_pantry rfl env d h h') rfl hl rfl

end Sys2Proof.Proofs

/-! ## The memories of the device, as one value -/

namespace Sys2Proof.Machine

/-- The memories whose canonical form is kept: the worktop, the banks and the larder's home groups. -/
def Dev.mems (d : Dev) : Mem × Mem × Mem × Mem :=
  (d.cycle.worktop, d.store.bankA.bytes, d.store.bankB.bytes, d.store.home)

@[simp] theorem Dev.mems_mk (time : TimeState) (power : PowerState) (sys : SysState) (lane : LaneState)
    (cycle : CycleState) (image : Image) (store : StoreState) (mando : MandoState) (sense : SenseState)
    (whisk : Vector Whisk 2) (fan : FanState) (face : FaceState) (line : LineState) (seat : SeatState)
    (bus : BusState) (free : Nat) :
    (Dev.mk time power sys lane cycle image store mando sense whisk fan face line seat bus free).mems =
      (cycle.worktop, store.bankA.bytes, store.bankB.bytes, store.home) := rfl

@[simp] theorem Dev.mems_eta (d : Dev) :
    (d.cycle.worktop, d.store.bankA.bytes, d.store.bankB.bytes, d.store.home) = d.mems := rfl

@[simp] theorem Dev.onTime_mems (d : Dev) (f : TimeState → TimeState) : (d.onTime f).mems = d.mems := rfl
@[simp] theorem Dev.onPower_mems (d : Dev) (f : PowerState → PowerState) : (d.onPower f).mems = d.mems := rfl
@[simp] theorem Dev.onSys_mems (d : Dev) (f : SysState → SysState) : (d.onSys f).mems = d.mems := rfl
@[simp] theorem Dev.onLane_mems (d : Dev) (f : LaneState → LaneState) : (d.onLane f).mems = d.mems := rfl
@[simp] theorem Dev.onMando_mems (d : Dev) (f : MandoState → MandoState) : (d.onMando f).mems = d.mems := rfl
@[simp] theorem Dev.onSense_mems (d : Dev) (f : SenseState → SenseState) : (d.onSense f).mems = d.mems := rfl
@[simp] theorem Dev.onFan_mems (d : Dev) (f : FanState → FanState) : (d.onFan f).mems = d.mems := rfl
@[simp] theorem Dev.onFace_mems (d : Dev) (f : FaceState → FaceState) : (d.onFace f).mems = d.mems := rfl
@[simp] theorem Dev.onLine_mems (d : Dev) (f : LineState → LineState) : (d.onLine f).mems = d.mems := rfl
@[simp] theorem Dev.onSeat_mems (d : Dev) (f : SeatState → SeatState) : (d.onSeat f).mems = d.mems := rfl
@[simp] theorem Dev.onBus_mems (d : Dev) (f : BusState → BusState) : (d.onBus f).mems = d.mems := rfl
@[simp] theorem Dev.onUnit_mems (d : Dev) (u : Nat) (f : Whisk → Whisk) : (d.onUnit u f).mems = d.mems := rfl
@[simp] theorem Dev.onCycle_mems (d : Dev) (f : CycleState → CycleState) : (d.onCycle f).mems =
    ((f d.cycle).worktop, d.store.bankA.bytes, d.store.bankB.bytes, d.store.home) := rfl
@[simp] theorem Dev.onStore_mems (d : Dev) (f : StoreState → StoreState) : (d.onStore f).mems =
    (d.cycle.worktop, (f d.store).bankA.bytes, (f d.store).bankB.bytes, (f d.store).home) := rfl
@[simp] theorem Dev.settle_mems (b d : Dev) : (Dev.settle b d).mems = d.mems := rfl

end Sys2Proof.Machine

namespace Sys2Proof.Laws

open Sys2Proof.Machine Sys2Proof.Safety

/-! ## What keeps the memories

A lemma `f_mems` says of each function that writes none of the memories that it leaves them as they were, in the order
of the model, so that `simp` carries `Dev.mems` through any composition of them. A lemma `f_memWf` says of each function
that writes one that it keeps the canonical form; these follow, from the writes of single bytes up to the rows. -/

/-! ### Updates of the store that leave its memories -/

@[simp] theorem writeImmBy_mems (host : Bool) (s : StoreState) (g : Nat) (b : List Byte) :
    (s.writeImmBy host g b).bankA = s.bankA ∧ (s.writeImmBy host g b).bankB = s.bankB ∧
      (s.writeImmBy host g b).home = s.home := by
  unfold StoreState.writeImmBy
  split
  · split <;> exact ⟨rfl, rfl, rfl⟩
  · exact ⟨rfl, rfl, rfl⟩

@[simp] theorem writeImm_mems (s : StoreState) (g : Nat) (b : List Byte) :
    (s.writeImm g b).bankA = s.bankA ∧ (s.writeImm g b).bankB = s.bankB ∧ (s.writeImm g b).home = s.home :=
  writeImmBy_mems false s g b

@[simp] theorem writePart_mems (s : StoreState) (g lo : Nat) (b : List Byte) :
    (s.writePart g lo b).bankA = s.bankA ∧ (s.writePart g lo b).bankB = s.bankB ∧
      (s.writePart g lo b).home = s.home :=
  writeImm_mems s g _

@[simp] theorem writeTxn_mems (host : Bool) (owner : Nat) (s : StoreState) (gs : List (Nat × List Byte)) :
    (s.writeTxn host owner gs).bankA = s.bankA ∧ (s.writeTxn host owner gs).bankB = s.bankB ∧
      (s.writeTxn host owner gs).home = s.home := by
  unfold StoreState.writeTxn
  extract_lets keep
  split <;> exact ⟨rfl, rfl, rfl⟩

@[simp] theorem setResult_mems (s : StoreState) (op result : Nat) :
    (s.setResult op result).bankA = s.bankA ∧ (s.setResult op result).bankB = s.bankB ∧
      (s.setResult op result).home = s.home := ⟨rfl, rfl, rfl⟩

@[simp] theorem foldl_storeMems {α : Type} {f : StoreState → α → StoreState}
    (hf : ∀ s a, (f s a).bankA = s.bankA ∧ (f s a).bankB = s.bankB ∧ (f s a).home = s.home) (l : List α)
    (s : StoreState) :
    (l.foldl f s).bankA = s.bankA ∧ (l.foldl f s).bankB = s.bankB ∧ (l.foldl f s).home = s.home := by
  induction l generalizing s with
  | nil => exact ⟨rfl, rfl, rfl⟩
  | cons a l ih =>
    obtain ⟨ha, hb, hh⟩ := hf s a
    simpa [ha, hb, hh] using ih (f s a)

@[simp] theorem setBank_mems (s : StoreState) (b : Bool) (x : Bank) (h : x.bytes = (s.bank b).bytes) :
    (s.setBank b x).bankA.bytes = s.bankA.bytes ∧ (s.setBank b x).bankB.bytes = s.bankB.bytes ∧
      (s.setBank b x).home = s.home := by
  cases b <;> simp_all [StoreState.setBank, StoreState.bank]

@[simp] theorem activate_mems (s : StoreState) (b : Option Bool) :
    (s.activate b).bankA.bytes = s.bankA.bytes ∧ (s.activate b).bankB.bytes = s.bankB.bytes ∧
      (s.activate b).home = s.home := by
  unfold StoreState.activate
  refine ⟨?_, ?_, rfl⟩ <;> (dsimp only; split <;> [rfl; (split <;> rfl)])

@[simp] theorem recordBank_mems (s : StoreState) (b : Bool) :
    (s.recordBank b).bankA = s.bankA ∧ (s.recordBank b).bankB = s.bankB ∧ (s.recordBank b).home = s.home := by
  simp [StoreState.recordBank]

@[simp] theorem writeEntry_mems (stamp : Nat × Bool) (s : StoreState) (e : LogEvent) :
    (writeEntry stamp s e).bankA = s.bankA ∧ (writeEntry stamp s e).bankB = s.bankB ∧
      (writeEntry stamp s e).home = s.home := by
  rw [writeEntry_keeps stamp s e]
  exact ⟨rfl, rfl, rfl⟩

@[simp] theorem logFlush_mems (d : Dev) : d.logFlush.mems = d.mems := by
  unfold Dev.logFlush
  simp

/-! ### Choices, folds and frames -/

@[simp] theorem mems_ite (c : Prop) [Decidable c] (a b : Dev) :
    (if c then a else b).mems = if c then a.mems else b.mems := apply_ite Dev.mems c a b

@[simp] theorem foldl_mems {α : Type} {f : Dev → α → Dev} (hf : ∀ d a, (f d a).mems = d.mems)
    (l : List α) (d : Dev) : (l.foldl f d).mems = d.mems := by
  induction l generalizing d with
  | nil => rfl
  | cons a l ih => exact (ih _).trans (hf d a)

theorem OnlyLine.mems {d e : Dev} (h : OnlyLine d e) : e.mems = d.mems := by
  obtain ⟨l, rfl⟩ := h
  rfl

theorem foldl_snd_mems {α β : Type} {f : β × Dev → α → β × Dev} (hf : ∀ x a, (f x a).2.mems = x.2.mems)
    (l : List α) (x : β × Dev) : (l.foldl f x).2.mems = x.2.mems := by
  induction l generalizing x with
  | nil => rfl
  | cons a l ih => exact (ih _).trans (hf x a)

theorem foldl_fst_mems {α β : Type} {f : Dev × β → α → Dev × β} (hf : ∀ x a, (f x a).1.mems = x.1.mems)
    (l : List α) (x : Dev × β) : (l.foldl f x).1.mems = x.1.mems := by
  induction l generalizing x with
  | nil => rfl
  | cons a l ih => exact (ih _).trans (hf x a)

/-! ### Events, lost and retired groups -/

@[simp] theorem attnStore_mems (d : Dev) : d.attnStore.mems = d.mems := by rfl

@[simp] theorem event_mems (d : Dev) (code subject detail tag aux : Nat) :
    (d.event code subject detail tag aux).mems = d.mems := by rfl

@[simp] theorem uncorrPot_mems (d : Dev) (kind p aux : Nat) : (d.uncorrPot kind p aux).mems = d.mems := by
  simp [Dev.uncorrPot]

@[simp] theorem uncorrShared_mems (d : Dev) (kind aux : Nat) : (d.uncorrShared kind aux).mems = d.mems := by rfl

@[simp] theorem onRegion_mems (d : Dev) (g : Nat) (f : RegionStat → RegionStat) :
    (d.onRegion g f).mems = d.mems := by
  unfold Dev.onRegion
  split <;> simp

@[simp] theorem countWear_mems (d : Dev) (g : Nat) : (d.countWear g).mems = d.mems := by
  simp [Dev.countWear]

@[simp] theorem markLostRead_mems (d : Dev) (g : Nat) : (d.markLostRead g).mems = d.mems := by
  simp [Dev.markLostRead]

@[simp] theorem recordRetirement_mems (d : Dev) (kind unit cause : Nat) :
    (d.recordRetirement kind unit cause).mems = d.mems := by
  simp [Dev.recordRetirement]

/-! ### The Line: reception, its rate -/

@[simp] theorem readHeader_mems (d : Dev) (p : PreambleEnv) : (d.readHeader p).mems = d.mems := by
  fun_cases Dev.readHeader d p <;> simp +zetaDelta [Dev.beginRx]

@[simp] theorem preamble_mems (p : PreambleEnv) (d : Dev) : (d.preamble p).mems = d.mems := by
  fun_cases Dev.preamble p d <;> simp

@[simp] theorem received_mems (e : RxEnd) (d : Dev) :
    (d.received e).1.mems = d.mems := (onlyLine_received e d).mems

@[simp] theorem phyCfgApply_mems (d : Dev) : d.phyCfgApply.mems = d.mems := by
  unfold Dev.phyCfgApply
  split <;> simp

@[simp] theorem retimeTx_mems (d : Dev) : d.retimeTx.mems = d.mems := by
  fun_cases Dev.retimeTx d <;> simp +zetaDelta

/-! ### Frames for the network -/

@[simp] theorem enqueue_mems (d : Dev) (q : QFrame) : (d.enqueue q).mems = d.mems := (onlyLine_enqueue d q).mems

@[simp] theorem nextEseq_mems (d : Dev) : d.nextEseq.1.mems = d.mems := (onlyLine_nextEseq d).mems

@[simp] theorem askMap_mems (d : Dev) (n : Nat) : (d.askMap n).mems = d.mems := (onlyLine_askMap d n).mems

@[simp] theorem mapFor_mems (d : Dev) (n : Nat) : (d.mapFor n).mems = d.mems := (onlyLine_mapFor d n).mems

@[simp] theorem sendBroadcast_mems (d : Dev) (ftype place : Nat) (mode : LineMode) (body : List Byte) :
    (d.sendBroadcast ftype place mode body).mems = d.mems := by
  simp [Dev.sendBroadcast]

@[simp] theorem sendRouted_mems (d : Dev) (q : QFrame) (r : Bool) : (d.sendRouted q r).mems = d.mems :=
  (onlyLine_sendRouted d q r).mems

@[simp] theorem joinReq_mems (d : Dev) : d.joinReq.mems = d.mems := (onlyLine_joinReq d).mems

@[simp] theorem chooseParent_mems (d : Dev) : d.chooseParent.mems = d.mems := (onlyLine_chooseParent d).mems

@[simp] theorem offerMap_mems (d : Dev) (n : Nat) (snr : List Int) : (d.offerMap n snr).mems = d.mems :=
  (onlyLine_offerMap d n snr).mems

/-! ### The building bus -/

@[simp] theorem busSay_mems (d : Dev) (mac : Nat) (m : BacMsg) : (d.busSay mac m).mems = d.mems := by
  simp [Dev.busSay]

@[simp] theorem readProperty_mems (mac invoke : Nat) (r : BacRef) (d : Dev) :
    (d.readProperty mac invoke r).mems = d.mems := by
  unfold Dev.readProperty
  split <;> simp

@[simp] theorem writeProperty_mems (mac invoke : Nat) (r : BacRef) (v : BacValue) (d : Dev) :
    (d.writeProperty mac invoke r v).mems = d.mems := by
  fun_cases Dev.writeProperty mac invoke r v d <;> simp +zetaDelta

@[simp] theorem whoHas_mems (key : WhoHasKey) (d : Dev) : (d.whoHas key).mems = d.mems := by
  fun_cases Dev.whoHas key d <;> simp

@[simp] theorem subscribeCov_mems (mac invoke process type inst lifetime : Nat) (confirmed : Bool) (d : Dev) :
    (d.subscribeCov mac invoke process type inst lifetime confirmed).mems = d.mems := by
  unfold Dev.subscribeCov
  split <;> simp

@[simp] theorem busRelease_mems (d : Dev) : d.busRelease.mems = d.mems := by
  unfold Dev.busRelease
  split
  · rfl
  · exact foldl_mems (fun d s => by split <;> simp) _ _

@[simp] theorem busStart_mems (d : Dev) : d.busStart.mems = d.mems := by
  simp [Dev.busStart]

@[simp] theorem busStop_mems (d : Dev) : d.busStop.mems = d.mems := by rfl

/-! ### Input elements and captures -/

@[simp] theorem setInput_mems (d : Dev) (ch el : Nat) (v : Word) : (d.setInput ch el v).mems = d.mems := by rfl

@[simp] theorem setInputs_mems (d : Dev) (ch el : Nat) (vs : List Word) :
    (d.setInputs ch el vs).mems = d.mems := by
  simp [Dev.setInputs]

@[simp] theorem capture_mems (d : Dev) (stream stamp : Nat) (rise : Bool) :
    (d.capture stream stamp rise).mems = d.mems := by rfl

/-! ### Converters, scripts and crossings -/

@[simp] theorem onSlot_mems (d : Dev) (n : Nat) (f : Slot → Slot) : (d.onSlot n f).mems = d.mems := by rfl

@[simp] theorem onConv_mems (d : Dev) (c : Nat) (f : Converter → Converter) :
    (d.onConv c f).mems = d.mems := by rfl

@[simp] theorem loadConverters_mems (d : Dev) : d.loadConverters.mems = d.mems := by rfl

@[simp] theorem retireSlice_mems (d : Dev) (c k cause : Nat) : (d.retireSlice c k cause).mems = d.mems := by
  simp [Dev.retireSlice]

@[simp] theorem calAttempt_mems (d : Dev) (c k : Nat) (r : CalResult) : (d.calAttempt c k r).mems = d.mems := by
  simp [Dev.calAttempt]

@[simp] theorem calExchange_mems (d : Dev) (c connect : Nat) : (d.calExchange c connect).mems = d.mems := by
  fun_cases Dev.calExchange d c connect <;> simp +zetaDelta

@[simp] theorem slotRun_mems (d : Dev) (n : Nat) : (d.slotRun n).mems = d.mems := by
  fun_cases Dev.slotRun d n <;> simp

@[simp] theorem abortSlot_mems (d : Dev) (n at' : Nat) : (d.abortSlot n at').mems = d.mems := by rfl

@[simp] theorem scriptStart_mems (n : Fin 16) (d : Dev) : (d.scriptStart n).mems = d.mems := by
  fun_cases Dev.scriptStart n d <;> simp

@[simp] theorem scriptAbort_mems (n : Fin 16) (d : Dev) : (d.scriptAbort n).mems = d.mems := by
  fun_cases Dev.scriptAbort n d <;> simp

@[simp] theorem advance_mems (d : Dev) (n : Nat) (r : ScriptRun) : (d.advance n r).mems = d.mems := by rfl

@[simp] theorem pushEntry_mems (d : Dev) (n : Nat) (t : Tick) (w : Word) :
    (d.pushEntry n t w).mems = d.mems := by rfl

@[simp] theorem setRun_mems (d : Dev) (n : Nat) (r : ScriptRun) : (d.setRun n r).mems = d.mems := by rfl

@[simp] theorem pushSample_mems (d : Dev) (n : Nat) (r : ScriptRun) (t : Tick) (v : SampleVal) :
    (d.pushSample n r t v).mems = d.mems := by rfl

@[simp] theorem scriptSample_mems (n : Fin 16) (vs : List SampleIn) (d : Dev) :
    (d.scriptSample n vs).mems = d.mems := by
  fun_cases Dev.scriptSample n vs d <;> simp +zetaDelta

@[simp] theorem scriptAverage_mems (n : Fin 16) (vs : List SampleIn) (d : Dev) :
    (d.scriptAverage n vs).mems = d.mems := by
  fun_cases Dev.scriptAverage n vs d <;> simp

@[simp] theorem scriptWait_mems (n : Fin 16) (d : Dev) : (d.scriptWait n).mems = d.mems := by
  unfold Dev.scriptWait
  split <;> simp

@[simp] theorem scriptRepeat_mems (n : Fin 16) (d : Dev) : (d.scriptRepeat n).mems = d.mems := by
  unfold Dev.scriptRepeat
  split <;> simp

@[simp] theorem scriptMark_mems (n : Fin 16) (d : Dev) : (d.scriptMark n).mems = d.mems := by
  unfold Dev.scriptMark
  split <;> simp

@[simp] theorem scriptEnd_mems (n : Fin 16) (d : Dev) : (d.scriptEnd n).mems = d.mems := by
  unfold Dev.scriptEnd
  split <;> simp

@[simp] theorem trigger_mems (d : Dev) (g at' : Nat) : (d.trigger g at').mems = d.mems := by
  simp [Dev.trigger]

@[simp] theorem scriptFire_mems (n : Fin 16) (d : Dev) : (d.scriptFire n).mems = d.mems := by
  unfold Dev.scriptFire
  split <;> simp

@[simp] theorem scriptGsample_mems (n : Fin 16) (v : SampleIn) (d : Dev) :
    (d.scriptGsample n v).mems = d.mems := by
  fun_cases Dev.scriptGsample n v d <;> simp

@[simp] theorem loadGroups_mems (d : Dev) : d.loadGroups.mems = d.mems := by rfl

@[simp] theorem slotsLeave_mems (d : Dev) (p : Nat) : (d.slotsLeave p).mems = d.mems := by
  simp [Dev.slotsLeave]

@[simp] theorem waymarkStarts_mems (d : Dev) (c : Nat) : (d.waymarkStarts c).mems = d.mems := by
  unfold Dev.waymarkStarts
  exact foldl_mems (fun d n => by split <;> simp) _ _

@[simp] theorem onCx_mems (d : Dev) (i : Nat) (f : Crossing → Crossing) : (d.onCx i f).mems = d.mems := by rfl

@[simp] theorem cxDrop_mems (d : Dev) (i stamp : Nat) : (d.cxDrop i stamp).mems = d.mems := by
  simp [Dev.cxDrop]

@[simp] theorem cxApply_mems (d : Dev) (a : Nat) (v : Word) : (d.cxApply a v).mems = d.mems := by
  simp [Dev.cxApply]

@[simp] theorem mandoPresent_mems (d : Dev) : d.mandoPresent.mems = d.mems := by
  simp [Dev.mandoPresent]

@[simp] theorem cxAssert_mems (d : Dev) (i stamp : Nat) : (d.cxAssert i stamp).mems = d.mems := by
  unfold Dev.cxAssert
  extract_lets d1 d2
  have h2 : d2.mems = d1.mems := foldl_mems (fun d n => by split <;> simp) _ _
  simp [h2, d1]

@[simp] theorem convScriptsOff_mems (d : Dev) (c at' : Nat) : (d.convScriptsOff c at').mems = d.mems := by
  simp [Dev.convScriptsOff]

/-! ### The larder and the code banks -/

@[simp] theorem storeRefuse_mems (d : Dev) (op code : Nat) : (d.storeRefuse op code).mems = d.mems := by rfl

@[simp] theorem storeEnd_mems (d : Dev) (op code : Nat) (point : Bool) :
    (d.storeEnd op code point).mems = d.mems := by rfl

@[simp] theorem storeErase_mems (b : Bool) (d : Dev) : (d.storeErase b).mems = d.mems := by
  fun_cases Dev.storeErase b d <;> simp +zetaDelta

@[simp] theorem storeWrite_mems (b : Bool) (d : Dev) : (d.storeWrite b).mems = d.mems := by
  fun_cases Dev.storeWrite b d <;> simp +zetaDelta

@[simp] theorem storeSeal_mems (b : Bool) (d : Dev) : (d.storeSeal b).mems = d.mems := by
  fun_cases Dev.storeSeal b d <;> simp +zetaDelta

@[simp] theorem storeSwitch_mems (b : Bool) (d : Dev) : (d.storeSwitch b).mems = d.mems := by
  fun_cases Dev.storeSwitch b d <;> simp +zetaDelta

@[simp] theorem txnBegin_mems (d : Dev) : d.txnBegin.mems = d.mems := by
  fun_cases Dev.txnBegin d <;> simp +zetaDelta

@[simp] theorem txnWrite_mems (d : Dev) : d.txnWrite.mems = d.mems := by
  fun_cases Dev.txnWrite d <;> simp +zetaDelta

@[simp] theorem txnCommit_mems (d : Dev) : d.txnCommit.mems = d.mems := by
  fun_cases Dev.txnCommit d <;> simp +zetaDelta

@[simp] theorem storeProvision_mems (priv : Bool) (d : Dev) : (d.storeProvision priv).mems = d.mems := by
  fun_cases Dev.storeProvision priv d <;> simp +zetaDelta

@[simp] theorem hostLanded_mems (d : Dev) : d.hostLanded.mems = d.mems := by
  fun_cases Dev.hostLanded d <;> simp

/-! ### Pantry words -/

@[simp] theorem fadeWord_mems (b : Bool) (w : Nat) (d : Dev) : (d.fadeWord b w).mems = d.mems := by
  simp [Dev.fadeWord]

@[simp] theorem foundWord_mems (b : Bool) (w : Nat) (d : Dev) : (d.foundWord b w).mems = d.mems := by
  simp [Dev.foundWord, Dev.reportWord]

@[simp] theorem fetchFail_mems (d : Dev) (t : Fin 64) (w : Window) (ws : List Nat) :
    (d.fetchFail t w ws).mems = d.mems := by
  simp [Dev.fetchFail]

/-! ### The face -/

@[simp] theorem faceDraw_mems (d : Dev) (ps : List (Nat × Nat)) : (d.faceDraw ps).mems = d.mems := by
  simp [Dev.faceDraw]

@[simp] theorem addMemFault_mems (d : Dev) (p n : Nat) : (d.addMemFault p n).mems = d.mems := by rfl

@[simp] theorem opStart_mems (d : Dev) (o : FaceOp) : (d.opStart o).1.mems = d.mems := by
  unfold Dev.opStart
  split <;> simp

@[simp] theorem faceStart_mems (d : Dev) : d.faceStart.mems = d.mems := by
  unfold Dev.faceStart
  exact foldl_fst_mems (fun x o => by split <;> simp) _ _

@[simp] theorem stencilEvent_mems (op : Nat) (r : Fin 16) (d : Dev) : (d.stencilEvent op r).mems = d.mems := by rfl

@[simp] theorem opFinish_mems (d : Dev) (o : FaceOp) : (d.opFinish o).mems = d.mems := by
  simp [Dev.opFinish]

@[simp] theorem faceComplete_mems (d : Dev) : d.faceComplete.mems = d.mems := by
  unfold Dev.faceComplete
  extract_lets d1 r
  have hr : r.1.mems = d1.mems := foldl_fst_mems (fun x o => by
    split
    · split <;> simp
    · rfl) _ _
  simp [hr, d1]

@[simp] theorem faceOpComplete_mems (p : Fin 16) (d : Dev) : (d.faceOpComplete p).mems = d.mems := by
  unfold Dev.faceOpComplete
  split <;> simp

@[simp] theorem faceCommit_mems (d : Dev) (p : Nat) (s : Staged) : (d.faceCommit p s).mems = d.mems := by
  simp -implicitDefEqProofs [Dev.faceCommit, Dev.stenCommit, Dev.rectCommit]

@[simp] theorem faceLeave_mems (d : Dev) (p : Nat) : (d.faceLeave p).mems = d.mems :=
  foldl_mems (fun d r => by split <;> simp) _ _

@[simp] theorem faceGains_mems (d : Dev) : d.faceGains.mems = d.mems := by rfl

@[simp] theorem stressFlush_mems (d : Dev) : d.stressFlush.mems = d.mems := by
  simp [Dev.stressFlush]

@[simp] theorem faceMilestone_mems (n : Nat) (d : Dev) : (d.faceMilestone n).mems = d.mems := by
  simp [Dev.faceMilestone, Dev.faceTemp]

@[simp] theorem faceOff_mems (d : Dev) : d.faceOff.mems = d.mems := by rfl

/-! ### Fans, actuators and outputs -/

@[simp] theorem onFanN_mems (d : Dev) (f : Nat) (g : Fan → Fan) : (d.onFanN f g).mems = d.mems := by rfl

@[simp] theorem fanAssess_mems (d : Dev) (f rpm drv : Nat) : (d.fanAssess f rpm drv).mems = d.mems := by
  simp [Dev.fanAssess]

@[simp] theorem fanMeasure_mems (d : Dev) (f : Nat) (c : List Byte) : (d.fanMeasure f c).mems = d.mems := by
  unfold Dev.fanMeasure
  extract_lets lo hi d1 d2 x
  have h2 : d2.mems = d.mems := by
    dsimp only [d2]
    split
    · split <;> simp [d1]
    · simp [d1]
  simp [h2]

@[simp] theorem fanStep_mems (d : Dev) (f : Nat) : (d.fanStep f).mems = d.mems := by
  simp [Dev.fanStep, Dev.fanDeliver]

@[simp] theorem pairOut_mems (d : Dev) (k : Nat) : (d.pairOut k).mems = d.mems := by rfl

@[simp] theorem pairDecide_mems (d : Dev) (k : Nat) : (d.pairDecide k).mems = d.mems := by rfl

@[simp] theorem fanPresent_mems (d : Dev) : d.fanPresent.mems = d.mems := by
  simp -implicitDefEqProofs [Dev.fanPresent, Dev.aoStep, Dev.pairStep, Dev.doStep, Dev.fanIdle]

/-! ### Digital inputs, analogue scans and I²C -/

@[simp] theorem senseApply_mems (old : List Byte) (d : Dev) : (d.senseApply old).mems = d.mems := by
  simp [Dev.senseApply, Dev.senseNoData]

@[simp] theorem senseImage_mems (old : List Byte) (d : Dev) : (d.senseImage old).mems = d.mems := by
  simp [Dev.senseImage]

@[simp] theorem senseDeliver_mems (d : Dev) : d.senseDeliver.mems = d.mems := by
  unfold Dev.senseDeliver
  split <;> simp [Dev.presenceStep]

@[simp] theorem sensePresent_mems (d : Dev) : d.sensePresent.mems = d.mems :=
  foldl_mems (fun d i => by split <;> simp) _ _

@[simp] theorem onI2c_mems (d : Dev) (x : Nat) (f : I2cDev → I2cDev) : (d.onI2c x f).mems = d.mems := by rfl

@[simp] theorem i2cWriteEnd_mems (d : Dev) (x : Nat) (e : I2cEnd) : (d.i2cWriteEnd x e).mems = d.mems := by rfl

@[simp] theorem i2cReadEnd_mems (d : Dev) (x : Nat) (e : I2cEnd) : (d.i2cReadEnd x e).mems = d.mems := by rfl

theorem i2cPhase_mems {f : Dev → Nat → I2cEnd → Dev} (hf : ∀ d x e, (f d x e).mems = d.mems)
    (xs : List Nat) (es : List I2cEnd) (dead : Bool) (d : Dev) : (Dev.i2cPhase f xs es dead d).mems = d.mems := by
  induction xs generalizing es dead d with
  | nil => rfl
  | cons x xs ih => exact (ih _ _ _).trans (hf d x _)

@[simp] theorem i2cWritePhase_mems (es : List I2cEnd) (d : Dev) : (d.i2cWritePhase es).mems = d.mems := by
  unfold Dev.i2cWritePhase
  split
  · rfl
  · exact i2cPhase_mems i2cWriteEnd_mems _ _ _ _

@[simp] theorem i2cReadPhase_mems (es : List I2cEnd) (d : Dev) : (d.i2cReadPhase es).mems = d.mems := by
  unfold Dev.i2cReadPhase
  split
  · rfl
  · exact (i2cPhase_mems i2cReadEnd_mems _ _ _ _).trans (foldl_mems (fun d x => by split <;> simp) _ _)

@[simp] theorem i2cDeliver_mems (d : Dev) : d.i2cDeliver.mems = d.mems := by
  unfold Dev.i2cDeliver
  exact foldl_mems (fun d x => by dsimp only; split <;> simp) _ _

/-! ### Motor units -/

@[simp] theorem tripUnit_mems (d : Dev) (u cause cx : Nat) : (d.tripUnit u cause cx).mems = d.mems := by
  simp [Dev.tripUnit]

@[simp] theorem loadWhisk_mems (d : Dev) : d.loadWhisk.mems = d.mems := by
  simp [Dev.loadWhisk]

/-! ### Safe states and what a domain's power takes with it -/

@[simp] theorem writeSafe_mems (d : Dev) (pick : Nat → Bool) : (d.writeSafe pick).mems = d.mems := by
  unfold Dev.writeSafe
  exact foldl_mems (fun d ch => foldl_mems (fun d el => by simp) _ _) _ _

@[simp] theorem safeAll_mems (d : Dev) : d.safeAll.mems = d.mems := by
  simp [Dev.safeAll]

@[simp] theorem safePot_mems (d : Dev) (p : Nat) : (d.safePot p).mems = d.mems := by
  simp [Dev.safePot]

@[simp] theorem convLost_mems (d : Dev) (c at' : Nat) : (d.convLost c at').mems = d.mems := by
  simp [Dev.convLost]

@[simp] theorem domainOff_mems (d : Dev) (at' n : Nat) : (d.domainOff at' n).mems = d.mems := by
  simp [Dev.domainOff, Dev.convOff, Dev.whiskOff, Dev.frontsOff]

@[simp] theorem lineStart_mems (d : Dev) : d.lineStart.mems = d.mems := by
  simp [Dev.lineStart]

@[simp] theorem afterConv_mems (d e : Dev) (c at' : Nat) : (d.afterConv e c at').mems = e.mems := by
  simp [Dev.afterConv]

@[simp] theorem sliceStall_mems (c : Fin 4) (k : Fin 9) (at' : Nat) (d : Dev) :
    (d.sliceStall c k at').mems = d.mems := by
  simp [Dev.sliceStall, Dev.stallSlice]

@[simp] theorem rotation_mems (c : Fin 4) (e : CalEnv) (d : Dev) : (d.rotation c e).mems = d.mems := by
  rw [Dev.rotation, afterConv_mems]
  fun_cases Dev.calRotation c e d <;> simp [Dev.freedAttempt, Dev.idleAttempt]

@[simp] theorem crossingAssert_mems (i : Fin 16) (stamp level : Nat) (d : Dev) :
    (d.crossingAssert i stamp level).mems = d.mems := by
  simp [Dev.crossingAssert]

/-! ### Lanes -/

@[simp] theorem retireLane_mems (d : Dev) (k cause served : Nat) :
    (d.retireLane k cause served).mems = d.mems := by
  simp [Dev.retireLane]

@[simp] theorem laneFail_mems (d : Dev) (k cause : Nat) : (d.laneFail k cause).mems = d.mems := by
  fun_cases Dev.laneFail d k cause <;> simp +zetaDelta

@[simp] theorem exchangeFailed_mems (d : Dev) (i cause : Nat) : (d.exchangeFailed i cause).mems = d.mems := by
  fun_cases Dev.exchangeFailed d i cause <;> simp +zetaDelta

@[simp] theorem exchangePlanned_mems (d : Dev) (i : Nat) : (d.exchangePlanned i).mems = d.mems := by
  fun_cases Dev.exchangePlanned d i <;> simp +zetaDelta

@[simp] theorem laneExchange_mems (d : Dev) : d.laneExchange.mems = d.mems := by
  fun_cases Dev.laneExchange d <;> simp +zetaDelta

/-! ### The die temperature -/

@[simp] theorem readDie_mems (temp : Int) (d : Dev) : (d.readDie temp).mems = d.mems := by
  simp [Dev.readDie, Dev.xtalComp, Dev.dieTempRefresh]

/-! ### Pots, tasks and modes -/

@[simp] theorem onPot_mems (d : Dev) (p : Nat) (f : PotState → PotState) : (d.onPot p f).mems = d.mems := by rfl

@[simp] theorem onTask_mems (d : Dev) (t : Nat) (f : TaskState → TaskState) :
    (d.onTask t f).mems = d.mems := by rfl

@[simp] theorem abandon_mems (d : Dev) (p : Nat) : (d.abandon p).mems = d.mems := by
  simp [Dev.abandon]

@[simp] theorem potLeave_mems (d : Dev) (p : Nat) : (d.potLeave p).mems = d.mems := by
  simp [Dev.potLeave]

@[simp] theorem holdCrcs_mems (old : Mem) (d : Dev) : (d.holdCrcs old).mems = d.mems := by
  simp [Dev.holdCrcs]

@[simp] theorem remoteStart_mems (d : Dev) (p : Nat) : (d.remoteStart p).mems = d.mems := by
  simp -implicitDefEqProofs [Dev.remoteStart]

@[simp] theorem potCommand_mems (p : Nat) (a : PotAction) (host : Bool) (d : Dev) :
    (d.potCommand p a host).mems = d.mems := by
  simp [Dev.potCommand]

@[simp] theorem enterTollgate_mems (d : Dev) (cause vfyA : Nat) : (d.enterTollgate cause vfyA).mems = d.mems := by
  simp [Dev.enterTollgate, Dev.forceReset, Dev.switchAbandon]

@[simp] theorem overruns_mems (d : Dev) : d.overruns.mems = d.mems := by
  fun_cases Dev.overruns d <;> simp +zetaDelta [Dev.recordOverrun]

@[simp] theorem overrunPlates_mems (before d : Dev) : (Dev.overrunPlates before d).mems = d.mems := by
  simp [Dev.overrunPlates]

/-! ### Frames of the network -/

@[simp] theorem repeatBroadcast_mems (d : Dev) (m : Mac) : (d.repeatBroadcast m).mems = d.mems := by
  simp [Dev.repeatBroadcast]

@[simp] theorem receive_mems (n : Nat) (e : RxEnd) (d : Dev) : (d.receive n e).1.mems = d.mems :=
  (onlyLine_receive n e d).mems

@[simp] theorem fmtFail_mems (d : Dev) : d.fmtFail.mems = d.mems := by rfl

@[simp] theorem rxAck_mems (e : RxEnd) (d : Dev) : (d.rxAck e).mems = d.mems := by
  have h := receive_mems 3 e d
  fun_cases Dev.rxAck e d <;> simp_all

@[simp] theorem dropNeighbour_mems (d : Dev) (n : Nat) : (d.dropNeighbour n).mems = d.mems := by
  simp [Dev.dropNeighbour]

@[simp] theorem ackTimeout_mems (lseq : Nat) (d : Dev) : (d.ackTimeout lseq).mems = d.mems := by
  fun_cases Dev.ackTimeout lseq d <;> simp +zetaDelta

@[simp] theorem rxMapAsk_mems (e : RxEnd) (d : Dev) : (d.rxMapAsk e).mems = d.mems := by
  have h := receive_mems 4 e d
  fun_cases Dev.rxMapAsk e d <;> simp_all

@[simp] theorem rxMapOffer_mems (e : RxEnd) (d : Dev) : (d.rxMapOffer e).mems = d.mems := by
  have h := receive_mems 5 e d
  fun_cases Dev.rxMapOffer e d <;> simp_all

@[simp] theorem mapRefresh_mems (n : Nat) (d : Dev) : (d.mapRefresh n).mems = d.mems := by
  unfold Dev.mapRefresh
  split <;> simp

@[simp] theorem memberBeacon_mems (d : Dev) (b : Beacon) (f : RxFrame) : (d.memberBeacon b f).mems = d.mems := by
  simp [Dev.memberBeacon]

@[simp] theorem planRepeat_mems (d : Dev) (b : Beacon) :
    (d.planRepeat b).mems = d.mems := (onlyLine_planRepeat d b).mems

@[simp] theorem rxBeacon_mems (e : RxEnd) (d : Dev) : (d.rxBeacon e).mems = d.mems := by
  unfold Dev.rxBeacon
  split
  next d1 hr => simpa [hr] using received_mems e d
  next d1 f hr =>
    have h1 : d1.mems = d.mems := by simpa [hr] using received_mems e d
    split
    · exact h1
    split
    · exact h1
    split
    · exact h1
    extract_lets n body
    split
    · exact h1
    split
    · split
      · exact (memberBeacon_mems _ _ _).trans h1
      · exact h1
    · rw [planRepeat_mems, memberBeacon_mems, h1]

@[simp] theorem rxTime_mems (e : RxEnd) (d : Dev) : (d.rxTime e).mems = d.mems := by
  have h := receive_mems 2 e d
  fun_cases Dev.rxTime e d <;> simp_all +zetaDelta

@[simp] theorem rxJoinReq_mems (e : RxEnd) (d : Dev) : (d.rxJoinReq e).mems = d.mems := by
  have h := receive_mems 6 e d
  unfold Dev.rxJoinReq
  split
  next d1 hr => simpa [hr] using h
  next d1 f m hr =>
    have h1 : d1.mems = d.mems := by simpa [hr] using h
    split
    · simpa using h1
    split
    · exact h1
    · extract_lets uid clash path d2
      have h2 : d2.mems = d.mems := by simp [d2, h1]
      clear_value path d2
      dsimp only
      split
      · split <;> simp [h2]
      · simp [h2]

@[simp] theorem rxJoinAcc_mems (e : RxEnd) (d : Dev) : (d.rxJoinAcc e).mems = d.mems := by
  have h := receive_mems 7 e d
  fun_cases Dev.rxJoinAcc e d <;> simp_all

@[simp] theorem sendProbe_mems (d : Dev) (dst due : Nat) : (d.sendProbe dst due).mems = d.mems := by
  simp [Dev.sendProbe]

@[simp] theorem rxProbe_mems (e : RxEnd) (d : Dev) : (d.rxProbe e).mems = d.mems := by
  have h := receive_mems 11 e d
  fun_cases Dev.rxProbe e d <;> simp_all

@[simp] theorem rxCourier_mems (e : RxEnd) (d : Dev) : (d.rxCourier e).mems = d.mems := by
  have h := receive_mems 8 e d
  fun_cases Dev.rxCourier e d <;> simp_all +zetaDelta

@[simp] theorem rxConvoy_mems (e : RxEnd) (d : Dev) : (d.rxConvoy e).mems = d.mems := by
  have h := receive_mems 9 e d
  fun_cases Dev.rxConvoy e d <;> simp_all

@[simp] theorem applyCourier_mems (d : Dev) (c : Nat × Nat × Nat × List Word) :
    (d.applyCourier c).mems = d.mems := by
  fun_cases Dev.applyCourier d c <;> simp [CycleState.applyGroup]

@[simp] theorem courierStale_mems (g p : Nat) (d : Dev) : (d.courierStale g p).mems = d.mems := by
  unfold Dev.courierStale
  split <;> simp [CycleState.staleGroup]

@[simp] theorem convoyApply_mems (d : Dev) (n : Nat) : (d.convoyApply n).mems = d.mems := by
  unfold Dev.convoyApply
  exact foldl_mems (fun d p => foldl_mems (fun d q => by dsimp only; split <;> rfl) _ _) _ _

@[simp] theorem courierQueue_mems (d : Dev) : d.courierQueue.mems = d.mems := by
  simp [Dev.courierQueue]

@[simp] theorem checkpoint_mems (d : Dev) : d.checkpoint.mems = d.mems := by
  simp [Dev.checkpoint]

@[simp] theorem transmit_mems (d : Dev) (k : Nat) (c : Contender) : (d.transmit k c).mems = d.mems := by
  simp [Dev.transmit]

@[simp] theorem startFrames_mems (d : Dev) (k : Nat) : (d.startFrames k).mems = d.mems := by
  fun_cases Dev.startFrames d k <;> simp +zetaDelta

@[simp] theorem frameStart_mems (k rnd : Nat) (heard : Option Nat) (d : Dev) :
    (d.frameStart k rnd heard).mems = d.mems := by
  unfold Dev.frameStart
  split
  · rfl
  extract_lets d0
  split
  next cv d1 hc =>
    have h1 : d1.mems = d.mems := by
      rw [← startFrames_mems d k]
      split at hc
      · split at hc <;> cases hc <;> rfl
      · cases hc; rfl
    extract_lets pick d2
    have h2 : d2.mems = d.mems := by simp [d2, h1]
    generalize pick = pick'
    cases pick' with
    | none => exact h2
    | some c =>
      simp [h2, Dev.defer, apply_ite Prod.fst]

@[simp] theorem frameSent_mems (d : Dev) : d.frameSent.mems = d.mems := by
  unfold Dev.frameSent
  split <;> simp

/-! ### Register accesses of the host and of tasks -/

@[simp] theorem latchReads_mems (d : Dev) (who : Fin 17) (frac : BitVec 16) (as : List Nat) :
    (d.latchReads who frac as).mems = d.mems := by
  simp [Dev.latchReads, Dev.msLoRead, Dev.siLoRead]

@[simp] theorem orderReset_mems (source : Nat) (kind : ResetKind) (d : Dev) :
    (d.orderReset source kind).mems = d.mems := by rfl

@[simp] theorem modeWrite_mems (v : Word) (d : Dev) : (d.modeWrite v).mems = d.mems := by
  unfold Dev.modeWrite
  split <;> simp [Dev.modeCommand]

@[simp] theorem potCmdWrite_mems (v : Word) (host : Bool) (d : Dev) : (d.potCmdWrite v host).mems = d.mems := by
  fun_cases Dev.potCmdWrite v host d <;> simp +zetaDelta [Dev.hobPotCommand]

@[simp] theorem writeMando_mems (d : Dev) (o : Nat) (v : Word) : (d.writeMando o v).mems = d.mems := by
  fun_cases Dev.writeMando d o v <;> simp +zetaDelta

@[simp] theorem deny_mems (d : Dev) (p : Nat) : (d.deny p).mems = d.mems := by rfl

/-! ### Start-up and image acceptance -/

@[simp] theorem attempt_mems (b fresh : Bool) (d : Dev) : (d.attempt b fresh).1.mems = d.mems := by
  simp [Dev.attempt]

@[simp] theorem tollAutoOrder_mems (d : Dev) : d.tollAutoOrder.mems = d.mems := by
  simp [Dev.tollAutoOrder]

@[simp] theorem acceptProgress_mems (d : Dev) : d.acceptProgress.mems = d.mems := by
  fun_cases Dev.acceptProgress d <;> simp +zetaDelta

@[simp] theorem acceptBank_mems (d : Dev) (b : Bool) (m : Image) (second : Bool) :
    (d.acceptBank b m second).mems = d.mems := by
  simp [Dev.acceptBank]

@[simp] theorem refuseBanks_mems (d : Dev) (cause : Nat) : (d.refuseBanks cause).mems = d.mems := by
  simp [Dev.refuseBanks]

@[simp] theorem firstAttempt_mems (d : Dev) : d.firstAttempt.mems = d.mems := by
  unfold Dev.firstAttempt
  split
  · simp
  next b _ =>
    have h := attempt_mems b true d
    split <;> simp_all

@[simp] theorem secondAttempt_mems (b : Bool) (d : Dev) : (d.secondAttempt b).mems = d.mems := by
  have h := attempt_mems b true d
  unfold Dev.secondAttempt
  split <;> simp_all

@[simp] theorem junctionStart_mems (d : Dev) : d.junctionStart.mems = d.mems := by
  simp [Dev.junctionStart]

@[simp] theorem remoteReset_mems (d : Dev) : d.remoteReset.mems = d.mems := by
  simp -implicitDefEqProofs [Dev.remoteReset]

/-! ### The seat and the tunnels -/

@[simp] theorem doIdentify_mems (who : Holder) (r : SeatReq) (d : Dev) :
    (d.doIdentify who r).2.mems = d.mems := by rfl

@[simp] theorem doTake_mems (who : Holder) (r : SeatReq) (d : Dev) : (d.doTake who r).2.mems = d.mems := by
  unfold Dev.doTake
  split <;> simp

@[simp] theorem doSeatReset_mems (r : SeatReq) (d : Dev) : (d.doSeatReset r).2.mems = d.mems := by
  fun_cases Dev.doSeatReset r d <;> simp

@[simp] theorem doRelease_mems (d : Dev) : d.doRelease.2.2.mems = d.mems := by rfl

@[simp] theorem accepted_mems (d : Dev) (ws : List HostWrite) : (d.accepted ws).mems = d.mems := by rfl

@[simp] theorem writeRegs_mems (a : Nat) (ws : List Nat) (words : Nat) (d : Dev) :
    (d.writeRegs a ws words).2.mems = d.mems := by
  fun_cases Dev.writeRegs a ws words d <;> simp +zetaDelta

@[simp] theorem doWrite_mems (who : Holder) (r : SeatReq) (e : SeatEnv) (d : Dev) :
    (d.doWrite who r e).2.2.mems = d.mems := by
  fun_cases Dev.doWrite who r e d <;> simp +zetaDelta

@[simp] theorem doClose_mems (d : Dev) : d.doClose.2.2.mems = d.mems := by rfl

theorem gate_mems {r : SeatReq} {ident : Bool} {d : Dev} {x : Response × Dev} (h : d.gate r ident = some x) :
    x.2.mems = d.mems := by
  unfold Dev.gate at h
  split at h
  · cases h; rfl
  split at h
  · cases h; rfl
  · cases h

@[simp] theorem hear_mems (who : Holder) (d : Dev) : (d.hear who).mems = d.mems := by
  simp [Dev.hear]

theorem bySeq_mems (cmd : Nat) (r : SeatReq)
    {run : Option (List Byte × Nat) → Dev → SeatStatus × List Byte × Dev}
    (hr : ∀ n d, (run n d).2.2.mems = d.mems) (d : Dev) : (d.bySeq cmd r run).2.mems = d.mems := by
  unfold Dev.bySeq
  split
  · exact hr _ _
  · extract_lets again
    cases again <;> rfl

theorem sequenced_mems (who : Holder) (cmd : Nat) (r : SeatReq)
    {run : Option (List Byte × Nat) → Dev → SeatStatus × List Byte × Dev}
    (hr : ∀ n d, (run n d).2.2.mems = d.mems) (d : Dev) : (d.sequenced who cmd r run).2.mems = d.mems := by
  unfold Dev.sequenced
  extract_lets d1
  have h1 : d1.mems = d.mems := hear_mems who d
  split
  next x hx => exact (gate_mems hx).trans h1
  next =>
    split
    · exact h1
    split
    · exact h1
    · exact (bySeq_mems cmd r hr d1).trans h1

@[simp] theorem seatIdentify_mems (who : Holder) (r : SeatReq) (d : Dev) :
    (d.seatIdentify who r).2.mems = d.mems := by
  unfold Dev.seatIdentify
  extract_lets d1
  split
  next x hx => simpa [d1] using gate_mems hx
  · simp [d1]

@[simp] theorem seatTake_mems (who : Holder) (r : SeatReq) (d : Dev) : (d.seatTake who r).2.mems = d.mems := by
  unfold Dev.seatTake
  extract_lets d1
  have h1 : d1.mems = d.mems := hear_mems who d
  split
  next x hx => exact (gate_mems hx).trans h1
  next =>
    split
    · exact h1
    split
    · exact (doTake_mems who r d1).trans h1
    · exact (bySeq_mems 0x02 r (fun _ _ => rfl) d1).trans h1

@[simp] theorem seatReset_mems (who : Holder) (r : SeatReq) (d : Dev) : (d.seatReset who r).2.mems = d.mems := by
  unfold Dev.seatReset
  extract_lets d1
  have h1 : d1.mems = d.mems := hear_mems who d
  split
  next x hx => exact (gate_mems hx).trans h1
  next => split <;> simp [h1]

@[simp] theorem seatRelease_mems (who : Holder) (r : SeatReq) (d : Dev) :
    (d.seatRelease who r).2.mems = d.mems :=
  sequenced_mems who 0x03 r (fun _ d => doRelease_mems d) d

@[simp] theorem seatWrite_mems (who : Holder) (r : SeatReq) (e : SeatEnv) (d : Dev) :
    (d.seatWrite who r e).2.mems = d.mems :=
  sequenced_mems who 0x11 r (fun _ d => doWrite_mems who r e d) d

@[simp] theorem seatClose_mems (who : Holder) (r : SeatReq) (d : Dev) :
    (d.seatClose who r).2.mems = d.mems :=
  sequenced_mems who 0x22 r (fun _ d => doClose_mems d) d

@[simp] theorem spi_mems (x : Response × Dev) : (Dev.spi x).mems = x.2.mems := by rfl

@[simp] theorem port_mems {f : Dev → Dev} (hf : ∀ d, (f d).mems = d.mems) (d : Dev) :
    (Dev.port f d).mems = d.mems := by
  simp [Dev.port, hf]

@[simp] theorem setTun_mems (d : Dev) (ch : Nat) (t : Option Tunnel) : (d.setTun ch t).mems = d.mems := by rfl

@[simp] theorem tunArrive_mems (d : Dev) (ch : Nat) (bs : List Byte) : (d.tunArrive ch bs).mems = d.mems := by
  unfold Dev.tunArrive
  split <;> simp [Dev.attnTun]

@[simp] theorem sendTunnel_mems (d : Dev) (dst ch kind : Nat) (inner : List Byte) :
    (d.sendTunnel dst ch kind inner).mems = d.mems := (onlyLine_sendTunnel d dst ch kind inner).mems

@[simp] theorem tunClosed_mems (d : Dev) (ch : Nat) : (d.tunClosed ch).mems = d.mems := by
  simp [Dev.tunClosed]

@[simp] theorem closeTun_mems (d : Dev) (ch : Nat) : (d.closeTun ch).mems = d.mems := by
  unfold Dev.closeTun
  split <;> simp

@[simp] theorem tunCommand_mems (r : SeatReq) {run : Nat → Dev → SeatStatus × List Byte × Dev}
    (hr : ∀ n d, (run n d).2.2.mems = d.mems) (d : Dev) : (d.tunCommand r run).mems = d.mems := by
  unfold Dev.tunCommand
  rw [spi_mems]
  split
  next x hx => exact gate_mems hx
  next =>
    extract_lets ch out
    split
    · rfl
    · exact hr _ _

@[simp] theorem tunOpen_mems (target ch : Nat) (d : Dev) : (d.tunOpen target ch).2.2.mems = d.mems := by
  fun_cases Dev.tunOpen target ch d <;> simp

@[simp] theorem tunRecv_mems (ch : Nat) (d : Dev) : (d.tunRecv ch).2.2.mems = d.mems := by
  fun_cases Dev.tunRecv ch d <;> simp

@[simp] theorem tunClose_mems (ch : Nat) (d : Dev) : (d.tunClose ch).2.2.mems = d.mems := by
  unfold Dev.tunClose
  split <;> simp

/-! ### The bank switch -/

@[simp] theorem sealComplete_mems (d : Dev) : d.sealComplete.mems = d.mems := by
  unfold Dev.sealComplete
  split <;> simp

@[simp] theorem switchVerified_mems (d : Dev) : d.switchVerified.mems = d.mems := by
  unfold Dev.switchVerified
  split
  next b at' warm net asap hsw =>
    have h := attempt_mems b false d
    split
    · simp_all [Dev.switchEnd]
    next d1 m _ hm =>
      have h1 : d1.mems = d.mems := by simpa [hm] using h
      split <;> simp [Dev.switchEnd, h1]
  · rfl

@[simp] theorem switchRole_mems (d : Dev) (old : Image) : (d.switchRole old).mems = d.mems := by
  fun_cases Dev.switchRole d old
  simp +zetaDelta

/-! ### Releases and commits -/

@[simp] theorem release_mems (d : Dev) (t : Nat) : (d.release t).mems = d.mems := by
  fun_cases Dev.release d t <;> simp +zetaDelta

@[simp] theorem commitLarder_mems (d : Dev) (p : Nat) (g : Staged) : (d.commitLarder p g).mems = d.mems := by
  unfold Dev.commitLarder
  refine foldl_mems (fun d r => ?_) _ _
  split
  · split
    · rfl
    · dsimp only [Dev.onStore]
      repeat' split
      all_goals simp
  · rfl

@[simp] theorem commitScripts_mems (d : Dev) (s : Staged) : (d.commitScripts s).mems = d.mems := by
  unfold Dev.commitScripts
  exact (foldl_mems (fun _ _ => slotRun_mems _ _) _ _).trans
    ((foldl_mems (fun _ _ => onSlot_mems _ _ _) _ _).trans (foldl_mems (fun _ _ => onSlot_mems _ _ _) _ _))

/-! ### Steps of a boundary and the patrol -/

@[simp] theorem step6_mems (d : Dev) (len : Option Nat) : (d.step6 len).mems = d.mems := by
  cases len <;> simp [Dev.step6, Dev.present, Dev.whiskPresent, Dev.faceDeliver]

@[simp] theorem step7_mems (d : Dev) : d.step7.mems = d.mems := by
  unfold Dev.step7
  extract_lets d1 d2 d3
  have h1 : d1.mems = d.mems := by simp [d1, Dev.courierApply]
  have h2 : d2.mems = d1.mems := by
    dsimp only [d2]
    split
    · exact convoyApply_mems _ _
    · rfl
  have h3 : d3.mems = d2.mems := by simp [d3, Dev.covExpiry]
  rw [waymarkStarts_mems, Dev.releaseAll, foldl_mems release_mems, h3, h2, h1]

@[simp] theorem patrolOne_mems (d : Dev) (x : Nat × EccFind) : (d.patrolOne x).mems = d.mems := by
  unfold Dev.patrolOne
  extract_lets b k
  split <;> simp

@[simp] theorem pantryPatrol_mems (es : List EccFind) (d : Dev) : (d.pantryPatrol es).mems = d.mems := by
  simp [Dev.pantryPatrol]

@[simp] theorem dueAborts_mems (d : Dev) : d.dueAborts.mems = d.mems :=
  foldl_mems (fun d n => by split <;> simp) _ _

@[simp] theorem replanning_mems (f : Dev → Dev) (d : Dev) : (d.replanning f).mems = (f d).mems := by
  simp [Dev.replanning]

/-! ### The crystal and the estimate of a motor unit -/

@[simp] theorem xtalFail_mems (d : Dev) : d.xtalFail.mems = d.mems := by
  simp [Dev.xtalFail]

@[simp] theorem whiskDeliver_mems (d : Dev) (u : Nat) : (d.whiskDeliver u).mems = d.mems := by
  simp [Dev.whiskDeliver]

@[simp] theorem whiskEstimate_mems (u : Fin 2) (now : Nat) (d : Dev) : (d.whiskEstimate u now).mems = d.mems := by
  unfold Dev.whiskEstimate
  extract_lets c d1
  have h1 : d1.mems = d.mems := by rfl
  simp [h1]

/-! ### Registers with an effect -/

@[simp] theorem siOfsLo_mems (v : BitVec 32) (d : Dev) : (d.siOfsLo v).mems = d.mems := by
  simp [Dev.siOfsLo]

@[simp] theorem siOfsWrite_mems (hi : BitVec 32) (d : Dev) : (d.siOfsWrite hi).mems = d.mems := by
  simp [Dev.siOfsWrite]

@[simp] theorem forceClear_mems (d : Dev) : d.forceClear.mems = d.mems := by
  simp [Dev.forceClear]

@[simp] theorem forceWrite_mems (i : Fin 256) (value : Bool) (v : Word) (d : Dev) :
    (d.forceWrite i value v).mems = d.mems := by
  simp [Dev.forceWrite, Dev.forceValue, Dev.forceSel]

@[simp] theorem laneXchg_mems (v : Word) (d : Dev) : (d.laneXchg v).mems = d.mems := by
  simp [Dev.laneXchg]

@[simp] theorem retry_mems (d : Dev) : d.retry.mems = d.mems := by
  simp [Dev.retry]

@[simp] theorem ackRetire_mems (upto : Word) (d : Dev) : (d.ackRetire upto).mems = d.mems := by
  simp [Dev.ackRetire]

@[simp] theorem resetWrite_mems (v : Word) (d : Dev) : (d.resetWrite v).mems = d.mems := by
  simp [Dev.resetWrite]

@[simp] theorem probeGo_mems (dst : Nat) (d : Dev) : (d.probeGo dst).mems = d.mems := by
  simp [Dev.probeGo]

@[simp] theorem jclr_mems (addr : Nat) (d : Dev) : (d.jclr addr).mems = d.mems := by
  simp [Dev.jclr]

@[simp] theorem fanCapture_mems (go : BitVec 6) (d : Dev) : (d.fanCapture go).mems = d.mems := by rfl

@[simp] theorem busSubmit_mems (d : Dev) (i : Nat) : (d.busSubmit i).mems = d.mems := by rfl

@[simp] theorem writeTx_mems (d : Dev) (i o : Nat) (v : Word) : (d.writeTx i o v).mems = d.mems := by
  simp [Dev.writeTx]

@[simp] theorem newNetKey_mems (d : Dev) (key : List Byte) : (d.newNetKey key).mems = d.mems := by
  simp [Dev.newNetKey]

/-! ### The passing of a waymark and of a milestone -/

@[simp] theorem nextWaymark_mems (d : Dev) : d.nextWaymark.mems = d.mems := by rfl

@[simp] theorem newGrids_mems (d : Dev) : d.newGrids.mems = d.mems := by rfl

@[simp] theorem planMilestone_mems (d : Dev) : d.planMilestone.mems = d.mems := by rfl

@[simp] theorem lineStep_mems (steps : Bool) (d : Dev) : (d.lineStep steps).mems = d.mems := by
  simp [Dev.lineStep]

@[simp] theorem blanker_mems (samples : List (List LineSample)) (d : Dev) : (d.blanker samples).mems = d.mems := by
  simp [Dev.blanker]

@[simp] theorem xcompWriteback_mems (d : Dev) : d.xcompWriteback.mems = d.mems := by
  simp [Dev.xcompWriteback]

@[simp] theorem wearWriteback_mems (d : Dev) : d.wearWriteback.mems = d.mems := by
  simp [Dev.wearWriteback]

@[simp] theorem netCheckpoint_mems (d : Dev) : d.netCheckpoint.mems = d.mems := by
  simp [Dev.netCheckpoint]

@[simp] theorem beaconTimeout_mems (d : Dev) : d.beaconTimeout.mems = d.mems := by
  simp [Dev.beaconTimeout]

@[simp] theorem idleFree_mems (d : Dev) : d.idleFree.mems = d.mems := by
  simp [Dev.idleFree]

@[simp] theorem tollAutoClear_mems (d : Dev) : d.tollAutoClear.mems = d.mems := by
  simp [Dev.tollAutoClear]

@[simp] theorem potCommandsAge_mems (d : Dev) : d.potCommandsAge.mems = d.mems := by rfl

@[simp] theorem tunCheck_mems (d : Dev) : d.tunCheck.mems = d.mems := by
  simp [Dev.tunCheck]

@[simp] theorem commitOuts_mems (d : Dev) (t : Nat) (s : Staged) : (d.commitOuts t s).mems = d.mems := by
  simp [Dev.commitOuts]

@[simp] theorem commitHatches_mems (d : Dev) (t : Nat) (s : Staged) : (d.commitHatches t s).mems = d.mems := by
  simp [Dev.commitHatches]

@[simp] theorem commitCounts_mems (d : Dev) (t p : Nat) (s : Staged) : (d.commitCounts t p s).mems = d.mems := by
  simp [Dev.commitCounts]

@[simp] theorem faceScan_mems (d : Dev) : d.faceScan.mems = d.mems := by
  simp [Dev.faceScan, Dev.scanLine]

@[simp] theorem step3_mems (d : Dev) : d.step3.mems = d.mems := by
  simp [Dev.step3, Dev.countWindows]

@[simp] theorem allIdle_mems (d : Dev) : d.allIdle.mems = d.mems := by
  simp [Dev.allIdle]

@[simp] theorem cxUnowned_mems (d : Dev) : d.cxUnowned.mems = d.mems := by
  simp [Dev.cxUnowned]

/-! ### Parameters and the journal at start-up -/

@[simp] theorem loadWear_mems (finds : List (Nat × EccFind)) (d : Dev) : (d.loadWear finds).mems = d.mems := by
  simp [Dev.loadWear]

@[simp] theorem loadLaneRecords_mems (d : Dev) : d.loadLaneRecords.mems = d.mems := by rfl

@[simp] theorem loadSliceRecords_mems (d : Dev) : d.loadSliceRecords.mems = d.mems := by rfl

/-! ### Domains, start-up and READY -/

@[simp] theorem pdReqWrite_mems (v : BitVec 32) (byHost : Bool) (d : Dev) :
    (d.pdReqWrite v byHost).mems = d.mems := by
  unfold Dev.pdReqWrite
  split <;> rfl

@[simp] theorem domainsOff_mems (d : Dev) (m : BitVec 16) : (d.domainsOff m).mems = d.mems := by
  simp [Dev.domainsOff]

@[simp] theorem whiskWake_mems (d : Dev) : d.whiskWake.mems = d.mems := by
  refine foldl_mems (fun d u => ?_) _ _
  extract_lets d1
  have h1 : d1.mems = d.mems := rfl
  split
  · simp [h1]
  · split <;> simp [h1]

@[simp] theorem domainWake_mems (cals : List (List CalResult)) (d : Dev) (n : Nat) :
    (d.domainWake cals n).mems = d.mems := by
  fun_cases Dev.domainWake cals d n <;> simp [Dev.convWake, Dev.senseWake, Dev.fanWake, Dev.faceWake]

@[simp] theorem domainsWake_mems (cals : List (List CalResult)) (d : Dev) (m : BitVec 16) :
    (d.domainsWake cals m).mems = d.mems := by
  unfold Dev.domainsWake
  split <;> simp [Dev.safeDomains]

@[simp] theorem haltRestore_mems (d : Dev) : d.haltRestore.mems = d.mems := by
  fun_cases Dev.haltRestore d <;> simp +zetaDelta

@[simp] theorem enterReady_mems (m : Image) (d : Dev) : (d.enterReady m).mems = d.mems := by
  simp [Dev.enterReady, Dev.senseInit]

@[simp] theorem bootBoundary_mems (d : Dev) : d.bootBoundary.mems = d.mems := by
  unfold Dev.bootBoundary
  extract_lets d1
  have h1 : d1.mems = d.mems := by
    dsimp only [d1]
    split <;> rfl
  split <;> simp [h1]

@[simp] theorem bootEnd_mems (d : Dev) : d.bootEnd.mems = d.mems := by
  fun_cases Dev.bootEnd d <;> simp +zetaDelta

@[simp] theorem judgeRequests_mems (d : Dev) : d.judgeRequests.mems = d.mems := by
  simp [Dev.judgeRequests]

@[simp] theorem planOn_mems (d : Dev) : d.planOn.mems = d.mems := by
  fun_cases Dev.planOn d <;> simp +zetaDelta

@[simp] theorem planOff_mems (d : Dev) : d.planOff.mems = d.mems := by
  fun_cases Dev.planOff d <;> simp +zetaDelta

@[simp] theorem step2_mems (cals : List (List CalResult)) (d : Dev) : (d.step2 cals).mems = d.mems := by
  simp [Dev.step2, Dev.wakeDomains]

@[simp] theorem domainFault_mems (d : Dev) (at' n : Nat) : (d.domainFault at' n).mems = d.mems := by
  fun_cases Dev.domainFault d at' n <;> simp +zetaDelta [Dev.dropVcore]

@[simp] theorem logNewMs_mems (d : Dev) : d.logNewMs.mems = d.mems := by
  unfold Dev.logNewMs Dev.onStore
  dsimp only
  split <;> simp

@[simp] theorem enterHalt_mems (d : Dev) : d.enterHalt.mems = d.mems := by
  simp [Dev.enterHalt]

@[simp] theorem lanesAtReset_mems (d : Dev) : d.lanesAtReset.mems = d.mems := by
  unfold Dev.lanesAtReset
  exact foldl_mems (fun d f => by split <;> simp) _ _

/-! ### The canonical form: what keeps it where a memory is written -/

/-- Where the memories stay, what else changes does not matter. -/
theorem memWf_of_mems {d e : Dev} (h : MemWf d) (hm : e.mems = d.mems) : MemWf e := by
  simp only [Dev.mems, Prod.mk.injEq] at hm
  obtain ⟨hw, ha, hb, hh⟩ := hm
  unfold MemWf
  rwa [hw, ha, hb, hh]

theorem foldl_memWf {α : Type} {f : Dev → α → Dev} (hf : ∀ d a, MemWf d → MemWf (f d a)) (l : List α)
    {d : Dev} (h : MemWf d) : MemWf (l.foldl f d) := by
  induction l generalizing d with
  | nil => exact h
  | cons a l ih => exact ih (hf d a h)

/-- A worktop in its canonical form put in the place of the old one. -/
theorem memWf_worktop {d e : Dev} (h : MemWf d) {m : Mem} (hm : Memory.wf zeroByte m = true)
    (he : e.mems = (m, d.mems.2)) : MemWf e := by
  simp only [Dev.mems, Prod.mk.injEq] at he
  obtain ⟨hw, ha, hb, hh⟩ := he
  obtain ⟨-, wa, wb, wh⟩ := h
  unfold MemWf
  rw [hw, ha, hb, hh]
  exact ⟨hm, wa, wb, wh⟩

/-- Home groups in their canonical form put in the place of the old ones. -/
theorem memWf_home {d e : Dev} (h : MemWf d) {m : Mem} (hm : Memory.wf larderByte m = true)
    (he : e.mems = (d.cycle.worktop, d.store.bankA.bytes, d.store.bankB.bytes, m)) : MemWf e := by
  simp only [Dev.mems, Prod.mk.injEq] at he
  obtain ⟨hw, ha, hb, hh⟩ := he
  obtain ⟨ww, wa, wb, -⟩ := h
  unfold MemWf
  rw [hw, ha, hb, hh]
  exact ⟨ww, wa, wb, hm⟩

theorem worktop_wf {d : Dev} (h : MemWf d) : Memory.wf zeroByte d.cycle.worktop = true := by
  obtain ⟨ww, -, -, -⟩ := h
  exact ww

theorem home_wf {d : Dev} (h : MemWf d) : Memory.wf larderByte d.store.home = true := by
  obtain ⟨-, -, -, wh⟩ := h
  exact wh

theorem bank_wf {d : Dev} (h : MemWf d) (b : Bool) : Memory.wf zeroByte (d.store.bank b).bytes = true := by
  obtain ⟨-, wa, wb, -⟩ := h
  cases b
  · exact wa
  · exact wb

/-- A bank in its canonical form put in the place of the old one. -/
theorem setBank_memWf {d : Dev} (h : MemWf d) (b : Bool) {x : Bank} (hx : Memory.wf zeroByte x.bytes = true) :
    MemWf (d.onStore fun s => s.setBank b x) := by
  obtain ⟨ww, wa, wb, wh⟩ := h
  cases b
  · exact ⟨ww, hx, wb, wh⟩
  · exact ⟨ww, wa, hx, wh⟩

theorem put_wf {x : Bank} (h : Memory.wf zeroByte x.bytes = true) (ofs : Nat) (bs : List Byte) :
    Memory.wf zeroByte (x.put ofs bs).bytes = true :=
  Mem.writeBytes_wf h ofs bs

/-! ### The larder's cells -/

theorem cellWrite_memWf (g : Nat) (b : List Byte) {d : Dev} (h : MemWf d) : MemWf (d.cellWrite g b) := by
  have hc : MemWf (d.countWear g) := memWf_of_mems h (countWear_mems d g)
  exact memWf_home hc (Mem.writeBytes_wf (home_wf hc) (8 * g) b) rfl

theorem retireGroup_memWf (g cause : Nat) {d : Dev} (h : MemWf d) : MemWf (d.retireGroup g cause) := by
  unfold Dev.retireGroup
  split
  · exact memWf_of_mems h (by simp)
  · extract_lets k d1 row
    have h1 : MemWf d1 := memWf_of_mems h rfl
    have h2 : MemWf ((d1.cellWrite (0x200 + k / 4) row).cellWrite (0x400 + k / 4) row) :=
      cellWrite_memWf _ row (cellWrite_memWf _ row h1)
    exact memWf_of_mems h2 (by simp)

theorem loseGroup_memWf (g : Nat) {d : Dev} (h : MemWf d) : MemWf (d.loseGroup g) :=
  retireGroup_memWf g 1 (memWf_home h (Mem.writeBytes_wf (home_wf h) (8 * g) _) rfl)

theorem remapFind_memWf (g : Nat) (mate : Bool) {d : Dev} (h : MemWf d) : MemWf (d.remapFind g mate) := by
  unfold Dev.remapFind
  split
  · exact retireGroup_memWf g 1 (memWf_of_mems h rfl)
  · exact cellWrite_memWf g _ (retireGroup_memWf g 1 h)

theorem larderFindBy_memWf (g : Nat) (e : EccFind) (mate : Bool) {d : Dev} (h : MemWf d) :
    MemWf (d.larderFindBy g e mate) := by
  have hlose : MemWf ((d.loseGroup g).onRegion g (fun r => { r with lost := true })) :=
    memWf_of_mems (loseGroup_memWf g h) (onRegion_mems _ _ _)
  fun_cases Dev.larderFindBy d g e mate
  case case3 => exact cellWrite_memWf g _ (memWf_of_mems h rfl)
  case case5 => exact remapFind_memWf g mate h
  case case6 => exact cellWrite_memWf g _ (retireGroup_memWf g 1 h)
  case case7 => exact memWf_of_mems hlose (uncorrPot_mems _ _ _ _)
  case case8 => exact memWf_of_mems hlose (uncorrShared_mems _ _ _)
  all_goals exact h

theorem larderFind_memWf (g : Nat) (e : EccFind) {d : Dev} (h : MemWf d) : MemWf (d.larderFind g e) :=
  larderFindBy_memWf g e false h

theorem larderReads_memWf (finds : List (Nat × EccFind)) {d : Dev} (h : MemWf d) : MemWf (d.larderReads finds) :=
  foldl_memWf (fun _ f hd => larderFindBy_memWf f.1 f.2 _ hd) _ h

@[simp] theorem hostLoss_mems (s : StoreState) (host : Bool) :
    (s.hostLoss host).bankA = s.bankA ∧ (s.hostLoss host).bankB = s.bankB ∧ (s.hostLoss host).home = s.home := by
  cases host <;> exact ⟨rfl, rfl, rfl⟩

theorem writeHome_memWf (g : Nat) (b : List Byte) (ok host : Bool) {d : Dev} (h : MemWf d) :
    MemWf (d.writeHome g b ok host) := by
  have hr : MemWf ((d.countWear g).retireGroup g 2) := retireGroup_memWf g 2 (memWf_of_mems h (countWear_mems d g))
  unfold Dev.writeHome
  extract_lets found
  have hf (e : Dev) : (e.onStore found).mems = e.mems := by
    dsimp only [found, Dev.onStore]
    split <;> simp
  split
  · exact memWf_of_mems (cellWrite_memWf g b h) (hf _)
  split
  · exact memWf_of_mems hr (by simp)
  · exact memWf_of_mems (cellWrite_memWf g b hr) (hf _)

theorem landFront_memWf (ok : Bool) {d : Dev} (h : MemWf d) : MemWf (d.landFront ok) := by
  unfold Dev.landFront
  split
  · exact h
  · extract_lets d1
    have h1 : MemWf d1 := writeHome_memWf _ _ ok _ (memWf_of_mems h rfl)
    split
    · exact memWf_of_mems h1 (hostLanded_mems d1)
    · exact h1
  · extract_lets q d1
    have h1 : MemWf d1 := writeHome_memWf _ _ ok _ (memWf_of_mems h rfl)
    split
    · exact memWf_of_mems h1 (hostLanded_mems d1)
    · exact h1

theorem landMany_memWf (worn : List Nat) (n : Nat) {d : Dev} (h : MemWf d) : MemWf (Dev.landMany worn n d) := by
  induction n generalizing d with
  | zero => exact h
  | succ n ih => exact ih (landFront_memWf _ h)

theorem patrolGroupRead_memWf (worn : List Nat) (d : Dev) (x : Nat × EccFind) (h : MemWf d) :
    MemWf (Dev.patrolGroupRead worn d x) := by
  unfold Dev.patrolGroupRead
  extract_lets d1
  have h1 : MemWf d1 := memWf_of_mems (larderFind_memWf x.1 x.2 h) (markLostRead_mems _ _)
  split
  · exact writeHome_memWf _ _ _ _ h1
  · exact h1

theorem larderPatrol_memWf (es : List EccFind) (worn : List Nat) {d : Dev} (h : MemWf d) :
    MemWf (d.larderPatrol es worn) := by
  unfold Dev.larderPatrol
  extract_lets first d1
  have h1 : MemWf d1 := foldl_memWf (patrolGroupRead_memWf worn) _ h
  split
  · exact h
  · exact memWf_of_mems h1 rfl

/-! ### The banks -/

theorem storeEraseEnd_memWf {d : Dev} (h : MemWf d) : MemWf d.storeEraseEnd := by
  unfold Dev.storeEraseEnd
  split
  · exact memWf_of_mems (setBank_memWf h _ (x := Bank.blank) rfl) rfl
  · exact h

theorem storeWriteEnd_memWf {d : Dev} (h : MemWf d) : MemWf d.storeWriteEnd := by
  unfold Dev.storeWriteEnd
  split
  · exact memWf_of_mems (setBank_memWf h _ (put_wf (bank_wf h _) _ _)) rfl
  · exact h

theorem abortBusy_memWf (o : StoreOp) (words : Nat) {d : Dev} (h : MemWf d) : MemWf (d.abortBusy o words) := by
  cases o
  case write b ofs bs => exact memWf_of_mems (setBank_memWf h b (put_wf (bank_wf h b) _ _)) rfl
  case erase b =>
    exact memWf_of_mems (setBank_memWf h b (x := { d.store.bank b with mode := .writing }) (bank_wf h b)) rfl
  all_goals exact memWf_of_mems h rfl

theorem storeAbort_memWf (words : Nat) {d : Dev} (h : MemWf d) : MemWf (d.storeAbort words) := by
  fun_cases Dev.storeAbort words d
  case case1 => exact abortBusy_memWf _ words h
  all_goals exact memWf_of_mems h rfl

theorem storeReset_memWf (words : Nat) {d : Dev} (h : MemWf d) : MemWf (d.storeReset words) := by
  unfold Dev.storeReset
  extract_lets d1 d2
  have h1 : MemWf d1 := memWf_of_mems h (by dsimp only [d1]; split <;> rfl)
  have h2 : MemWf d2 := memWf_of_mems h1 (by dsimp only [d2]; split <;> rfl)
  split
  · exact abortBusy_memWf _ words h2
  · exact h2

theorem storeCmd_memWf (v : Word) (priv : Bool) (words : Nat) {d : Dev} (h : MemWf d) :
    MemWf (d.storeCmd v priv words) := by
  fun_cases Dev.storeCmd v priv words d
  case case5 => exact storeAbort_memWf words h
  all_goals exact memWf_of_mems h (by simp)

/-! ### The worktop -/

theorem putWorktop_memWf (a : Nat) (b : List Byte) {d : Dev} (h : MemWf d) : MemWf (d.putWorktop a b) :=
  memWf_worktop h (Mem.writeBytes_wf (worktop_wf h) a b) rfl

theorem ringWriteSlot_memWf (d : Dev) (n : Nat) (h : MemWf d) : MemWf (d.ringWriteSlot n) := by
  fun_cases Dev.ringWriteSlot d n
  case case4 d1 d2 =>
    have h1 : MemWf d1 :=
      foldl_memWf (fun e x he => memWf_of_mems (putWorktop_memWf _ _ he) (onSlot_mems _ _ _)) _ h
    exact putWorktop_memWf _ _ (memWf_of_mems h1 (onSlot_mems _ _ _))
  all_goals exact memWf_of_mems h (by simp)

theorem slotsStart_memWf (p : Nat) {d : Dev} (h : MemWf d) : MemWf (d.slotsStart p) := by
  refine foldl_memWf (fun d n hd => ?_) _ h
  extract_lets d1
  have h1 : MemWf d1 := memWf_of_mems hd rfl
  split
  · exact putWorktop_memWf _ _ h1
  · exact h1

theorem foldl_write_wf (l : List (Nat × Byte)) {m : Mem} (h : Memory.wf zeroByte m = true) :
    Memory.wf zeroByte (l.foldl (fun m p => Mem.write zeroByte m p.1 p.2) m) = true := by
  induction l generalizing m with
  | nil => exact h
  | cons p l ih => exact ih (Mem.write_wf h p.1 p.2)

theorem commitStores_memWf (s : Staged) {d : Dev} (h : MemWf d) : MemWf (d.commitStores s) :=
  memWf_worktop h (foldl_write_wf _ (worktop_wf h)) rfl

theorem fvWrite_memWf {d : Dev} (h : MemWf d) : MemWf d.fvWrite := by
  unfold Dev.fvWrite
  extract_lets c p ofs ended put d1 n d2
  have hput : ∀ d a bs, MemWf d → MemWf (put d a bs) := fun d a bs hd => by
    dsimp only [put]
    split
    · exact putWorktop_memWf _ bs hd
    · exact hd
  have h1 : MemWf d1 := foldl_memWf (fun d r hd => hput d _ _ hd) _ h
  have h2 : MemWf d2 := by
    dsimp only [d2]
    split
    · exact memWf_of_mems (hput d1 _ _ h1) rfl
    · exact h1
  exact memWf_of_mems h2 rfl

theorem worktopError_memWf (d : Dev) (x : Nat × Byte) (h : MemWf d) : MemWf (d.worktopError x) := by
  have h1 : MemWf (d.putWorktop x.1 [x.2]) := putWorktop_memWf _ _ h
  fun_cases Dev.worktopError d x
  case case1 => exact h
  all_goals exact memWf_of_mems h1 (by simp +zetaDelta)

/-- A start of a pot clears its window, but for a kept region. -/
theorem potStart_memWf (p : Nat) (warm same host : Bool) {d : Dev} (h : MemWf d) :
    MemWf (d.potStart p warm same host) := by
  unfold Dev.potStart
  extract_lets w lo hi r pass mem d1 d2 reset d3 d4 fresh d5
  have hm : Memory.wf zeroByte mem = true := by
    dsimp only [mem]
    split
    · exact Mem.clear_wf (Mem.clear_wf (worktop_wf h) _ _) _ _
    · exact Mem.clear_wf (worktop_wf h) _ _
  have h1 : MemWf d1 := memWf_worktop h hm rfl
  have h5 : MemWf d5 := memWf_of_mems h1 (by simp [d5, d4, d3, d2])
  exact memWf_of_mems (slotsStart_memWf p h5) (by simp [Dev.facePotStart])

theorem enterRun_memWf (warm : Bool) {d : Dev} (h : MemWf d) : MemWf (d.enterRun warm) := by
  unfold Dev.enterRun
  extract_lets d1 d2
  have h2 : MemWf d2 := memWf_of_mems h (by simp [d2, d1])
  refine memWf_of_mems ?_ (busStart_mems _)
  exact foldl_memWf (fun _ p hd => potStart_memWf p warm true true hd) _ h2

theorem autorun_memWf {d : Dev} (h : MemWf d) : MemWf d.autorun := by
  fun_cases Dev.autorun d
  case case3 => exact enterRun_memWf _ h
  all_goals exact h

theorem modeChange_memWf {d : Dev} (h : MemWf d) : MemWf d.modeChange := by
  have hHalt : MemWf d.enterHalt := memWf_of_mems h (enterHalt_mems d)
  have hRun (warm : Bool) : MemWf (d.enterRun warm) := enterRun_memWf warm h
  unfold Dev.modeChange
  split
  · exact hHalt
  · exact hHalt
  · split
    · exact hRun true
    · exact h
  · split
    · exact hRun false
    · exact h
  · split
    · exact hRun true
    · exact h
  · split
    · exact hRun false
    · exact h
  · exact h

theorem potApply_memWf (d : Dev) (p : Nat) (h : MemWf d) : MemWf (d.potApply p) := by
  unfold Dev.potApply
  extract_lets x d1
  have h1 : MemWf d1 := memWf_of_mems h (by simp [d1])
  split
  · exact h
  · split
    · exact memWf_of_mems h1 (onPot_mems _ _ _)
    · exact memWf_of_mems (potStart_memWf p true true _ h1) (onPot_mems _ _ _)
    · exact memWf_of_mems (potStart_memWf p false true _ h1) (onPot_mems _ _ _)

theorem potCommands_memWf {d : Dev} (h : MemWf d) : MemWf d.potCommands := by
  unfold Dev.potCommands
  split
  · exact foldl_memWf potApply_memWf _ h
  · exact h

theorem switchPots_memWf (old : Dev) (warm : Nat) {d : Dev} (h : MemWf d) : MemWf (switchPots old warm d) := by
  refine foldl_memWf (fun d p hd => ?_) _ h
  extract_lets same
  split
  · exact potStart_memWf _ _ _ _ hd
  · split <;> exact memWf_of_mems hd (onPot_mems _ _ _)

theorem bankSwitch_memWf {d : Dev} (h : MemWf d) : MemWf d.bankSwitch := by
  unfold Dev.bankSwitch
  split
  next b _ warm m _ =>
    split
    · exact h
    · extract_lets d1 d2 d3 c d4 d5 d6 d7 d8 d9
      have h3 : d3.mems = d.mems := by simp [d3, d2, d1]
      have h5 : d5.mems = d3.mems := by simp [d5, d4, c]
      have h6 : MemWf d6 := memWf_of_mems h (by simp [d6, h5, h3])
      have h7 : MemWf (switchPots d warm d6) := switchPots_memWf d warm h6
      exact memWf_of_mems h7 (by simp [d9, d8, d7])
  next => exact h

/-! ### Register writes and commits -/

theorem regWrite_memWf (host : Bool) (rec : Word) (words a : Nat) (v : Word) {d : Dev} (h : MemWf d) :
    MemWf (d.regWrite host rec words a v) := by
  fun_cases Dev.regWrite host rec words a v d
  case case30 =>
    -- STORE.CMD
    exact storeCmd_memWf v true words h
  all_goals exact memWf_of_mems h (by simp +zetaDelta)

theorem hobWrite_memWf (a : Nat) (v : Word) {d : Dev} (h : MemWf d) : MemWf (d.hobWrite a v) := by
  unfold Dev.hobWrite
  split
  · exact memWf_of_mems h (deny_mems d 0)
  · exact regWrite_memWf _ _ _ a v h

theorem potWrite_memWf (p a : Nat) (v : Word) {d : Dev} (h : MemWf d) : MemWf (d.potWrite p a v) := by
  have hdeny : MemWf (d.deny p) := memWf_of_mems h (deny_mems d p)
  have hreg : MemWf (d.regWrite false 0 0 a v) := regWrite_memWf _ _ _ a v h
  fun_cases Dev.potWrite d p a v <;> assumption

theorem taskWrite_memWf (p a : Nat) (v : Word) {d : Dev} (h : MemWf d) : MemWf (d.taskWrite p a v) := by
  unfold Dev.taskWrite
  split
  · exact hobWrite_memWf a v h
  · exact potWrite_memWf p a v h

theorem applyWrite_memWf (d : Dev) (w : HostWrite) (h : MemWf d) : MemWf (d.applyWrite w) := by
  fun_cases Dev.applyWrite d w
  case case1 => exact storeCmd_memWf _ _ _ h
  case case2 => exact regWrite_memWf _ _ _ _ _ h
  case case3 => exact memWf_of_mems (putWorktop_memWf _ _ h) (holdCrcs_mems _ _)
  all_goals exact memWf_of_mems h (by simp +zetaDelta)

theorem registerWrite_memWf (a : Nat) (v : Word) {d : Dev} (h : MemWf d) : MemWf (d.registerWrite a v) := by
  unfold Dev.registerWrite
  split
  · exact regWrite_memWf _ _ _ a v h
  · exact h

theorem writeBy_memWf (w : RegWriter) (a : Nat) (v : Word) {d : Dev} (h : MemWf d) : MemWf (d.writeBy w a v) := by
  cases w with
  | host => exact registerWrite_memWf a v h
  | guest =>
    simp only [Dev.writeBy]
    split
    · exact applyWrite_memWf d _ h
    · exact memWf_of_mems h rfl
  | pot p => exact taskWrite_memWf p.val a v h

theorem commit_memWf (t : Nat) {d : Dev} (h : MemWf d) : MemWf (d.commit t) := by
  unfold Dev.commit
  split
  · exact h
  next w _ =>
    extract_lets p s d1 d2
    have h1 : MemWf d1 := memWf_of_mems (commitStores_memWf s h) (by simp [d1])
    have h2 : MemWf d2 :=
      foldl_memWf (fun _ q hd => taskWrite_memWf p q.1 q.2 hd) _ (memWf_of_mems h1 (by simp))
    exact memWf_of_mems h2 (by simp)

theorem commitAll_memWf {d : Dev} (h : MemWf d) : MemWf d.commitAll := by
  refine foldl_memWf (fun d x hd => ?_) _ h
  split
  · exact commit_memWf x.1 hd
  · exact hd

/-! ### The boundaries (Table 5.2) -/

theorem step1_memWf {d : Dev} (h : MemWf d) : MemWf d.step1 :=
  foldl_memWf applyWrite_memWf _ (memWf_of_mems h rfl)

theorem step4_memWf (before : Dev) {d : Dev} (h : MemWf d) : MemWf (Dev.step4 before d) := by
  unfold Dev.step4
  extract_lets d1
  have hc : MemWf d.faceComplete.commitAll := commitAll_memWf (memWf_of_mems h (faceComplete_mems d))
  have hv : MemWf (Dev.overrunPlates before d.faceComplete.commitAll).faceStart.fvWrite :=
    fvWrite_memWf (memWf_of_mems hc (by simp))
  have h1 : MemWf d1 := foldl_memWf ringWriteSlot_memWf _ (memWf_of_mems hv (by simp))
  exact memWf_of_mems h1 (by simp)

theorem steps34_memWf {d : Dev} (h : MemWf d) : MemWf d.steps34 := by
  unfold Dev.steps34
  extract_lets d1
  have h1 : MemWf d1 := memWf_of_mems h (by simp [d1])
  exact memWf_of_mems (step4_memWf d h1) (logFlush_mems _)

theorem step5_memWf {d : Dev} (h : MemWf d) : MemWf d.step5 :=
  autorun_memWf (potCommands_memWf (modeChange_memWf (bankSwitch_memWf h)))

@[simp] theorem readVcore_mems (d : Dev) : d.readVcore.mems = d.mems := rfl

theorem milestoneEnd_memWf (p : PatrolEnv) {d : Dev} (h : MemWf d) : MemWf (d.milestoneEnd p) := by
  have hp : MemWf ((d.pantryPatrol p.words).larderPatrol p.groups p.worn) :=
    larderPatrol_memWf _ _ (memWf_of_mems h (pantryPatrol_mems _ _))
  exact memWf_of_mems hp (by simp [Dev.milestoneEnd])

@[simp] theorem endBoundary_mems (d : Dev) : d.endBoundary.mems = d.mems := by
  simp [Dev.endBoundary]

theorem waymark_memWf {d : Dev} (h : MemWf d) : MemWf d.waymark := by
  unfold Dev.waymark
  extract_lets d1 d2 d3
  have h1 : MemWf d1 := memWf_of_mems h (by simp [d1])
  have h2 : MemWf d2 := steps34_memWf (memWf_of_mems (step1_memWf h1) (logFlush_mems _))
  exact memWf_of_mems h2 (by simp [d3])

theorem milestoneBoundary_memWf (p : PatrolEnv) {d : Dev} (h : MemWf d) : MemWf (d.milestoneBoundary p) := by
  unfold Dev.milestoneBoundary
  extract_lets d1 d2 dm d3 d4
  have h1 : MemWf d1 := memWf_of_mems h (by simp [d1, Dev.newMilestone, Dev.carryGrids])
  have h2 : MemWf d2 := steps34_memWf (memWf_of_mems (step1_memWf h1) (by simp))
  have hm : MemWf dm := memWf_of_mems (step5_memWf h2) (by simp [dm])
  have h4 : MemWf d4 := memWf_of_mems hm (by simp [d4, d3])
  exact memWf_of_mems (milestoneEnd_memWf p h4) (by simp)

/-! ### Resets and start-up -/

theorem afterReset_memWf (r : PendReset) (boundary : Bool) {d : Dev} (h : MemWf d) :
    MemWf (d.afterReset r boundary) := by
  obtain ⟨ww, wa, wb, wh⟩ := h
  refine ⟨?_, wa, wb, wh⟩
  dsimp only [Dev.afterReset, CycleState.atReset]
  split
  · rfl
  · exact ww

theorem losePower_memWf (worn : List Nat) (landed : Nat) {d : Dev} (h : MemWf d) : MemWf (d.losePower worn landed) :=
  memWf_of_mems (landMany_memWf worn _ h) rfl

theorem doReset_memWf (r : PendReset) (boundary : Bool) (e : ResetEnv) {d : Dev} (h : MemWf d) :
    MemWf (d.doReset r boundary e) := by
  unfold Dev.doReset
  extract_lets d1 d2 d3 ready
  have h1 : MemWf d1 := memWf_of_mems (storeReset_memWf e.words h) (by simp [d1])
  have h2 : MemWf d2 := by
    dsimp only [d2]
    split
    · exact losePower_memWf _ _ h1
    · exact memWf_of_mems (landMany_memWf e.worn _ h1) (logFlush_mems _)
  have h3 : MemWf d3 := afterReset_memWf r boundary h2
  exact memWf_of_mems h3 (by cases boundary <;> simp)

theorem resetApply_memWf (e : ResetEnv) {d : Dev} (h : MemWf d) : MemWf (d.resetApply e) := by
  unfold Dev.resetApply
  split
  · exact h
  · split
    · exact h
    · exact doReset_memWf _ _ _ (memWf_of_mems h rfl)

theorem tollAutoReset_memWf (e : ResetEnv) {d : Dev} (h : MemWf d) : MemWf (d.tollAutoReset e) := by
  unfold Dev.tollAutoReset
  split
  · exact resetApply_memWf e (memWf_of_mems h (tollAutoOrder_mems d))
  · exact h

theorem boundary_memWf (p : PatrolEnv) (e : ResetEnv) {d : Dev} (h : MemWf d) : MemWf (d.boundary p e) := by
  unfold Dev.boundary
  extract_lets d0 d1
  have h0 : MemWf d0 :=
    larderReads_memWf _ (foldl_memWf worktopError_memWf _
      (memWf_of_mems h (by simp)))
  have h1 : MemWf d1 := memWf_of_mems h0 (tollAutoOrder_mems d0)
  split
  · split
    · exact milestoneBoundary_memWf p h1
    · exact resetApply_memWf e h1
  · exact waymark_memWf h0

theorem domainFaultAny_memWf (n : Fin 16) (e : ResetEnv) {d : Dev} (h : MemWf d) :
    MemWf (d.domainFaultAny n e) := by
  unfold Dev.domainFaultAny
  split
  · exact h
  split
  · exact doReset_memWf _ _ _ (memWf_of_mems h rfl)
  · exact memWf_of_mems h (domainFault_mems d _ _)

theorem parameterLoad_memWf (c : CellEnv) {d : Dev} (h : MemWf d) : MemWf (d.parameterLoad c) := by
  unfold Dev.parameterLoad
  split
  · exact h
  · extract_lets read d0 s sys d1 d2 d3
    have h0 : MemWf d0 := larderReads_memWf _ (memWf_of_mems h (by simp))
    have h1 : MemWf d1 := memWf_of_mems h0 rfl
    exact memWf_of_mems h1 (by simp [d3, d2])

theorem journalRead_memWf (ts : List JournalTxn) (d : Dev) (f : Nat × EccFind) (h : MemWf d) :
    MemWf (Dev.journalRead ts d f) := by
  unfold Dev.journalRead
  extract_lets ours
  split
  · exact h
  split
  · exact loseGroup_memWf _ h
  · exact larderFind_memWf _ _ h

theorem undo_wf {s : StoreState} (h : Memory.wf larderByte s.home = true) (old : List (Nat × List Byte)) :
    Memory.wf larderByte (s.undo old).home = true := by
  unfold StoreState.undo
  dsimp only
  generalize s.home = m at h
  induction old generalizing m with
  | nil => exact h
  | cons p old ih => exact ih _ (Mem.writeBytes_wf h _ _)

theorem recoverTxn_memWf (worn : List Nat) (d : Dev) (t : JournalTxn) (h : MemWf d) :
    MemWf (Dev.recoverTxn worn d t) := by
  unfold Dev.recoverTxn
  split
  · exact memWf_of_mems h rfl
  split
  · exact landMany_memWf worn _ (memWf_of_mems h rfl)
  · extract_lets d1
    have h1 : MemWf d1 := memWf_home h (undo_wf (home_wf h) t.old) rfl
    split
    · exact memWf_of_mems h1 (uncorrPot_mems _ _ _ _)
    · exact memWf_of_mems h1 (uncorrShared_mems _ _ _)

theorem journalRecovery_memWf (c : CellEnv) {d : Dev} (h : MemWf d) : MemWf (d.journalRecovery c) := by
  unfold Dev.journalRecovery
  split
  · exact h
  · extract_lets ts imms d0 d1 d2 d3 d4
    have h0 : MemWf d0 := foldl_memWf (journalRead_memWf ts) _ h
    have h2 : MemWf d2 := foldl_memWf (recoverTxn_memWf c.worn) _ (memWf_of_mems h0 rfl)
    have h4 : MemWf d4 := by
      dsimp only [d4]
      split
      · exact memWf_worktop h2 (m := []) rfl rfl
      · exact memWf_of_mems h2 rfl
    exact memWf_of_mems h4 rfl

theorem imageAcceptance_memWf (e : AcceptEnv) {d : Dev} (h : MemWf d) : MemWf (d.imageAcceptance e) := by
  unfold Dev.imageAcceptance
  extract_lets read
  have hread {x : Dev} (hx : x.mems = d.mems) : MemWf (read x) := larderReads_memWf _ (memWf_of_mems h hx)
  split
  · exact memWf_of_mems (hread (Dev.onStore_mems _ _)) (firstAttempt_mems _)
  · exact memWf_of_mems (hread rfl) (secondAttempt_mems _ _)
  · exact h

/-! ### The seat and the tunnels -/

theorem readLarder_memWf (g n : Nat) (fs : List EccFind) {d : Dev} (h : MemWf d) :
    MemWf (Dev.readLarder g n fs d).2 := by
  induction n generalizing g fs d with
  | zero => exact h
  | succ n ih =>
    rw [Dev.readLarder]
    dsimp only
    refine ih _ _ ?_
    split
    · exact h
    · exact memWf_of_mems (larderFind_memWf g _ h) (markLostRead_mems _ _)

theorem doRead_memWf (who : Holder) (r : SeatReq) (e : SeatEnv) {d : Dev} (h : MemWf d) :
    MemWf (d.doRead who r e).2.2 := by
  fun_cases Dev.doRead who r e d
  case case3 =>
    exact memWf_of_mems h (foldl_snd_mems (fun x w => by simp +zetaDelta [Dev.bootRead]) _ _)
  case case9 => exact readLarder_memWf _ _ _ h
  all_goals exact h

theorem readKey_memWf (e : SeatEnv) {d : Dev} (h : MemWf d) : MemWf (d.readKey e) :=
  larderReads_memWf _ h

theorem doChallenge_memWf (e : SeatEnv) {d : Dev} (h : MemWf d) : MemWf (d.doChallenge e).2.2 := by
  have hk := readKey_memWf e h
  fun_cases Dev.doChallenge e d
  · exact hk
  · exact memWf_of_mems hk rfl

theorem doRespond_memWf (who : Holder) (r : SeatReq) (e : SeatEnv) (nonce : Option (List Byte × Nat)) {d : Dev}
    (h : MemWf d) : MemWf (d.doRespond who r e nonce).2.2 := by
  have hk := readKey_memWf e h
  fun_cases Dev.doRespond who r e nonce d <;> exact memWf_of_mems hk rfl

theorem bySeq_memWf (cmd : Nat) (r : SeatReq)
    {run : Option (List Byte × Nat) → Dev → SeatStatus × List Byte × Dev}
    (hr : ∀ n d, MemWf d → MemWf (run n d).2.2) {d : Dev} (h : MemWf d) : MemWf (d.bySeq cmd r run).2 := by
  unfold Dev.bySeq
  split
  · exact memWf_of_mems (hr _ _ (memWf_of_mems h (Dev.onSeat_mems _ _))) (Dev.onSeat_mems _ _)
  · extract_lets again
    cases again
    · exact memWf_of_mems h rfl
    · exact h

theorem sequenced_memWf (who : Holder) (cmd : Nat) (r : SeatReq)
    {run : Option (List Byte × Nat) → Dev → SeatStatus × List Byte × Dev}
    (hr : ∀ n d, MemWf d → MemWf (run n d).2.2) {d : Dev} (h : MemWf d) : MemWf (d.sequenced who cmd r run).2 := by
  unfold Dev.sequenced
  extract_lets d1
  have h1 : MemWf d1 := memWf_of_mems h (hear_mems who d)
  split
  next x hx => exact memWf_of_mems h1 (gate_mems hx)
  next =>
    split
    · exact h1
    split
    · exact h1
    · exact bySeq_memWf cmd r hr h1

theorem seatRead_memWf (who : Holder) (r : SeatReq) (e : SeatEnv) {d : Dev} (h : MemWf d) :
    MemWf (d.seatRead who r e).2 :=
  sequenced_memWf who 0x10 r (fun _ _ hd => doRead_memWf who r e hd) h

theorem seatChallenge_memWf (who : Holder) (r : SeatReq) (e : SeatEnv) {d : Dev} (h : MemWf d) :
    MemWf (d.seatChallenge who r e).2 :=
  sequenced_memWf who 0x20 r (fun _ _ hd => doChallenge_memWf e hd) h

theorem seatRespond_memWf (who : Holder) (r : SeatReq) (e : SeatEnv) {d : Dev} (h : MemWf d) :
    MemWf (d.seatRespond who r e).2 :=
  sequenced_memWf who 0x21 r (fun n _ hd => doRespond_memWf who r e n hd) h

theorem seatAny_memWf (who : Holder) (cmd : Nat) (r : SeatReq) (e : SeatEnv) {d : Dev} (h : MemWf d) :
    MemWf (d.seatAny who cmd r e).2 := by
  have hkeep {x : Response × Dev} (hx : x.2.mems = d.mems) : MemWf x.2 := memWf_of_mems h hx
  unfold Dev.seatAny
  split
  · exact hkeep (seatIdentify_mems who r d)
  · exact hkeep (seatTake_mems who r d)
  · exact hkeep (seatRelease_mems who r d)
  · exact seatRead_memWf who r e h
  · exact hkeep (seatWrite_mems who r e d)
  · exact seatChallenge_memWf who r e h
  · exact seatRespond_memWf who r e h
  · exact hkeep (seatClose_mems who r d)
  · exact hkeep (seatReset_mems who r d)
  · split
    · split
      next x hx => exact hkeep ((gate_mems hx).trans (hear_mems who d))
      next => exact hkeep (hear_mems who d)
    · exact sequenced_memWf who cmd r (fun _ _ hd => hd) h

theorem spi_memWf {x : Response × Dev} (h : MemWf x.2) : MemWf (Dev.spi x) :=
  memWf_of_mems h (spi_mems x)

theorem port_memWf {f : Dev → Dev} {d : Dev} (hf : MemWf (f d)) (h : MemWf d) : MemWf (Dev.port f d) := by
  unfold Dev.port
  split
  · exact hf
  · exact h

theorem tunCommand_memWf (r : SeatReq) {run : Nat → Dev → SeatStatus × List Byte × Dev}
    (hr : ∀ n d, MemWf d → MemWf (run n d).2.2) {d : Dev} (h : MemWf d) : MemWf (d.tunCommand r run) := by
  unfold Dev.tunCommand
  refine spi_memWf ?_
  split
  next x hx => exact memWf_of_mems h (gate_mems hx)
  next =>
    extract_lets ch out
    split
    · exact h
    · exact hr _ _ h

theorem tunSend_memWf (frame : List Byte) (e : SeatEnv) (ch : Nat) {d : Dev} (h : MemWf d) :
    MemWf (d.tunSend frame e ch).2.2 := by
  fun_cases Dev.tunSend frame e ch d
  case case5 =>
    exact memWf_of_mems (seatAny_memWf _ _ _ e (memWf_of_mems h (setTun_mems _ _ _))) (tunArrive_mems _ _ _)
  all_goals exact memWf_of_mems h (by simp)

theorem rxTunnel_memWf (f : RxEnd) (e : SeatEnv) {d : Dev} (h : MemWf d) : MemWf (d.rxTunnel f e) := by
  have hr := receive_mems 10 f d
  fun_cases Dev.rxTunnel f e d
  case case5 d1 _ _ _ _ _ _ _ _ _ _ _ _ =>
    have h1 : MemWf d1 := memWf_of_mems h (by simp_all)
    exact memWf_of_mems (seatAny_memWf _ _ _ e h1) (sendTunnel_mems _ _ _ _ _)
  all_goals exact memWf_of_mems h (by simp_all +zetaDelta)

/-! ### The Rhamet rows -/

@[simp] theorem rhRaw_mems (d : Dev) (t : Fin 64) (imm cost need : Nat)
    (f : Window → Frame → List Frame → Window) : (d.rhRaw t imm cost need f).mems = d.mems := by
  fun_cases Dev.rhRaw d t imm cost need f <;> simp

@[simp] theorem rhPush_mems (d : Dev) (t : Fin 64) (imm cost : Nat) (v : Window → Frame → Word) :
    (d.rhPush t imm cost v).mems = d.mems := rhRaw_mems ..

theorem rhConst_mems (d : Dev) (t : Fin 64) (imm n : Nat) : (d.rhConst t imm n).mems = d.mems := by
  unfold Dev.rhConst Dev.rhGuard
  split
  · rfl
  · split
    · split
      · exact fetchFail_mems ..
      · exact rhRaw_mems ..
    · rfl

theorem rhCall_mems (t : Fin 64) (fn : BitVec 16) (d : Dev) : (d.rhCall t fn).mems = d.mems := by
  unfold Dev.rhCall
  split
  · rfl
  · exact rhRaw_mems ..

/-- L.RD may find an error in the group that it reads. -/
theorem rhLRd_memWf (t : Fin 64) (r : BitVec 6) (half : Bool) (g : BitVec 15) (ty : RhType) (e : EccFind) {d : Dev}
    (h : MemWf d) : MemWf (d.rhLRd t r half g ty e) := by
  fun_cases Dev.rhLRd t r half g ty e d
  case case4 n d1 =>
    have h1 : MemWf d1 := memWf_of_mems (larderFind_memWf n e h) (markLostRead_mems _ _)
    exact memWf_of_mems h1 (rhPush_mems ..)
  all_goals exact memWf_of_mems h (by simp)

/-! ### Every row -/

theorem act_memWf {s t : State} {f : Dev → Dev} (hx : s.act f = .next t) (hf : MemWf (f s.dev)) : MemWf t.dev := by
  cases hx
  exact memWf_of_mems hf (by rw [Dev.settle_mems, logFlush_mems])

theorem act_mems {s t : State} {f : Dev → Dev} (h : MemWf s.dev) (hx : s.act f = .next t)
    (hf : (f s.dev).mems = s.dev.mems) : MemWf t.dev :=
  act_memWf hx (memWf_of_mems h hf)

theorem lane_mems {s t : State} {f : Dev → Dev} (h : MemWf s.dev) (hx : s.lane f = .next t)
    (hf : (f s.dev).mems = s.dev.mems) : MemWf t.dev := by
  cases hx
  exact memWf_of_mems h hf

/-- The rows that write a memory keep its canonical form; every other row leaves the memories as they were. -/
theorem exec_memWf {i : Instr} {s t : State} (h : MemWf s.dev) (hx : exec i s = .next t) : MemWf t.dev := by
  cases i with
  -- Rows that may write a memory
  | powerOn e => exact act_memWf hx (doReset_memWf _ _ _ h)
  | brownOut e => exact act_memWf hx (doReset_memWf _ _ _ h)
  | resetApply e => exact act_memWf hx (resetApply_memWf e h)
  | domainFault n e => exact act_memWf hx (domainFaultAny_memWf n e h)
  | tollAutoReset e => exact act_memWf hx (tollAutoReset_memWf e h)
  | parameterLoad c => exact act_memWf hx (parameterLoad_memWf c h)
  | journalRecovery c => exact act_memWf hx (journalRecovery_memWf c h)
  | imageAcceptance e => exact act_memWf hx (imageAcceptance_memWf e h)
  | waymarkBoundary p e => exact act_memWf hx (boundary_memWf p e h)
  | bankSwitch => exact act_memWf hx (memWf_of_mems (bankSwitch_memWf h) (replanning_mems _ _))
  | autorun => exact act_memWf hx (memWf_of_mems (autorun_memWf h) (replanning_mems _ _))
  | registerWrite w a v => exact act_memWf hx (writeBy_memWf w a.toNat v h)
  | eraseComplete => exact act_memWf hx (storeEraseEnd_memWf h)
  | storeWriteComplete => exact act_memWf hx (storeWriteEnd_memWf h)
  | storeAbort words => exact act_memWf hx (storeAbort_memWf words h)
  | larderWriteComplete ok => exact act_memWf hx (landFront_memWf ok h)
  | seatRead r e => exact act_memWf hx (port_memWf (spi_memWf (seatRead_memWf .spi r e h)) h)
  | challenge r e => exact act_memWf hx (port_memWf (spi_memWf (seatChallenge_memWf .spi r e h)) h)
  | respond r e => exact act_memWf hx (port_memWf (spi_memWf (seatRespond_memWf .spi r e h)) h)
  | tunSend r e => exact act_memWf hx (port_memWf (tunCommand_memWf r (fun n _ hd => tunSend_memWf _ e n hd) h) h)
  | tunnel f e => exact act_memWf hx (rxTunnel_memWf f e h)
  | rhLRd t r half g ty e => exact act_memWf hx (rhLRd_memWf t r half g ty e h)
  -- Rhamet rows that read the code or the constants
  | rhCall t fn => exact lane_mems h hx (rhCall_mems t fn _)
  | rhLdc8u t => exact lane_mems h hx (rhConst_mems _ t 0 1)
  | rhLdc16u t => exact lane_mems h hx (rhConst_mems _ t 0 2)
  | rhLdc32 t ty => exact lane_mems h hx (rhConst_mems _ t 1 4)
  | csNEarlyRise => exact act_mems (f := id) h hx rfl
  -- Start-up and resets
  | resetN | resetWarm | resetCold | strapLatch | retry | tollAutoClear | bootRead | resetNRelease =>
    exact act_mems h hx (by simp [Dev.resetN, Dev.strapLatch, Dev.bootRead, Dev.resetRelease])
  -- Time
  | zcCrossing | zcTimeout | holdoverExpiry | xtalFail | xtalSwitchover | xtalStartTimeout | xtalComp |
    dieTempRefresh | netCheckpoint | beaconTimeout | timeMsLoRead | timeSiLoRead | siOfsWrite =>
    exact act_mems h hx (by simp [Dev.zcCrossing, Dev.zcTimeout, Dev.holdoverExpiry, Dev.xtalSwitchover,
      Dev.xtalStartTimeout, Dev.xtalComp, Dev.dieTempRefresh, Dev.msLoRead, Dev.siLoRead])
  -- Modes, pots and registers
  | runWarm | runCold | halt | potStop | potWarm | potCold | forceTableWrite | forceClearAll | guarAckRetire |
    laneXchg | pdReqWrite =>
    exact act_mems h hx (by simp [Dev.modeCommand])
  -- Lanes
  | selftest | laneStall | laneParity | laneExchange =>
    exact act_mems h hx (by simp [Dev.selftest, Dev.laneStall, Dev.laneParity])
  -- The Larder and the banks
  | erase | storeWrite | storeSeal | sealComplete | bankSwitchTo | switchVerified | txnBegin | txnWrite |
    txnCommit | provision | wearWriteback =>
    exact act_mems h hx (by simp)
  -- Mando
  | calibrationRotation | sliceStall | crossingAssert | crossingDeassert | scriptStart | scriptAbort | scriptEnd |
    scriptSample | scriptAverage | scriptWait | scriptRepeat | scriptMark | scriptFire | scriptGsample =>
    exact act_mems h hx (by simp [Dev.crossingDrop])
  -- Sense
  | senseSequence | diLevelChange | i2cWritePhase | i2cReadPhase | i2cTimeout =>
    exact act_mems h hx (by simp [Dev.senseSequence, Dev.diChange, Dev.i2cTimeout])
  -- The Line and the network
  | phyCfgApply | carrierDetect | bandInUse | preambleDetect | frameStart | frameSent | beacon | timeFrame |
    ackFrame | ackTimeout | mapAsk | mapOffer | mapRefresh | joinReq | joinAcc | joinRetry | courier |
    courierStale | convoy | probe | probeGo | probeTimeout | jclr | bandNotInUse =>
    exact act_mems h hx (by simp [Dev.carrier, Dev.bandLevel, Dev.joinRetry, Dev.probeTimeout])
  -- The seat
  | identify | take | release | seatWrite | close | seatReset | tunOpen | tunRecv | tunClose | seatIdleFree =>
    exact act_mems h hx (by simp)
  -- The bus
  | token | pollForMaster | replyToPollForMaster | testRequest | testResponse | bacnetDataExpectingReply |
    bacnetDataNotExpectingReply | replyPostponed | noTokenTimeout | txSlotSubmit | readProperty |
    readPropertyMultiple | writeProperty | whoIs | whoHas | subscribeCov | covLifetimeExpiry | unsupportedFrame |
    crcErr | tUsageTimeout =>
    exact act_mems h hx (by simp [Dev.busToken, Dev.busPoll, Dev.busPollReply, Dev.busTest, Dev.busReply,
      Dev.busDataReply, Dev.busData, Dev.busNoToken, Dev.readMulti, Dev.whoIs, Dev.covExpiry, Dev.busUnsupported,
      Dev.busCrcErr, Dev.busUsage])
  -- Whisk
  | decision | estimate | alignComplete | standstillTimeout | overcurrent | dcVoltage | drvFault | cmdLoss |
    cmdRegained | speedCommandEdge =>
    exact act_mems h hx (by simp [Dev.whiskDecision, Dev.whiskAlign, Dev.whiskStill, Dev.whiskOver, Dev.whiskVdc,
      Dev.whiskFault, Dev.whiskLoss, Dev.whiskRegain, Dev.whiskEdge])
  -- Fan
  | kickEnd | tachEdge | tachLost | fanCapture | shdnCompare | reversalPauseEnd | overtravelEnd | homingComplete =>
    exact act_mems h hx (by simp [Dev.kickEnd, Dev.tachEdge, Dev.tachLostEvent, Dev.shdnCompare, Dev.pauseEnd,
      Dev.overtravelEnd, Dev.homingComplete])
  -- Face
  | faceFrameStart | faceOperationComplete | stressFlush | fvPassStart | stencilEnd | stencilInk | stencilFill |
    stencilMask | stencilDigits | stencilArrow =>
    exact act_mems h hx (by simp [Dev.faceFrame, Dev.fvPassStart, Dev.stencilEnd, Dev.stencilInk,
      Dev.stencilFill, Dev.stencilMask, Dev.stencilDigits, Dev.stencilArrow])
  -- Rhamet
  | rhNop | rhPushI8 | rhPushI16 | rhPushI32 | rhPushU32 | rhPushQ | rhPushF | rhDrop | rhDup | rhSwap | rhOver |
    rhRot | rhPick | rhLdL | rhStL | rhTeeL | rhAddI | rhSubI | rhMulI | rhDivI | rhRemI | rhNegI | rhAbsI |
    rhAddsI | rhSubsI | rhMulsI | rhNegsI | rhAbssI | rhMinI | rhMaxI | rhAddU | rhSubU | rhMulU | rhDivU | rhRemU |
    rhAddsU | rhSubsU | rhMulsU | rhMinU | rhMaxU | rhAddQ | rhSubQ | rhMulQ | rhDivQ | rhNegQ | rhAbsQ | rhMinQ |
    rhMaxQ | rhAddF | rhSubF | rhMulF | rhDivF | rhNegF | rhAbsF | rhMinF | rhMaxF | rhSqrtF | rhFloorF | rhCeilF |
    rhRoundF | rhTruncF | rhCmpI | rhCmpU | rhCmpQ | rhCmpF | rhAnd | rhOr | rhXor | rhNot | rhShlI | rhShlU |
    rhShrI | rhShrU | rhRotl | rhRotr | rhClz | rhPopc | rhEqz | rhI2u | rhU2i | rhI2f | rhU2f | rhQ2f | rhF2i |
    rhF2u | rhF2q | rhI2q | rhU2q | rhQ2i | rhFBits | rhFFrom | rhQBits | rhQFrom | rhBr | rhBrz | rhBrnz | rhLoop |
    rhRet | rhSelect | rhLd8u | rhLd8s | rhLd16u | rhLd16s | rhLd32 | rhSt8 | rhSt16 | rhSt32 | rhIn | rhInst |
    rhOut | rhOutget | rhPrev | rhEdgeR | rhEdgeF | rhCapN | rhCapX | rhCapCp | rhTStart | rhTExp | rhTLeft |
    rhTime | rhRegRd | rhRegWr | rhSelf | rhHRd | rhHWr | rhHGen | rhLWr | rhLStat | rhSRun | rhSStop | rhSPar |
    rhSStat | rhFRect | rhFAbort | rhFSten | rhFStat =>
    exact lane_mems h hx (rhRaw_mems ..)

end Sys2Proof.Laws

namespace Sys2Proof.Proofs

open Sys2Proof.Machine Sys2Proof.Safety Sys2Proof.Laws

/-- Settles O9: the canonical form and the bytes after a write of bytes, read inside and outside what was written. -/
theorem writtenBytesRead : Obligations.WrittenBytesRead := by
  unfold Obligations.WrittenBytesRead
  intro u m a x bs h
  refine ⟨Mem.writeBytes_wf h a bs, ?_⟩
  rw [Mem.read_writeBytes h]
  by_cases hin : a ≤ x ∧ x < a + bs.length
  · obtain ⟨ha, hx⟩ := hin
    rw [if_pos ha, if_pos ⟨ha, hx⟩, List.getD_eq_getElem?_getD, List.getElem?_eq_getElem (by omega)]
    rfl
  · rw [if_neg hin]
    split
    next ha => rw [List.getElem?_eq_none (by omega)]
    next => rfl

/-- Settles O6: every row either leaves the memories as they were or writes them by operations that keep the canonical
form. -/
theorem memoriesStayCanonical : Obligations.MemoriesStayCanonical := by
  unfold Obligations.MemoriesStayCanonical
  intro s s' h hs
  unfold step at hs
  split at hs
  case h_1 =>
    cases hs
    exact h
  case h_2 c rest _ => exact exec_memWf (s := { s with pending := rest }) h hs

end Sys2Proof.Proofs

/-! ## A boundary whose larder reads make a reset due (R124, R270, R282) -/

namespace Sys2Proof.Laws

open Sys2Proof.Machine Sys2Proof.Safety

/-- What a command completes in, once its effect on the device is known. -/
theorem act_of_completes {i : Instr} {s : State} {f : Dev → Dev} {P : Dev → Prop} (hi : exec i s = s.act f)
    (h : Completes i s P) : P (Dev.settle s.dev (f s.dev).logFlush) := by
  obtain ⟨t, ht, -, hp⟩ := h
  rw [hi] at ht
  cases ht
  exact hp

/-! ### A reset that becomes due within the boundary (R124, R270, R282) -/

/-- The tollgate of a Hob that overran, in the last waymark of milestone 249. Group 0x0085 holds 0 as the period of the
automatic reset, which disables it. -/
def autoDisabled : State :=
  let d := Dev.reset
  { State.reset with dev := { d with
    time := { d.time with wm := 255, count := 249 }
    sys := { d.sys with mode := .tollgate, tollCause := 9, hobMs := some 0 }
    store := { d.store with home := [(0x85 * 8 + 2, 0)] } } }

/-- A boundary at which group 0x0085 shows a double-bit error and nothing else is found. -/
def periodLost : PatrolEnv :=
  { words := [], groups := [], reads := [(0x85, .double)], worn := [], fades := [], tops := [], die := 2500, cals := [],
    line := [] }

/-- A reset after which every larder write has landed. -/
def allLanded : ResetEnv := { landed := 0, worn := [], words := 0, die := 2500, at' := 0 }

theorem autoDisabled_notDue : autoDisabled.dev.tollAutoDue = false := by
  decide +kernel

/-- The lost group reads at its factory value, 250 milestones, which have passed. -/
theorem autoDisabled_due_of_periodLost : (autoDisabled.dev.larderReads periodLost.reads).tollAutoDue = true := by
  decide +kernel

/-- The boundary carries out the reset: the milestone that begins is number 0. -/
theorem autoDisabled_count : (autoDisabled.dev.boundary periodLost allLanded).time.count = 0 := by
  decide +kernel

end Sys2Proof.Laws

namespace Sys2Proof.Proofs

open Sys2Proof.Machine Sys2Proof.Safety Sys2Proof.Laws

/-- Refutes O20, in its second half: a boundary reads the larder before it judges whether the automatic reset of R282 is due.
Where that read loses group 0x0085, whose stored value disables the reset, the factory value stands for it (R270), by which
the reset is due, and the milestone that begins is 0 and not the next. -/
theorem not_boundariesCount : ¬ Obligations.BoundariesCount := by
  unfold Obligations.BoundariesCount
  intro h
  obtain ⟨-, hlast⟩ := h periodLost allLanded autoDisabled
  obtain ⟨-, hcount, -⟩ := act_of_completes (f := Dev.boundary periodLost allLanded) rfl
    (hlast rfl rfl autoDisabled_notDue rfl)
  rw [Dev.settle_time, logFlush_time, autoDisabled_count] at hcount
  exact absurd hcount (by decide)

end Sys2Proof.Proofs

/-! ## Mode commands, AUTORUN and pot commands (R122, R157, R160, R161) -/

namespace Sys2Proof.Machine

/-- What an entry to RUN settles: the mode, START, VOID of the Hob and OFS. -/
def Dev.runEntry (d : Dev) : Mode × BitVec 2 × Bool × BitVec 8 :=
  (d.sys.mode, d.sys.start, d.sys.voidHob, d.cycle.ofs)

end Sys2Proof.Machine

namespace Sys2Proof.Laws

open Sys2Proof.Machine Sys2Proof.Safety

/-! ### Mode commands (R157, Table 5.7) -/

/-- Whether a mode takes a mode command (Table 5.7). -/
def modeTakes : Mode → ModeCmd → Bool
  | .tollgate, _ => false
  | .ready, _ => true
  | .run, c => c == .halt
  | .halt, c => c != .halt

theorem modeTakes_runWarm (m : Mode) : modeTakes m .runWarm = (m == .ready || m == .halt) := by
  cases m <;> rfl

theorem modeTakes_runCold (m : Mode) : modeTakes m .runCold = (m == .ready || m == .halt) := by
  cases m <;> rfl

theorem modeTakes_halt (m : Mode) : modeTakes m .halt = (m == .ready || m == .run) := by
  cases m <;> rfl

theorem modeCommand_answer (c : ModeCmd) (d : Dev) :
    d.modeCommand c = { d with sys := modeAnswer d.sys c (modeTakes d.sys.mode c) } := by
  unfold Dev.modeCommand
  generalize d.sys.mode = m
  cases m <;> cases c <;> rfl

/-- An answer to a mode command changes neither the mode nor a guarantee. -/
theorem becomes_modeCommand {i : Instr} {s : State} {c : ModeCmd} {ok : Bool}
    (hi : exec i s = s.act (Dev.modeCommand c)) (hl : Logged s.dev) (hok : modeTakes s.dev.sys.mode c = ok) :
    Becomes i s { s.dev with sys := modeAnswer s.dev.sys c ok } := by
  refine becomes_of_calm hi (hok ▸ modeCommand_answer c s.dev) hl ?_ ?_ ?_ <;> cases ok <;> rfl

/-! ### AUTORUN (R157, R158, Table 5.8) -/

theorem foldl_runEntry {α : Type} {f : Dev → α → Dev} (hf : ∀ d a, (f d a).runEntry = d.runEntry) (l : List α)
    (d : Dev) : (l.foldl f d).runEntry = d.runEntry := by
  induction l generalizing d with
  | nil => rfl
  | cons a l ih => exact (ih _).trans (hf d a)

theorem onTask_runEntry (d : Dev) (t : Nat) (f : TaskState → TaskState) :
    (d.onTask t f).runEntry = d.runEntry := rfl

theorem putWorktop_runEntry (d : Dev) (a : Nat) (b : List Byte) :
    (d.putWorktop a b).runEntry = d.runEntry := rfl

theorem slotsStart_runEntry (d : Dev) (p : Nat) : (d.slotsStart p).runEntry = d.runEntry := by
  unfold Dev.slotsStart
  refine foldl_runEntry (fun d n => ?_) _ d
  extract_lets d1
  have h1 : d1.runEntry = d.runEntry := rfl
  split
  · exact (putWorktop_runEntry d1 _ _).trans h1
  · exact h1

theorem facePotStart_runEntry (d : Dev) (p : Nat) : (d.facePotStart p).runEntry = d.runEntry := by
  unfold Dev.facePotStart
  split <;> rfl

theorem remoteStart_runEntry (d : Dev) (p : Nat) : (d.remoteStart p).runEntry = d.runEntry := by
  unfold Dev.remoteStart
  refine foldl_runEntry (fun d g => ?_) _ d
  split
  · rfl
  · exact foldl_runEntry (fun d e => by split <;> rfl) _ d

theorem potStart_runEntry (d : Dev) (p : Nat) (warm same host : Bool) :
    (d.potStart p warm same host).runEntry = d.runEntry := by
  unfold Dev.potStart
  extract_lets w lo hi r pass mem d1 d2 restarted d3 d4 fresh d5
  have h3 : d3.runEntry = d2.runEntry := foldl_runEntry (fun d t => onTask_runEntry d t _) _ _
  have h4 : d4.runEntry = d3.runEntry := by
    dsimp only [d4]
    split <;> rfl
  calc ((d5.slotsStart p |>.facePotStart p).remoteStart p).runEntry
      = d5.runEntry := by rw [remoteStart_runEntry, facePotStart_runEntry, slotsStart_runEntry]
    _ = d4.runEntry := rfl
    _ = d.runEntry := by rw [h4, h3]; rfl

theorem busSay_runEntry (d : Dev) (mac : Nat) (m : BacMsg) : (d.busSay mac m).runEntry = d.runEntry := by
  unfold Dev.busSay
  split <;> rfl

theorem busStart_runEntry (d : Dev) : d.busStart.runEntry = d.runEntry := by
  unfold Dev.busStart
  split
  · exact busSay_runEntry _ _ _
  · rfl

theorem enterRun_runEntry (d : Dev) (warm : Bool) : (d.enterRun warm).runEntry =
    (.run, if warm then 2 else 1, false, if d.time.netValid then d.time.netOfs.setWidth 8 else 0) := by
  unfold Dev.enterRun
  extract_lets d1 d2
  rw [busStart_runEntry, foldl_runEntry (fun d p => potStart_runEntry d p warm true true)]
  rfl

/-- The plan made anew at the instant of a boundary changes the time alone. -/
theorem replanning_runEntry (f : Dev → Dev) (d : Dev) : (d.replanning f).runEntry = (f d).runEntry := by
  unfold Dev.replanning
  extract_lets d1
  split <;> rfl

theorem autorun_of_due {d : Dev} (hm : d.sys.mode = .ready) (ha : d.image.autorun = true) (hp : d.sys.modePend = none)
    (hw : d.time.wm = 0) (hv : d.time.netValid = true) (hu : d.onUsable = true) (hr : d.sys.readyMs < d.ms) :
    d.autorun = d.enterRun (d.sys.lastKind == .warm) := by
  have hnet : d.waitsNet = false := by simp [Dev.waitsNet, hv]
  simp [Dev.autorun, hm, ha, hp, hw, hnet, hu, Nat.not_le.mpr hr]

/-! ### Pot commands (R160, R161) -/

theorem potCommand_answer (d : Dev) (p : Fin 16) (a : PotAction) (host : Bool) :
    d.potCommand p.val a host = { d with cycle := potAnswer d p a host } := by
  have hpot : d.pot p.val = d.cycle.pots[p] := vgetD_fin _ p _
  have hcond : (decide (p.val = 0) || !d.image.declared p.val) = true ↔ p = 0 ∨ d.image.declared p.val = false := by
    simp [Fin.val_eq_zero_iff]
  unfold Dev.potCommand potAnswer
  by_cases hnone : p = 0 ∨ d.image.declared p.val = false
  · rw [if_pos hnone, if_pos (hcond.mpr hnone)]
    rfl
  rw [if_neg hnone, if_neg (mt hcond.mp hnone)]
  by_cases hrun : d.sys.mode ≠ .run
  · rw [if_pos hrun, if_pos hrun]
    rfl
  rw [if_neg hrun, if_neg hrun]
  extract_lets d1 old
  have hold : old = d.cycle.pots[p] := hpot
  by_cases hstands : host = false ∧ (d.cycle.pots[p]).pend.isSome ∧ (d.cycle.pots[p]).pendByHost
  · rw [if_pos hstands, if_pos (by simpa [hold, and_assoc] using hstands)]
    rfl
  · rw [if_neg hstands, if_neg (by simpa [hold, and_assoc] using hstands)]
    rw [Dev.onPot, Dev.onCycle, vupdN_fin]
    rfl

theorem becomes_potCommand {i : Instr} {s : State} {p : Fin 16} {a : PotAction} {host : Bool}
    (hi : exec i s = s.act (Dev.potCommand p.val a host)) (hl : Logged s.dev) :
    Becomes i s { s.dev with cycle := potAnswer s.dev p a host } :=
  becomes_of_quiet hi (potCommand_answer s.dev p a host) hl rfl

end Sys2Proof.Laws

namespace Sys2Proof.Proofs

open Sys2Proof.Machine Sys2Proof.Safety Sys2Proof.Laws

/-- Settles O21. A command that is judged changes its own answer alone; an entry to RUN by AUTORUN settles the mode, START, VOID
of the Hob and OFS before the pots start, and no pot that starts touches them. -/
theorem modeAndPotCommandsJudged : Obligations.ModeAndPotCommandsJudged := by
  unfold Obligations.ModeAndPotCommandsJudged
  refine ⟨fun s hl => ?mode, fun s hm ha hp hw hv hu hr => ?autorun, fun p host s hl => ?pot⟩
  case mode =>
    exact ⟨becomes_modeCommand rfl hl (modeTakes_runWarm _), becomes_modeCommand rfl hl (modeTakes_runCold _),
      becomes_modeCommand rfl hl (modeTakes_halt _)⟩
  case autorun =>
    refine completes_of_act rfl ?_
    have hentry : (s.dev.replanning Dev.autorun).runEntry =
        (.run, if s.dev.sys.lastKind = .warm then 2 else 1, false, s.dev.time.netOfs.setWidth 8) := by
      rw [replanning_runEntry, autorun_of_due hm ha hp hw hv hu hr, enterRun_runEntry, hv]
      simp
    simp only [Dev.runEntry, Prod.mk.injEq] at hentry
    exact hentry
  case pot =>
    exact ⟨becomes_potCommand rfl hl, becomes_potCommand rfl hl, becomes_potCommand rfl hl⟩

end Sys2Proof.Proofs

/-! ## Writes of the force table and of registers (R148, R153, R154, R545) -/

namespace Sys2Proof.Laws

open Sys2Proof.Machine Sys2Proof.Safety

/-! ### Fields of a word -/

theorem ofNat_bitsOf (v : Word) {hi lo n : Nat} (h : hi + 1 - lo = n) :
    BitVec.ofNat n (bitsOf v.toNat hi lo) = v.extractLsb' lo n := by
  apply BitVec.eq_of_toNat_eq
  simp [bitsOf, h]

theorem ofNat_toNat_div_two (v : Word) : BitVec.ofNat 4 (v.toNat / 2) = v.extractLsb' 1 4 := by
  apply BitVec.eq_of_toNat_eq
  simp [Nat.shiftRight_eq_div_pow]

theorem vupdN_eq_set {α : Type} {n : Nat} (v : Vector α n) (i : Fin n) (f : α → α) :
    vupdN v i.val f = v.set i.val (f v[i]) := by
  simp [vupdN]

theorem vmap_get {α β : Type} {n : Nat} (f : α → β) (v : Vector α n) (i : Fin n) : (vmap f v)[i] = f v[i] := by
  simp [vmap]

/-! ### The force table (R148, R153, R154) -/

theorem forceWrite_value {d : Dev} (i : Fin 256) (v : Word) (hm : d.sys.mode ≠ .tollgate) :
    d.forceWrite i true v = { d with cycle := { d.cycle with
      force := d.cycle.force.set i { d.cycle.force[i] with value := v } } } := by
  unfold Dev.forceWrite
  rw [if_neg hm, if_pos rfl, Dev.forceValue, Dev.onCycle, vupdN_eq_set]

theorem forceWrite_sel {d : Dev} (i : Fin 256) (v : Word) (hm : d.sys.mode ≠ .tollgate) :
    d.forceWrite i false v = { d with cycle := { d.cycle with
      force := d.cycle.force.set i { d.cycle.force[i] with
        channel := v.extractLsb' 0 10, elem := v.extractLsb' 10 6, output := v.getLsbD 16, en := v.getLsbD 17 } } } := by
  unfold Dev.forceWrite
  rw [if_neg hm, if_neg Bool.false_ne_true, Dev.forceSel, Dev.onCycle, vupdN_eq_set,
    ofNat_bitsOf v (rfl : 9 + 1 - 0 = 10), ofNat_bitsOf v (rfl : 15 + 1 - 10 = 6)]
  rfl

theorem forceClear_force {d : Dev} (hm : d.sys.mode ≠ .tollgate) (i : Fin 256) :
    d.forceClear.cycle.force[i] = { d.cycle.force[i] with en := false } := by
  unfold Dev.forceClear
  rw [if_neg hm]
  exact vmap_get _ _ i

/-! ### Register writes (R107, R424, R545, Table 18.16) -/

theorem writeBy_host_arg0 (d : Dev) (v : Word) :
    d.writeBy .host 0x40004 v = { d with store := { d.store with arg0 := v } } := rfl

theorem writeBy_host_arg1 (d : Dev) (v : Word) :
    d.writeBy .host 0x40008 v = { d with store := { d.store with arg1 := v } } := rfl

theorem writeBy_host_attnEn (d : Dev) (v : Word) :
    d.writeBy .host 0x8000C v = { d with seat := { d.seat with attnEn := v.extractLsb' 1 4 } } := by
  rw [← ofNat_toNat_div_two]
  rfl

/-- A host without a session writes no register while no provisioning is allowed. -/
theorem writeBy_guest_denied {d : Dev} (a : Nat) (v : Word) (h : d.sys.provEn = false) :
    d.writeBy .guest a v = { d with lane := { d.lane with hostDenied := satInc d.lane.hostDenied } } := by
  simp [Dev.writeBy, h]

/-- BUS.ATTN_EN belongs to no pot and has a field that pots do not see. -/
theorem potWrite_attnEn (d : Dev) (p : Nat) (v : Word) : d.potWrite p 0x8000C v = d.deny p := by
  have hhidden : d.hiddenReg p 0x8000C = true := rfl
  simp [Dev.potWrite, hhidden]

theorem writeBy_pot_attnEn (d : Dev) {p : Fin 16} (v : Word) (h : p ≠ 0) :
    d.writeBy (.pot p) 0x8000C v = d.deny p.val := by
  have hp : p.val ≠ 0 := fun h0 => h (Fin.ext h0)
  simp only [Dev.writeBy, Dev.taskWrite, if_neg hp, potWrite_attnEn]

theorem deny_denied (d : Dev) (p : Fin 16) :
    ((d.deny p.val).cycle.pots[p]).denied = satInc (d.cycle.pots[p]).denied :=
  congrArg PotState.denied (vupdN_fin_get d.cycle.pots p _)

@[simp] theorem settle_attnEn (b d : Dev) : (Dev.settle b d).seat.attnEn = d.seat.attnEn := rfl

end Sys2Proof.Laws

namespace Sys2Proof.Proofs

open Sys2Proof.Machine Sys2Proof.Safety Sys2Proof.Laws

/-- Settles O22. Each write is one branch of its register's view: the force table outside TOLLGATE (R153), a privileged host's
register, a host's without a session and a pot's, which neither may write. -/
theorem registerAndForceWrites : Obligations.RegisterAndForceWrites := by
  unfold Obligations.RegisterAndForceWrites
  constructor
  case left =>
    intro s hl hm
    refine ⟨fun i v => ⟨?value, ?sel⟩, completes_of_act rfl fun i => forceClear_force hm i⟩
    case value => exact becomes_of_quiet rfl (forceWrite_value i v hm) hl rfl
    case sel => exact becomes_of_quiet rfl (forceWrite_sel i v hm) hl rfl
  case right =>
    intro v s hl
    refine ⟨?arg0, ?arg1, ?attnEn, fun hp => ?guest, fun p hp => ?pot⟩
    case arg0 => exact becomes_of_quiet rfl (writeBy_host_arg0 s.dev v) hl rfl
    case arg1 => exact becomes_of_quiet rfl (writeBy_host_arg1 s.dev v) hl rfl
    case attnEn => exact becomes_of_quiet rfl (writeBy_host_attnEn s.dev v) hl rfl
    case guest => exact becomes_of_quiet rfl (writeBy_guest_denied 0x8000C v hp) hl rfl
    case pot =>
      exact completes_of_act rfl (writeBy_pot_attnEn s.dev v hp ▸ ⟨rfl, deny_denied s.dev p⟩)

end Sys2Proof.Proofs

/-! ## Crossings, digital inputs and their captures (R300, R304, R332) -/

namespace Sys2Proof.Laws

open Sys2Proof.Machine Sys2Proof.Safety

/-! ### A capture entry (R131 to R133) -/

theorem mapFind_mapPut {κ α : Type} [DecidableEq κ] (m : List (κ × α)) (k : κ) (v : α) :
    mapFind (mapPut m k v) k = some v := by
  simp [mapFind, mapPut]

theorem vmapi_get {α β : Type} {n : Nat} (f : Nat → α → β) (v : Vector α n) (i : Fin n) :
    (vmapi f v)[i] = f i.val v[i] := by
  simp [vmapi]

/-- A capture entry is that of the tasks that name its stream, whatever else the command changed of the device but the
image and the tasks. -/
theorem capture_captured {old d e : Dev} (stream stamp : Nat) (rise : Bool) (hi : d.image = old.image)
    (ht : d.cycle.tasks = old.cycle.tasks) (he : e.cycle.tasks = (d.capture stream stamp rise).cycle.tasks) :
    Captured old e stream stamp rise := by
  intro t
  rw [he]
  unfold Dev.capture
  dsimp only
  rw [vmapi_get, hi, ht]
  by_cases hs : (old.image.taskNames t).streams.contains stream = true
  · rw [if_pos hs, if_pos hs]
    exact mapFind_mapPut _ _ _
  · rw [if_neg hs, if_neg hs]

/-! ### Crossings (R300, R304) -/

theorem meets_of_assertsAt {x : Crossing} {level : Nat} (h : AssertsAt x level) : x.meets level = true := by
  unfold AssertsAt at h
  unfold Crossing.meets Crossing.threshold
  split at h <;> simp_all

theorem returns_of_deassertsAt {x : Crossing} {level : Nat} (h : DeassertsAt x level) : x.returns level = true := by
  unfold DeassertsAt at h
  unfold Crossing.returns Crossing.threshold Crossing.hysteresis
  dsimp only at h
  split at h <;> simp_all

/-- The crossings and the tasks, with their capture entries, are the same. -/
def SameCaptures (d e : Dev) : Prop := e.mando.cx = d.mando.cx ∧ e.cycle.tasks = d.cycle.tasks

theorem SameCaptures.refl (d : Dev) : SameCaptures d d := ⟨rfl, rfl⟩

theorem SameCaptures.trans {a b c : Dev} (h : SameCaptures a b) (k : SameCaptures b c) : SameCaptures a c :=
  ⟨k.1.trans h.1, k.2.trans h.2⟩

theorem foldl_sameCaptures {α : Type} {f : Dev → α → Dev} (hf : ∀ d a, SameCaptures d (f d a)) (l : List α) (d : Dev) :
    SameCaptures d (l.foldl f d) := by
  induction l generalizing d with
  | nil => exact SameCaptures.refl d
  | cons a l ih => exact (hf d a).trans (ih _)

theorem onSlot_sameCaptures (d : Dev) (n : Nat) (f : Slot → Slot) : SameCaptures d (d.onSlot n f) := ⟨rfl, rfl⟩

theorem trigger_sameCaptures (d : Dev) (g at' : Nat) : SameCaptures d (d.trigger g at') := by
  unfold Dev.trigger
  extract_lets x waiting d1
  split
  · exact SameCaptures.refl d
  split
  · exact ⟨rfl, rfl⟩
  · have h1 : SameCaptures d d1 := foldl_sameCaptures (fun d n => onSlot_sameCaptures d n _) _ d
    exact h1.trans ⟨rfl, rfl⟩

theorem tripUnit_sameCaptures (d : Dev) (u cause cx : Nat) : SameCaptures d (d.tripUnit u cause cx) := by
  unfold Dev.tripUnit
  split
  · exact ⟨rfl, rfl⟩
  · exact SameCaptures.refl d

/-- What a crossing that asserts starts and triggers touches neither a crossing nor a capture. -/
theorem cxAssert_sameCaptures (d : Dev) (i stamp : Nat) :
    SameCaptures ((d.onCx i fun x => { x with state := true, asserts := satInc x.asserts }).capture (0x010 + i)
      (stamp / 1000) true) (d.cxAssert i stamp) := by
  unfold Dev.cxAssert
  extract_lets d1 d2
  have h2 : SameCaptures d1 d2 := foldl_sameCaptures (fun d n => by
    split
    · split
      · exact onSlot_sameCaptures d n _
      · exact SameCaptures.refl d
    · exact SameCaptures.refl d) _ d1
  refine h2.trans (foldl_sameCaptures (fun d g => ?_) _ d2)
  dsimp only
  split
  · exact trigger_sameCaptures d g _
  · exact SameCaptures.refl d

theorem crossingAssert_sameCaptures {d : Dev} {i : Fin 16} {stamp level : Nat} (ha : d.cxArmed i.val = true)
    (hm : AssertsAt d.mando.cx[i] level) :
    SameCaptures ((d.onCx i.val fun x => { x with state := true, asserts := satInc x.asserts }).capture (0x010 + i.val)
      (stamp / 1000) true) (d.crossingAssert i stamp level) := by
  have hmeets : (d.cxOf i.val).meets level = true := by
    rw [Dev.cxOf, vgetD_fin]
    exact meets_of_assertsAt hm
  have hgo : (d.cxArmed i.val && (d.cxOf i.val).meets level) = true := by rw [ha, hmeets]; rfl
  unfold Dev.crossingAssert
  rw [if_pos hgo]
  extract_lets d1 d2
  have h2 : SameCaptures d1 d2 := by
    dsimp only [d2]
    split
    · exact tripUnit_sameCaptures d1 0 1 i.val
    · exact SameCaptures.refl d1
  refine (cxAssert_sameCaptures d i.val stamp).trans (h2.trans ?_)
  split
  · exact tripUnit_sameCaptures d2 1 1 i.val
  · exact SameCaptures.refl d2

theorem crossingDrop_of_asserted {d : Dev} {i : Fin 16} {stamp level : Nat} (hs : (d.mando.cx[i]).state = true)
    (hr : DeassertsAt d.mando.cx[i] level) : d.crossingDrop i stamp level =
      (d.onCx i.val fun x => { x with state := false }).capture (0x010 + i.val) (stamp / 1000) false := by
  have hcx : d.cxOf i.val = d.mando.cx[i] := vgetD_fin _ i _
  unfold Dev.crossingDrop Dev.cxDrop
  rw [hcx, returns_of_deassertsAt hr, hs, if_pos rfl, if_pos rfl]

/-! ### Digital inputs (R332) -/

/-- A new level that has stood for FILTER's count of samples is shown and captured with INV. -/
theorem diChange_of_run {d : Dev} {i : Fin 8} {level : Bool} {stamp run : Nat}
    (hr : 4 ^ (d.sense.di[i]).filter.toNat ≤ run) (hl : (d.sense.di[i]).level ≠ level) :
    d.diChange i level stamp run =
      ((d.onSense fun s => { s with di := s.di.set i { d.sense.di[i] with level := level } }).setInput i.val 0
        (cellOf (level ^^ (d.sense.di[i]).inv))).capture i.val stamp (level ^^ (d.sense.di[i]).inv) := by
  unfold Dev.diChange
  extract_lets x y
  have hrun : ¬run < filterCount x.filter := Nat.not_lt.mpr hr
  have hnew : x.level ≠ level := hl
  rw [if_neg (by simp [hrun, hnew])]
  rfl

end Sys2Proof.Laws

namespace Sys2Proof.Proofs

open Sys2Proof.Machine Sys2Proof.Safety Sys2Proof.Laws

/-- Settles O42. What an assertion starts, triggers and trips beside its capture touches neither a crossing nor a capture; a
deassertion and the change of a digital input are one change and one capture entry. -/
theorem crossingsAndInputsCaptured : Obligations.CrossingsAndInputsCaptured := by
  unfold Obligations.CrossingsAndInputsCaptured
  intro s stamp
  refine ⟨fun i level ha hm => ?assert, fun i level hs hr => ?deassert, fun i level run hr hl => ?input⟩
  case assert =>
    obtain ⟨hcx, htasks⟩ := crossingAssert_sameCaptures (stamp := stamp) ha hm
    refine completes_of_act rfl ⟨?_, capture_captured _ _ _ rfl rfl htasks⟩
    rw [Dev.settle_mando, logFlush_mando, hcx]
    exact vupdN_fin_get _ i _
  case deassert =>
    have hdrop := crossingDrop_of_asserted (stamp := stamp) hs hr
    refine completes_of_act rfl ⟨?_, capture_captured _ _ _ rfl rfl (congrArg (·.cycle.tasks) hdrop)⟩
    rw [Dev.settle_mando, logFlush_mando, hdrop]
    exact congrArg (fun v => { s.dev.mando with cx := v }) (vupdN_fin _ i _)
  case input =>
    have hchange := diChange_of_run (stamp := stamp) hr hl
    refine completes_of_act rfl ⟨?_, ?_, capture_captured _ _ _ rfl rfl (congrArg (·.cycle.tasks) hchange)⟩
    · rw [Dev.settle_sense, logFlush_sense, hchange]
      rfl
    · rw [Dev.settle_cycle, logFlush_cycle, hchange]
      exact mapFind_mapPut _ _ _

end Sys2Proof.Proofs

/-! ## Constants, stack and locals of Rhamet (R170, R202, Table 7.3) -/

namespace Sys2Proof.Laws

open Sys2Proof.Machine Sys2Proof.Safety

variable {s : State} {t : Fin 64} {imm cost need : Nat} {w : Window} {fr : Frame} {rest : List Frame}

/-- An instruction that changes its top frame, by the window and the frame that it makes of those it finds. -/
theorem rh_gives {f : Window → Frame → Window × Frame} {r : Window × Frame} (h : Runs s t imm w fr rest)
    (hn : need ≤ fr.stack.length) (hf : f { w with units := w.units + cost } { fr with pc := fr.pc + 1 + imm } = r)
    (hu : r.1.units = w.units + cost) :
    s.lane (fun d => d.rh t imm cost need f) = .next (withWindow s t { r.1 with frames := r.2 :: rest }) := by
  subst hf
  exact rh_runs h hn f hu

/-! ### Rows by the shared operation that they are -/

theorem pushes_of_rhPush {instr : Fin 64 → Instr} {v : Word}
    (hi : ∀ t s, exec (instr t) s = s.lane (fun d => d.rhPush t imm cost fun _ _ => v)) :
    Pushes instr imm cost (fun _ _ _ => v) :=
  fun _ _ _ _ _ h => (hi _ _).trans (rhPush_runs h _)

theorem rearranges_of_rhStack {instr : Fin 64 → Instr} {f : List Word → List Word} {have' want : List Word}
    (hi : ∀ t s, exec (instr t) s = s.lane (fun d => d.rhStack t 0 cost have'.length f))
    (hf : ∀ st, f (have' ++ st) = want ++ st) : Rearranges instr cost have' want := by
  intro s t w fr rest st h hs
  have hn : have'.length ≤ fr.stack.length := by simp [hs]
  rw [hi, rhStack_runs h hn, hs, hf]

/-! ### Rows that reach below the top or into a local -/

theorem rhNop_runs (h : Runs s t 0 w fr rest) :
    exec (.rhNop t) s = .next (withWindow s t (stepped w fr rest 0 1 fr.stack)) :=
  rh_runs h (Nat.zero_le _) (fun w fr => (w, fr)) rfl

theorem rhPick_runs {k : BitVec 8} {v : Word} (h : Runs s t 1 w fr rest) (hv : fr.stack[k.toNat]? = some v) :
    exec (.rhPick t k) s = .next (withWindow s t (stepped w fr rest 1 2 (v :: fr.stack))) := by
  obtain ⟨hlt, -⟩ := List.getElem?_eq_some_iff.mp hv
  have hget : fr.stack.getD k.toNat 0 = v := by simp [hv]
  rw [← hget]
  exact rhStack_runs h hlt (fun st => st.getD k.toNat 0 :: st)

theorem rhLdL_runs {i : BitVec 8} {v : Word} (h : Runs s t 1 w fr rest) (hv : fr.locals[i.toNat]? = some v) :
    exec (.rhLdL t i) s = .next (withWindow s t (stepped w fr rest 1 1 (v :: fr.stack))) := by
  have hget : fr.locals.getD i.toNat 0 = v := by simp [hv]
  rw [← hget]
  exact rhPush_runs h (fun _ fr => fr.locals.getD i.toNat 0)

theorem rhStL_runs {i : BitVec 8} {v : Word} {st : List Word} (h : Runs s t 1 w fr rest) (hs : fr.stack = v :: st) :
    exec (.rhStL t i) s =
      .next (withWindow s t (stepped w { fr with locals := fr.locals.set i.toNat v } rest 1 1 st)) :=
  rh_gives h (by simp [hs])
    (r := ({ w with units := w.units + 1 }, { fr with pc := fr.pc + 1 + 1, stack := st, locals := fr.locals.set i.toNat v }))
    (by simp only [hs]) rfl

theorem rhTeeL_runs {i : BitVec 8} {v : Word} {st : List Word} (h : Runs s t 1 w fr rest) (hs : fr.stack = v :: st) :
    exec (.rhTeeL t i) s =
      .next (withWindow s t (stepped w { fr with locals := fr.locals.set i.toNat v } rest 1 1 (v :: st))) :=
  rh_gives h (by simp [hs])
    (r := ({ w with units := w.units + 1 }, { fr with pc := fr.pc + 1 + 1, stack := v :: st, locals := fr.locals.set i.toNat v }))
    (by simp only [hs]) rfl

end Sys2Proof.Laws

namespace Sys2Proof.Proofs

open Sys2Proof.Machine Sys2Proof.Safety Sys2Proof.Laws

/-- Settles O24. Each row is one shared operation on the window: a push, a rearrangement of the cells it names, or one local. -/
theorem stackAndLocals : Obligations.StackAndLocals := by
  unfold Obligations.StackAndLocals
  refine ⟨⟨fun s t w fr rest h => rhNop_runs h, ?i8, ?i16, ?i32, ?u32, ?q, ?f⟩,
    ⟨?drop, ?dup, ?swap, ?copySecond, ?rot, fun k s t w fr rest v h hv => rhPick_runs h hv, ?select⟩,
    fun i s t w fr rest v h hv => rhLdL_runs h hv,
    fun i s t w fr rest v st h hs _ => ⟨rhStL_runs h hs, rhTeeL_runs h hs⟩⟩
  case i8 | i16 | i32 | u32 | q | f => exact fun v => pushes_of_rhPush fun _ _ => rfl
  case drop => exact fun a => rearranges_of_rhStack (f := List.drop 1) (fun _ _ => rfl) fun _ => rfl
  case dup => exact fun a => rearranges_of_rhStack (fun _ _ => rfl) fun _ => rfl
  case swap | copySecond => exact fun a b => rearranges_of_rhStack (fun _ _ => rfl) fun _ => rfl
  case rot => exact fun a b c => rearranges_of_rhStack (fun _ _ => rfl) fun _ => rfl
  case select => exact fun a b c => rearranges_of_rhStack (fun _ _ => rfl) fun _ => by simp

end Sys2Proof.Proofs

/-! ## Integer and logic results of Rhamet (R173, R203, R205, Tables 7.4 and 7.6) -/

namespace Sys2Proof.Laws

open Sys2Proof.Machine Sys2Proof.Safety

/-! ### Rows by the operation on their operands -/

theorem binary_of_rhBin {instr : Fin 64 → Instr} {imm cost : Nat} {f g : Word → Word → Word × Bool}
    (hi : ∀ t s, exec (instr t) s = s.lane (fun d => d.rhBin t imm cost f)) (hf : ∀ a b, f a b = g a b) :
    Binary instr imm cost g := by
  obtain rfl : f = g := funext₂ hf
  exact fun s t w fr rest a b st h hs => (hi t s).trans (rhBin_runs h hs f)

theorem unary_of_rhUn {instr : Fin 64 → Instr} {cost : Nat} {f g : Word → Word × Bool}
    (hi : ∀ t s, exec (instr t) s = s.lane (fun d => d.rhUn t cost f)) (hf : ∀ a, f a = g a) :
    Unary instr cost g := by
  obtain rfl : f = g := funext hf
  exact fun s t w fr rest a st h hs => (hi t s).trans (rhUn_runs h hs f)

/-! ### Integers (Table 7.4) -/

theorem divU_eq (a b : Word) : divU a b = unlessZero b (sure (a / b)) := by
  unfold divU unlessZero
  split
  · rfl
  · exact congrArg sure BitVec.udiv_def.symm

theorem remU_eq (a b : Word) : remU a b = unlessZero b (sure (a % b)) := by
  unfold remU unlessZero
  split
  · rfl
  · exact congrArg sure BitVec.umod_def.symm

theorem absW_eq (a : Word) : absW a = if a.toInt < 0 then -a else a := by
  simp [absW, BitVec.msb_eq_toInt]

theorem natAbs_eq_ite (x : Int) : (x.natAbs : Int) = if x < 0 then -x else x := by
  split <;> omega

/-! ### Comparisons (Table 7.6) -/

theorem sure_cellOf {b c : Bool} (h : b = c) : res (cellOf b) = sure (truth (c = true)) := by
  subst h
  rfl

theorem cellOf_beq (a b : Word) : cellOf (a == b) = truth (a = b) := by
  simp [cellOf, truth]

theorem condInt_eq_condHolds (c : Cond) (x y : Int) : condInt c x y = condHolds c x y := by
  cases c <;> rfl

/-- The fraction bits of an f32 value are 0. -/
theorem fraction_eq_zero (a : Word) : bitsOf a.toNat 22 0 = 0 ↔ a &&& 0x007FFFFF#32 = 0#32 := by
  have hmask : a.toNat &&& 0x007FFFFF = a.toNat % 2 ^ 23 := Nat.and_two_pow_sub_one_eq_mod a.toNat 23
  rw [← BitVec.toNat_inj, BitVec.toNat_and]
  simp [bitsOf, hmask]

/-- The exponent bits of an f32 value are all 1. -/
theorem exponent_eq_ones (a : Word) : bitsOf a.toNat 30 23 = 255 ↔ a &&& 0x7F800000#32 = 0x7F800000#32 := by
  have hmask : a.toNat &&& 0x7F800000 = (a.toNat >>> 23 % 2 ^ 8) <<< 23 := by
    refine Nat.eq_of_testBit_eq fun i => ?_
    have hbits : Nat.testBit 0x7F800000 i = (decide (23 ≤ i) && decide (i - 23 < 8)) := by
      rw [show 0x7F800000 = (2 ^ 8 - 1) <<< 23 from rfl, Nat.testBit_shiftLeft, Nat.testBit_two_pow_sub_one]
    rw [Nat.testBit_and, hbits, Nat.testBit_shiftLeft, Nat.testBit_mod_two_pow, Nat.testBit_shiftRight]
    by_cases hi : 23 ≤ i
    · simp [hi, Bool.and_comm]
    · simp [hi]
  rw [← BitVec.toNat_inj, BitVec.toNat_and]
  simp only [bitsOf, BitVec.toNat_ofNat, Nat.reduceMod, Nat.reducePow, Nat.reduceAdd, Nat.reduceSub] at hmask ⊢
  rw [hmask, Nat.shiftLeft_eq]
  omega

/-- The model's NaN is the one of Table 0.6: every exponent bit 1 and a fraction other than 0. -/
theorem fOf_eq_nan_iff (a : Word) : fOf a = .nan ↔ isNaN a = true := by
  have hnan : isNaN a = true ↔ bitsOf a.toNat 30 23 = 255 ∧ bitsOf a.toNat 22 0 ≠ 0 := by
    rw [Ne, exponent_eq_ones, fraction_eq_zero]
    simp [isNaN]
  rw [hnan]
  unfold fOf
  dsimp only
  split
  · split <;> simp_all
  · split <;> simp_all

theorem condF_eq_condHoldsF (c : Cond) (a b : Word) : condF c a b = condHoldsF c a b := by
  unfold condF condHoldsF
  split
  next h =>
    rw [(fOf_eq_nan_iff a).mp h]
    cases c <;> rfl
  next h _ =>
    rw [(fOf_eq_nan_iff b).mp h, Bool.or_true]
    cases c <;> rfl
  next ha hb =>
    have ha' : isNaN a = false := by simpa [fOf_eq_nan_iff] using ha
    have hb' : isNaN b = false := by simpa [fOf_eq_nan_iff] using hb
    rw [ha', hb', condInt_eq_condHolds]
    rfl

/-! ### Bits (Table 7.6) -/

theorem rotateLeft_eq (a n : Word) :
    a.rotateLeft (shiftCount n) = (a <<< (n.toNat % 32)) ||| (a >>> (32 - n.toNat % 32)) := by
  simp [shiftCount, BitVec.rotateLeft, BitVec.rotateLeftAux]

theorem rotateRight_eq (a n : Word) :
    a.rotateRight (shiftCount n) = (a >>> (n.toNat % 32)) ||| (a <<< (32 - n.toNat % 32)) := by
  simp [shiftCount, BitVec.rotateRight, BitVec.rotateRightAux]

theorem length_takeWhile_range {p : Nat → Bool} {m n : Nat} (hm : m ≤ n) (hp : ∀ k < m, p k = true)
    (hstop : m < n → p m = false) : ((List.range n).takeWhile p).length = m := by
  obtain ⟨d, rfl⟩ := Nat.exists_eq_add_of_le hm
  rw [List.range_add, List.takeWhile_append_of_pos (by simpa using hp)]
  cases d with
  | zero => simp
  | succ d => simp [List.range_succ_eq_map, hstop (by omega)]

theorem clz_eq (a : Word) :
    clz a = BitVec.ofNat 32 (((upTo 32).takeWhile (fun k => !a.getLsbD (31 - k))).length) := by
  unfold clz upTo
  by_cases ha : a = 0
  · rw [if_pos ha, length_takeWhile_range (m := 32) (Nat.le_refl 32) (by simp [ha]) (by omega)]
    rfl
  · have hpos : a.toNat ≠ 0 := fun h => ha (BitVec.eq_of_toNat_eq h)
    have hlog : a.toNat.log2 < 32 := (Nat.log2_lt hpos).mpr a.isLt
    rw [if_neg ha, length_takeWhile_range (m := 31 - a.toNat.log2) (by omega)]
    · intro k hk
      have hlt : a.toNat < 2 ^ (31 - k) := (Nat.log2_lt hpos).mp (by omega)
      simp [BitVec.getLsbD, Nat.testBit_lt_two_pow hlt]
    · intro _
      rw [show 31 - (31 - a.toNat.log2) = a.toNat.log2 by omega]
      simp [BitVec.getLsbD, Nat.testBit_log2 hpos]

theorem unpackBits_eq_map (n v : Nat) : unpackBits n v = (upTo n).map v.testBit := by
  induction n generalizing v with
  | zero => rfl
  | succ n ih =>
    simp [unpackBits, upTo, ih, List.range_succ_eq_map, Nat.testBit_succ, Nat.testBit_zero, Function.comp_def,
      Bool.beq_eq_decide_eq]

theorem foldl_b2n (l : List Bool) (k : Nat) : l.foldl (fun n b => n + b2n b) k = k + l.countP id := by
  induction l generalizing k with
  | nil => rfl
  | cons b l ih =>
    rw [List.foldl_cons, ih, List.countP_cons]
    cases b <;> simp [b2n, Nat.add_assoc, Nat.add_comm 1]

theorem popc_eq (a : Word) : popc a = BitVec.ofNat 32 (((upTo 32).filter (fun k => a.getLsbD k)).length) := by
  rw [popc, unpackBits_eq_map, foldl_b2n, List.countP_map, List.countP_eq_length_filter, Nat.zero_add]
  rfl

end Sys2Proof.Laws

namespace Sys2Proof.Proofs

open Sys2Proof.Machine Sys2Proof.Safety Sys2Proof.Laws

/-- Settles O25. Each row is the shared operation on one or two cells with its own result; where the model's result is put in
other words than the table's (unsigned division, absolute values, NaN, rotations, counts of bits) the two agree by a lemma. -/
theorem integerAndLogicResults : Obligations.IntegerAndLogicResults := by
  unfold Obligations.IntegerAndLogicResults
  refine ⟨⟨?addI, ?subI, ?mulI, ?divI, ?remI, ?addsI, ?subsI, ?mulsI, ?minI, ?maxI, ?addU, ?subU, ?mulU, ?divU, ?remU,
      ?addsU, ?subsU, ?mulsU, ?minU, ?maxU, ?negI, ?absI, ?negsI, ?abssI⟩,
    fun c => ?cmpI, fun c => ?cmpU, fun c => ?cmpQ, fun c => ?cmpF, ?and, ?or, ?xor, ?shlI, ?shlU, ?shrI, ?shrU, ?rotl, ?rotr,
    ?not, ?clz, ?popc, ?eqz⟩
  case addI | subI | mulI | divI | remI | addsI | subsI | mulsI | minI | maxI =>
    exact binary_of_rhBin (fun _ _ => rfl) fun _ _ => rfl
  case addU | subU | mulU | addsU | subsU | mulsU | minU | maxU =>
    exact binary_of_rhBin (fun _ _ => rfl) fun _ _ => rfl
  case divU => exact binary_of_rhBin (fun _ _ => rfl) divU_eq
  case remU => exact binary_of_rhBin (fun _ _ => rfl) remU_eq
  case negI | negsI => exact unary_of_rhUn (fun _ _ => rfl) fun _ => rfl
  case absI => exact unary_of_rhUn (fun _ _ => rfl) fun a => congrArg sure (absW_eq a)
  case abssI => exact unary_of_rhUn (fun _ _ => rfl) fun a => congrArg (sure ∘ heldI) (natAbs_eq_ite a.toInt)
  case cmpI | cmpU | cmpQ => exact binary_of_rhBin (fun _ _ => rfl) fun _ _ => sure_cellOf (condInt_eq_condHolds c _ _)
  case cmpF => exact binary_of_rhBin (fun _ _ => rfl) fun a b => sure_cellOf (condF_eq_condHoldsF c a b)
  case and | or | xor | shlI | shlU | shrI | shrU => exact binary_of_rhBin (fun _ _ => rfl) fun _ _ => rfl
  case rotl => exact binary_of_rhBin (fun _ _ => rfl) fun a n => congrArg sure (rotateLeft_eq a n)
  case rotr => exact binary_of_rhBin (fun _ _ => rfl) fun a n => congrArg sure (rotateRight_eq a n)
  case not => exact unary_of_rhUn (fun _ _ => rfl) fun _ => congrArg sure BitVec.xor_allOnes.symm
  case clz => exact unary_of_rhUn (fun _ _ => rfl) fun a => congrArg sure (clz_eq a)
  case popc => exact unary_of_rhUn (fun _ _ => rfl) fun a => congrArg sure (popc_eq a)
  case eqz => exact unary_of_rhUn (fun _ _ => rfl) fun a => congrArg sure (cellOf_beq a 0)

end Sys2Proof.Proofs

/-! ## q16.16, f32 and conversion results of Rhamet (R173, R204, R206, Tables 7.5 and 7.7) -/

namespace Sys2Proof.Laws

open Sys2Proof.Machine Sys2Proof.Safety

theorem divQ_eq (a b : Word) : divQ a b =
    unlessZero b (sure (heldI (divRoundEven (a.toInt * 65536 * b.toInt.sign) b.toInt.natAbs))) := by
  unfold divQ unlessZero
  by_cases hb : b = 0
  · rw [if_pos hb, if_pos hb]
  · rw [if_neg hb, if_neg hb]
    have hne : b.toInt ≠ 0 := fun h => hb (BitVec.eq_of_toInt_eq h)
    refine congrArg (sure ∘ heldI) ?_
    by_cases hpos : 0 < b.toInt
    · rw [if_pos hpos, Int.sign_eq_one_of_pos hpos, Int.mul_one, show b.toInt.toNat = b.toInt.natAbs by omega]
    · rw [if_neg hpos, Int.sign_eq_neg_one_of_neg (by omega), Int.mul_neg_one,
        show (-b.toInt).toNat = b.toInt.natAbs by omega]

theorem fCanon_eq (f : Word → Word) (a : Word) : fCanon f a = if isNaN a then 0x7FC00000 else f a := by
  unfold fCanon
  split
  next h => rw [if_pos ((fOf_eq_nan_iff a).mp h)]; rfl
  next h => rw [if_neg (mt (fOf_eq_nan_iff a).mpr h)]

/-- A NaN converts to 0 with a fault, every other value without one. -/
theorem fToInt_result (r : FRound) (k : Nat) (lo hi : Int) (a : Word) :
    (BitVec.ofInt 32 (fToInt r k lo hi a).1, (fToInt r k lo hi a).2) =
      if isNaN a then (0, true) else sure (BitVec.ofInt 32 (fToInt r k lo hi a).1) := by
  by_cases hn : isNaN a = true
  · rw [if_pos hn, fToInt, (fOf_eq_nan_iff a).mpr hn]
    rfl
  · have hnan : fOf a ≠ .nan := mt (fOf_eq_nan_iff a).mp hn
    have hfault : (fToInt r k lo hi a).2 = false := by
      unfold fToInt
      split <;> trivial
    rw [if_neg hn, hfault]
    rfl

end Sys2Proof.Laws

namespace Sys2Proof.Proofs

open Sys2Proof.Machine Sys2Proof.Safety Sys2Proof.Laws

/-- Settles O26. Each row is the shared operation on one or two cells; the quotient of q16.16, the signs of f32 and the
conversions of a NaN are the ones that the model puts in other words than the tables. -/
theorem fractionAndConversionResults : Obligations.FractionAndConversionResults := by
  unfold Obligations.FractionAndConversionResults
  refine ⟨⟨?addQ, ?subQ, ?mulQ, ?divQ, ?minQ, ?maxQ, ?addF, ?subF, ?mulF, ?divF, ?minF, ?maxF, ?negQ, ?absQ, ?negF, ?absF,
      ?sqrtF, ?floorF, ?ceilF, ?roundF, ?truncF⟩,
    ?i2u, ?u2i, ?fBits, ?fFrom, ?qBits, ?qFrom, ?i2f, ?u2f, ?q2f, ?f2i, ?f2u, ?f2q, ?i2q, ?u2q, ?q2i⟩
  case addQ | subQ | mulQ | minQ | maxQ | addF | subF | mulF | divF | minF | maxF =>
    exact binary_of_rhBin (fun _ _ => rfl) fun _ _ => rfl
  case divQ => exact binary_of_rhBin (fun _ _ => rfl) divQ_eq
  case negQ | sqrtF | floorF | ceilF | roundF | truncF => exact unary_of_rhUn (fun _ _ => rfl) fun _ => rfl
  case absQ => exact unary_of_rhUn (fun _ _ => rfl) fun a => congrArg (sure ∘ heldI) (natAbs_eq_ite a.toInt)
  case negF | absF => exact unary_of_rhUn (fun _ _ => rfl) fun a => congrArg sure (fCanon_eq _ a)
  case i2u | u2i | fBits | fFrom | qBits | qFrom => exact unary_of_rhUn (fun _ _ => rfl) fun _ => rfl
  case i2f | u2f | q2f | i2q | u2q | q2i => exact unary_of_rhUn (fun _ _ => rfl) fun _ => rfl
  case f2i | f2u | f2q => exact unary_of_rhUn (fun _ _ => rfl) fun a => fToInt_result _ _ _ _ a

end Sys2Proof.Proofs

/-! ## Branches, loops, calls and returns of Rhamet (R170 to R172, R174, R175, R207, R208, Table 7.8) -/

namespace Sys2Proof.Laws

open Sys2Proof.Machine Sys2Proof.Safety

variable {s : State} {t : Fin 64} {imm cost need : Nat} {w : Window} {fr : Frame} {rest : List Frame}

/-! ### Branches and loops (R174, R175) -/

theorem rhBr_runs {ofs : BitVec 16} (h : Runs s t 2 w fr rest) :
    exec (.rhBr t ofs) s = .next (withWindow s t
      { w with units := w.units + 1, frames := jumped { fr with pc := fr.pc + 3 } (fr.pc + 3 + ofs.toNat) :: rest }) :=
  rh_runs h (Nat.zero_le _) (fun w fr => (w, fr.jump (fr.pc + ofs.toNat))) rfl

/-- A branch that pops its operand: where it is taken control goes forward, else to the next instruction. -/
theorem rhBranch_runs {ofs : BitVec 16} {taken : Word → Bool} {a : Word} {st : List Word} (h : Runs s t 2 w fr rest)
    (hs : fr.stack = a :: st) :
    s.lane (fun d => d.rhBranch t ofs taken) = .next (withWindow s t
      (if taken a = true then { w with units := w.units + 1,
                                       frames := jumped { fr with pc := fr.pc + 3, stack := st } (fr.pc + 3 + ofs.toNat) :: rest }
       else stepped w fr rest 2 1 st)) := by
  refine (rh_gives h (by simp [hs]) (r := ({ w with units := w.units + 1 },
    if taken a = true then jumped { fr with pc := fr.pc + 3, stack := st } (fr.pc + 3 + ofs.toNat)
    else { fr with pc := fr.pc + 3, stack := st })) (by simp only [hs]; rfl) rfl).trans ?_
  split <;> rfl

/-- The frame after a LOOP whose popped cell is `a` and which leaves `st`: back at the head with its count, or behind the loop
with the count gone (R175). -/
def looped (fr : Frame) (mx back : BitVec 16) (a : Word) (st : List Word) : Frame :=
  if a ≠ 0 ∧ loopCount fr fr.pc + 1 < mx.toNat then
    { fr with stack := st, pc := fr.pc - back.toNat
              loops := (fr.pc, loopCount fr fr.pc + 1) :: fr.loops.filter (fun l => l.1 ≠ fr.pc) }
  else { fr with stack := st, pc := fr.pc + 5, loops := fr.loops.filter (fun l => l.1 ≠ fr.pc) }

theorem rhLoop_runs {mx back : BitVec 16} {a : Word} {st : List Word} (h : Runs s t 4 w fr rest) (hs : fr.stack = a :: st) :
    exec (.rhLoop t mx back) s =
      .next (withWindow s t { w with units := w.units + 2, frames := looped fr mx back a st :: rest }) := by
  refine rh_gives h (by simp [hs]) (r := ({ w with units := w.units + 2 }, looped fr mx back a st)) ?_ rfl
  have hfilter : fr.loops.filter (fun l => l.1 ≠ fr.pc) = fr.loops.filter (fun l => l.1 != fr.pc) := by
    simp [bne, Bool.beq_eq_decide_eq]
  have hback : fr.pc + 1 + 4 - 5 = fr.pc := by omega
  simp only [hs, hback, looped, hfilter]
  by_cases hgo : a ≠ 0 ∧ loopCount fr fr.pc + 1 < mx.toNat
  · rw [if_pos hgo, if_pos (by simpa [loopCount] using hgo)]
    rfl
  · rw [if_neg hgo, if_neg (by simpa [loopCount] using hgo)]

/-! ### Calls and returns (R170 to R172, R208) -/

/-- The frame that a CALL of function `n` makes: its arguments are the first locals, every other local is 0. -/
def calleeFrame (n : BitVec 16) (g : FnDecl) (args : List Word) : Frame :=
  { fn := n.toNat, pc := 0, stack := [], locals := args ++ List.replicate (g.nlocals - g.args.length) 0, loops := [] }

/-- A CALL of a function that the image has, as the change of frames that it is. -/
theorem rhCall_eq {d : Dev} {n : BitVec 16} {g : FnDecl} (hg : d.image.fns[n.toNat]? = some g) :
    d.rhCall t n = d.rhRaw t 2 4 g.args.length fun w fr rest => { w with
      frames := calleeFrame n g (fr.stack.take g.args.length).reverse ::
        { fr with stack := fr.stack.drop g.args.length } :: rest } := by
  unfold Dev.rhCall
  rw [hg]
  rfl

theorem rhCall_runs {n : BitVec 16} {g : FnDecl} {args st : List Word} (h : Runs s t 2 w fr rest)
    (hg : s.dev.image.fns[n.toNat]? = some g) (hs : fr.stack = args.reverse ++ st) (ha : args.length = g.args.length) :
    exec (.rhCall t n) s = .next (withWindow s t { w with
      units := w.units + 4, frames := calleeFrame n g args :: { fr with pc := fr.pc + 3, stack := st } :: rest }) := by
  have hn : g.args.length ≤ fr.stack.length := by simp [hs, ha]
  have htake : (fr.stack.take g.args.length).reverse = args := by simp [hs, ← ha]
  have hdrop : fr.stack.drop g.args.length = st := by simp [hs, ← ha]
  rw [← htake, ← hdrop]
  calc exec (.rhCall t n) s = s.lane (fun _ => s.dev.rhCall t n) := rfl
    _ = _ := by rw [rhCall_eq hg]; exact rhRaw_runs h hn _ rfl

theorem rhRet_runs_caller {caller : Frame} {more : List Frame} (h : Runs s t 0 w fr (caller :: more)) :
    exec (.rhRet t) s = .next (withWindow s t { w with
      units := w.units + 2, frames := { caller with stack := fr.stack ++ caller.stack } :: more }) :=
  rhRaw_runs h (Nat.zero_le _) _ rfl

theorem rhRet_runs_last (h : Runs s t 0 w fr []) :
    exec (.rhRet t) s = .next (withWindow s t { w with units := w.units + 2, frames := [], status := .finished }) :=
  rhRaw_runs h (Nat.zero_le _) _ rfl

end Sys2Proof.Laws

namespace Sys2Proof.Proofs

open Sys2Proof.Machine Sys2Proof.Safety Sys2Proof.Laws

/-- Settles O28. A branch is a pop and a jump; LOOP counts at its own place and either goes back or is left. -/
theorem branchesAndLoops : Obligations.BranchesAndLoops := by
  unfold Obligations.BranchesAndLoops
  refine ⟨⟨fun ofs s t w fr rest h => rhBr_runs h, fun ofs s t w fr rest a st h hs => ⟨?brz, ?brnz⟩⟩,
    fun mx back s t w fr rest a st h hs => rhLoop_runs h hs⟩
  case brz => exact (rhBranch_runs (taken := (· == 0)) h hs).trans (by simp)
  case brnz => exact (rhBranch_runs (taken := (· != 0)) h hs).trans (by simp)

/-- Settles O29. CALL and RET change the frames of the window alone: a frame more, or the cells of the top one on its caller's
stack. -/
theorem callsAndReturns : Obligations.CallsAndReturns := by
  unfold Obligations.CallsAndReturns
  refine ⟨fun n g s t w fr rest args st h hg hs ha => ha ▸ rhCall_runs h hg hs ha,
    fun s t w fr rest h => ⟨?caller, ?last⟩⟩
  case caller =>
    rintro caller more rfl
    exact rhRet_runs_caller h
  case last =>
    rintro rfl
    exact rhRet_runs_last h

end Sys2Proof.Proofs

/-! ## Worktop and constant accesses of Rhamet (R101, R105, R179, R180, R209, R227, Table 7.9) -/

namespace Sys2Proof.Laws

open Sys2Proof.Machine Sys2Proof.Safety

/-! ### The window of a pot (R105, R179) -/

theorem winAddr_eq_some_iff (d : Dev) (p a n x : Nat) :
    d.winAddr p a n = some x ↔
      a % n = 0 ∧
      (if p = 0 then a + n ≤ 1048576 ∧ x = a
       else a + n ≤ 4096 * (d.image.window p).pages ∧ x = 4096 * (d.image.window p).base + a) := by
  unfold Dev.winAddr worktopSize
  by_cases hal : a % n = 0
  · by_cases hp : p = 0
    · simp [hal, hp, eq_comm]
    · simp [hal, hp, eq_comm, Nat.mul_comm]
  · simp [hal]

/-! ### Staged bytes (R101) -/

theorem leBytes_getElem? (n v k : Nat) :
    (leBytes n v)[k]? = if k < n then some (BitVec.ofNat 8 (v / 256 ^ k)) else none := by
  induction n generalizing v k with
  | zero => simp [leBytes]
  | succ n ih =>
    cases k with
    | zero => simp [leBytes]
    | succ k => simp [leBytes, ih, Nat.div_div_eq_div_mul, Nat.pow_succ']

/-- The byte that a store of `bs` at `x` and the stores before it leave at an address: that of `bs` where it reaches. -/
theorem stagedByte_append (x a k : Nat) (bs : List Byte) (l : List (Nat × Byte)) :
    stagedByte ((bs.zipIdx k).map (fun p => (x + p.2, p.1)) ++ l) a =
      if x + k ≤ a ∧ a < x + k + bs.length then bs[a - (x + k)]? else stagedByte l a := by
  induction bs generalizing k with
  | nil => simp [show ¬(x + k ≤ a ∧ a < x + k) by omega]
  | cons b bs ih =>
    have hhead : stagedByte (((b :: bs).zipIdx k).map (fun p => (x + p.2, p.1)) ++ l) a =
        if x + k = a then some b else stagedByte ((bs.zipIdx (k + 1)).map (fun p => (x + p.2, p.1)) ++ l) a := by
      by_cases h : x + k = a <;> simp [stagedByte, h]
    rw [hhead, ih, List.length_cons]
    by_cases h : x + k = a
    · rw [if_pos h, if_pos (by omega), show a - (x + k) = 0 by omega]
      rfl
    rw [if_neg h]
    by_cases hin : x + (k + 1) ≤ a ∧ a < x + (k + 1) + bs.length
    · rw [if_pos hin, if_pos (by omega), show a - (x + k) = a - (x + (k + 1)) + 1 by omega, List.getElem?_cons_succ]
    · rw [if_neg hin, if_neg (by omega)]

theorem byteAt_storeLE (w : Window) (x n a : Nat) (v : Word) :
    (w.storeLE x n v).byteAt a =
      if x ≤ a ∧ a < x + n then BitVec.ofNat 8 (v.toNat / 256 ^ (a - x)) else w.byteAt a := by
  unfold Window.byteAt Window.storeLE
  dsimp only
  rw [stagedByte_append, leBytes_length, leBytes_getElem?, Nat.add_zero]
  by_cases h : x ≤ a ∧ a < x + n
  · rw [if_pos h, if_pos (by omega), if_pos h]
  · rw [if_neg h, if_neg h]

/-! ### Loads and stores (R105, R209) -/

/-- An instruction that leaves `st` on its stack and `g` as what its release has staged. -/
theorem rh_stages {s : State} {t : Fin 64} {imm cost need : Nat} {w : Window} {fr : Frame} {rest : List Frame}
    {f : Window → Frame → Window × Frame} {st : List Word} {g : Staged} (h : Runs s t imm w fr rest)
    (hn : need ≤ fr.stack.length)
    (hf : f { w with units := w.units + cost } { fr with pc := fr.pc + 1 + imm } =
      ({ w with units := w.units + cost, staged := g }, { fr with pc := fr.pc + 1 + imm, stack := st })) :
    s.lane (fun d => d.rh t imm cost need f) =
      .next (withWindow s t { stepped w fr rest imm cost st with staged := g }) :=
  rh_gives h hn hf rfl

theorem loads_of_rhLoad {instr : Fin 64 → Instr} {imm n : Nat} {ext : Nat → Word}
    (hi : ∀ t s, exec (instr t) s = s.lane (fun d => d.rhLoad t imm n ext)) (h0 : ext 0 = 0) :
    Loads instr imm n ext := by
  intro s t w fr rest a st h hs
  have hn : 1 ≤ fr.stack.length := by simp [hs]
  rw [hi]
  cases hx : s.dev.winAddr (s.dev.potOf t) a.toNat n with
  | some x => exact rh_stages h hn (by simp only [hs, Dev.winLoad, hx]; rfl)
  | none => exact rh_stages h hn (by simp only [hs, Dev.winLoad, hx, h0]; rfl)

theorem stores_of_rhStore {instr : Fin 64 → Instr} {n : Nat}
    (hi : ∀ t s, exec (instr t) s = s.lane (fun d => d.rhStore t n)) : Stores instr n := by
  intro s t w fr rest v a st h hs
  have hn : 2 ≤ fr.stack.length := by simp [hs]
  rw [hi]
  cases hx : s.dev.winAddr (s.dev.potOf t) a.toNat n with
  | some x => exact rh_stages h hn (by simp only [hs, Dev.winStore, hx]; rfl)
  | none => exact rh_stages h hn (by simp only [hs, Dev.winStore, hx]; rfl)

/-! ### Constants (R180, R227) -/

@[simp] theorem uncorrPot_cycle (d : Dev) (kind p aux : Nat) : (d.uncorrPot kind p aux).cycle = d.cycle := by
  unfold Dev.uncorrPot
  split <;> rfl

theorem foldl_cycle {α : Type} {f : Dev → α → Dev} (hf : ∀ d a, (f d a).cycle = d.cycle) (l : List α) (d : Dev) :
    (l.foldl f d).cycle = d.cycle := by
  induction l generalizing d with
  | nil => rfl
  | cons a l ih => exact (ih _).trans (hf d a)

theorem reportWord_cycle (d : Dev) (w : Nat) : (d.reportWord w).cycle = d.cycle := by
  unfold Dev.reportWord
  extract_lets spans bytes holders pots
  split
  · exact foldl_cycle (fun d p => uncorrPot_cycle d 1 p _) _ d
  · rfl

theorem foundWord_cycle (b : Bool) (w : Nat) (d : Dev) : (d.foundWord b w).cycle = d.cycle := by
  unfold Dev.foundWord
  extract_lets k
  split
  · rfl
  · rw [reportWord_cycle, Dev.onStore_cycle]

theorem fetchFail_window (d : Dev) (t : Fin 64) (w : Window) (ws : List Nat) :
    ((d.fetchFail t w ws).cycle.tasks[t]).window = some { w with status := .stuck } := by
  unfold Dev.fetchFail
  rw [Dev.settle_cycle, logFlush_cycle, foldl_cycle (fun d x => foundWord_cycle _ x d)]
  simp

/-- A row that reads pantry words beside its code, on a window that runs: one of them with an uncorrectable error ends the
release (R227). -/
theorem rhGuard_runs {s : State} {t : Fin 64} {imm cost need : Nat} {bad : List Nat} {w : Window} {fr : Frame}
    {rest : List Frame} {f : Window → Frame → Window × Frame} (h : Runs s t imm w fr rest) :
    s.dev.rhGuard t imm bad cost need f =
      if bad = [] then s.dev.rh t imm cost need f else s.dev.fetchFail t w bad := by
  obtain ⟨hw, hr, hf, hfetch⟩ := h
  cases w
  dsimp only at hr hf
  subst hr hf
  simp only [Dev.rhGuard, hw, hfetch]
  cases bad <;> rfl

theorem constLoads_of_rhConst {instr : Fin 64 → Instr} {imm n : Nat}
    (hi : ∀ t s, exec (instr t) s = s.lane (fun d => d.rhConst t imm n)) : ConstLoads instr imm n := by
  intro s t w fr rest o st h hs
  have hn : 1 ≤ fr.stack.length := by simp [hs]
  refine ⟨fun hb => ?bad, fun hb => ?sound⟩
  case bad =>
    refine ⟨_, hi t s, rfl, ?_⟩
    show ((s.dev.rhConst t imm n).cycle.tasks[t]).window = _
    rw [Dev.rhConst, rhGuard_runs h, if_neg hb]
    exact fetchFail_window s.dev t w _
  case sound =>
    rw [hi, State.lane_eq, Dev.rhConst, rhGuard_runs h, if_pos hb, ← State.lane_eq s (fun d => d.rh t imm 3 1 _)]
    split
    next hin => exact rh_stages h hn (by simp [hs, hin])
    next hout => exact rh_stages h hn (by simp [hs, hout])

end Sys2Proof.Laws

namespace Sys2Proof.Proofs

open Sys2Proof.Machine Sys2Proof.Safety Sys2Proof.Laws

/-- Settles O30. The window of a pot is an interval of the worktop; a store puts its bytes before what was staged; each load and
store is a check of that interval, and a constant load one of the pot's block. -/
theorem memoryAccesses : Obligations.MemoryAccesses := by
  unfold Obligations.MemoryAccesses
  refine ⟨winAddr_eq_some_iff, byteAt_storeLE, ⟨?u8, ?s8, ?u16, ?s16, fun ty => ?w32⟩, ⟨?st8, ?st16, ?st32⟩,
    ?c8, ?c16, fun ty => ?c32⟩
  case u8 | s8 | u16 | s16 | w32 => exact loads_of_rhLoad (fun _ _ => rfl) rfl
  case st8 | st16 | st32 => exact stores_of_rhStore fun _ _ => rfl
  case c8 | c16 | c32 => exact constLoads_of_rhConst fun _ _ => rfl

end Sys2Proof.Proofs

/-! ## Selection, the two attempts of acceptance and RETRY (R197, R198, R267 to R269, R279) -/

namespace Sys2Proof.Machine

/-- The two pantry banks, as one value. -/
def Dev.banks (d : Dev) : Bank × Bank := (d.store.bankA, d.store.bankB)

@[simp] theorem Dev.banks_eta (d : Dev) : (d.store.bankA, d.store.bankB) = d.banks := rfl

@[simp] theorem Dev.onStore_banks (d : Dev) (f : StoreState → StoreState) :
    (d.onStore f).banks = ((f d.store).bankA, (f d.store).bankB) := rfl

end Sys2Proof.Machine

namespace Sys2Proof.Laws

open Sys2Proof.Machine Sys2Proof.Safety

/-! ### Reads of larder groups leave the banks as they are (R241) -/

@[simp] theorem banks_ite (c : Prop) [Decidable c] (a b : Dev) :
    (if c then a else b).banks = if c then a.banks else b.banks := apply_ite Dev.banks c a b

theorem foldl_banks {α : Type} {f : Dev → α → Dev} (hf : ∀ d a, (f d a).banks = d.banks) (l : List α) (d : Dev) :
    (l.foldl f d).banks = d.banks := by
  induction l generalizing d with
  | nil => rfl
  | cons a l ih => exact (ih _).trans (hf d a)

@[simp] theorem event_banks (d : Dev) (code subject detail tag aux : Nat) :
    (d.event code subject detail tag aux).banks = d.banks := rfl

@[simp] theorem onRegion_banks (d : Dev) (g : Nat) (f : RegionStat → RegionStat) : (d.onRegion g f).banks = d.banks := by
  unfold Dev.onRegion
  split <;> rfl

@[simp] theorem cellWrite_banks (d : Dev) (g : Nat) (b : List Byte) : (d.cellWrite g b).banks = d.banks := by
  have hwear : (d.countWear g).banks = d.banks := by simp [Dev.countWear]
  exact hwear

@[simp] theorem retireGroup_banks (d : Dev) (g cause : Nat) : (d.retireGroup g cause).banks = d.banks := by
  simp [Dev.retireGroup]

@[simp] theorem loseGroup_banks (d : Dev) (g : Nat) : (d.loseGroup g).banks = d.banks := by
  simp [Dev.loseGroup]

@[simp] theorem remapFind_banks (d : Dev) (g : Nat) (mate : Bool) : (d.remapFind g mate).banks = d.banks := by
  simp [Dev.remapFind]

@[simp] theorem uncorrPot_banks (d : Dev) (kind p aux : Nat) : (d.uncorrPot kind p aux).banks = d.banks := by
  unfold Dev.uncorrPot
  split <;> rfl

@[simp] theorem uncorrShared_banks (d : Dev) (kind aux : Nat) : (d.uncorrShared kind aux).banks = d.banks := rfl

theorem larderFindBy_banks (d : Dev) (g : Nat) (e : EccFind) (mate : Bool) :
    (d.larderFindBy g e mate).banks = d.banks := by
  fun_cases Dev.larderFindBy d g e mate <;> simp +zetaDelta

theorem acceptRead_banks (d : Dev) (e : AcceptEnv) : (acceptRead d e).banks = d.banks := by
  unfold acceptRead Dev.larderReads
  exact foldl_banks (fun d (f : Nat × EccFind) => larderFindBy_banks d f.1 f.2 _) _ d

/-! ### What an acceptance leaves (R268, R269) -/

/-- No bank was accepted, for the cause `c`. -/
def Refused (c : Nat) (d : Dev) : Prop :=
  d.sys.boot = .boundary ∧ d.sys.outcome = some { image := none, cause := c } ∧
    d.store.bankA.mode ≠ .active ∧ d.store.bankB.mode ≠ .active

/-- The image `m` of bank `b` was taken for step 10, at the first or the second attempt. -/
def Taken (b : Bool) (m : Image) (second : Bool) (d : Dev) : Prop :=
  d.sys.boot = .boundary ∧ d.sys.fallback = second ∧ d.sys.outcome = some { image := some m, cause := 0 } ∧
    (d.store.bank b).mode = .active ∧ d.store.record = some b

theorem logFlush_bank (d : Dev) (b : Bool) : d.logFlush.store.bank b = d.store.bank b := by
  rw [logFlush_store]
  rfl

theorem logFlush_record (d : Dev) : d.logFlush.store.record = d.store.record := by
  rw [logFlush_store]

/-- The log entries and attention bits that follow a command change nothing of a refusal. -/
theorem Refused.settled {c : Nat} {d : Dev} (h : Refused c d) (s : Dev) : Refused c (Dev.settle s d.logFlush) := by
  obtain ⟨hboot, hout, ha, hb⟩ := h
  have hA : d.logFlush.store.bankA = d.store.bankA := logFlush_bank d false
  have hB : d.logFlush.store.bankB = d.store.bankB := logFlush_bank d true
  exact ⟨hboot, hout, by rwa [Dev.settle_store, hA], by rwa [Dev.settle_store, hB]⟩

theorem Taken.settled {b : Bool} {m : Image} {second : Bool} {d : Dev} (h : Taken b m second d) (s : Dev) :
    Taken b m second (Dev.settle s d.logFlush) := by
  obtain ⟨hboot, hfall, hout, hbank, hrec⟩ := h
  refine ⟨hboot, hfall, hout, ?_, ?_⟩
  · rw [Dev.settle_store, logFlush_bank, hbank]
  · rw [Dev.settle_store, logFlush_record, hrec]

theorem activate_none_mode (s : StoreState) (b : Bool) : ((s.activate none).bank b).mode ≠ .active := by
  cases b
  · by_cases h : s.bankA.mode = .active <;> simp [StoreState.activate, StoreState.bank, h]
  · by_cases h : s.bankB.mode = .active <;> simp [StoreState.activate, StoreState.bank, h]

theorem activate_some_mode (s : StoreState) (b : Bool) : ((s.activate (some b)).bank b).mode = .active := by
  cases b <;> rfl

theorem recordBank_bank (s : StoreState) (a b : Bool) : (s.recordBank a).bank b = s.bank b := by
  obtain ⟨ha, hb, -⟩ := recordBank_mems s a
  cases b
  · exact ha
  · exact hb

theorem refuseBanks_refused (d : Dev) (c : Nat) : Refused c (d.refuseBanks c) :=
  ⟨rfl, rfl, activate_none_mode d.store false, activate_none_mode d.store true⟩

theorem acceptBank_taken (d : Dev) (b : Bool) (m : Image) (second : Bool) : Taken b m second (d.acceptBank b m second) := by
  refine ⟨rfl, rfl, rfl, ?_, rfl⟩
  exact (congrArg Bank.mode (recordBank_bank (d.store.activate (some b)) b b)).trans (activate_some_mode d.store b)

/-! ### The two attempts (R268, R269) -/

theorem leNat_mod_eq_leAt (l : List Byte) : leNat l % 256 = leAt l 0 1 := by
  cases l with
  | nil => rfl
  | cons b l => simp [leAt, leNat, Nat.add_mul_mod_self_left, Nat.mod_eq_of_lt b.isLt]

variable {d : Dev} {b : Bool} {c : Nat} {m : Image}

theorem attempt_eq {r : Option Image × Nat} (hr : (d.attempt b true).2 = r) :
    d.attempt b true = ((d.attempt b true).1, r) := Prod.ext rfl hr

theorem firstAttempt_taken (hb : d.store.firstBank = some b) (ha : (d.attempt b true).2 = (some m, c)) :
    Taken b m false d.firstAttempt := by
  unfold Dev.firstAttempt
  rw [hb]
  dsimp only
  rw [attempt_eq ha]
  exact acceptBank_taken _ b m false

theorem firstAttempt_of_failed (hb : d.store.firstBank = some b) (ha : (d.attempt b true).2 = (none, c)) :
    d.firstAttempt =
      if (d.store.usable (!b) && d.bootParam 0 1 == 1) = true then
        ((d.attempt b true).1.onSys fun s => s.setCause b c).onSys fun s =>
          { s with boot := .second (!b), progress := if b then 4 else 5 }
      else ((d.attempt b true).1.onSys fun s => s.setCause b c).refuseBanks c := by
  have hstore : (d.attempt b true).1.store = d.store := by
    unfold Dev.attempt
    rfl
  unfold Dev.firstAttempt Dev.bootParam
  rw [hb]
  dsimp only
  rw [attempt_eq ha]
  simp only [Dev.onSys_store, hstore]

/-- A first attempt that fails leaves the other bank for the second attempt, if it can be tried and BOOT_FALLBACK is 1. -/
theorem firstAttempt_failed (hb : d.store.firstBank = some b) (ha : (d.attempt b true).2 = (none, c)) :
    if d.store.usable (!b) = true ∧ leNat (d.store.param 0x85) % 256 = 1 then d.firstAttempt.sys.boot = .second (!b)
    else Refused c d.firstAttempt := by
  have hother : (d.store.usable (!b) && d.bootParam 0 1 == 1) = true ↔
      d.store.usable (!b) = true ∧ leNat (d.store.param 0x85) % 256 = 1 := by
    rw [leNat_mod_eq_leAt]
    simp [Dev.bootParam]
  rw [firstAttempt_of_failed hb ha]
  by_cases h : d.store.usable (!b) = true ∧ leNat (d.store.param 0x85) % 256 = 1
  · rw [if_pos h, if_pos (hother.mpr h)]
    rfl
  · rw [if_neg h, if_neg (mt hother.mp h)]
    exact refuseBanks_refused _ c

/-- With no bank to try step 1 fails, by whether a bank is half written (R197; DEDUCED, log 104). -/
theorem firstAttempt_none (hb : d.store.firstBank = none) :
    d.firstAttempt.sys.vfyStep = 1 ∧
      Refused (if d.store.bankA.mode = .writing ∨ d.store.bankB.mode = .writing then 2 else 1) d.firstAttempt := by
  have hcause : (if d.store.bankA.mode = .writing || d.store.bankB.mode = .writing then 2 else 1) =
      if d.store.bankA.mode = .writing ∨ d.store.bankB.mode = .writing then 2 else 1 := by simp
  unfold Dev.firstAttempt
  rw [hb]
  dsimp only
  rw [hcause]
  exact ⟨rfl, refuseBanks_refused _ _⟩

theorem secondAttempt_taken (ha : (d.attempt b true).2 = (some m, c)) : Taken b m true (d.secondAttempt b) := by
  unfold Dev.secondAttempt
  rw [attempt_eq ha]
  exact acceptBank_taken _ b m true

theorem secondAttempt_refused (ha : (d.attempt b true).2 = (none, c)) : Refused c (d.secondAttempt b) := by
  unfold Dev.secondAttempt
  rw [attempt_eq ha]
  exact refuseBanks_refused _ c

/-! ### The row and RETRY (R279) -/

theorem imageAcceptance_select {e : AcceptEnv} (h : d.sys.boot = .select) : d.imageAcceptance e =
    (acceptRead { d with store := { d.store with recordBad := d.store.recordBad || e.recordBad } } e).firstAttempt := by
  unfold Dev.imageAcceptance
  simp only [h]
  rfl

theorem imageAcceptance_second {e : AcceptEnv} (h : d.sys.boot = .second b) :
    d.imageAcceptance e = (acceptRead d e).secondAttempt b := by
  unfold Dev.imageAcceptance
  simp only [h]
  rfl

theorem retry_of_startTollgate (hm : d.sys.mode = .tollgate) (hb : d.sys.boot = .done) (hc : d.sys.tollCause ≠ 9) :
    d.retry = { d with sys := { d.sys with boot := .select, progress := 3, aCause := 0xFF, bCause := 0xFF } } := by
  unfold Dev.retry
  rw [if_pos (by simpa [hm, hb] using hc)]
  rfl

end Sys2Proof.Laws

namespace Sys2Proof.Proofs

open Sys2Proof.Machine Sys2Proof.Safety Sys2Proof.Laws

/-- Settles O15. Each attempt ends in one of two ways, a bank taken or none, and what follows a command changes neither; the
larder groups that are read first leave the banks as they are. -/
theorem acceptanceAndRetry : Obligations.AcceptanceAndRetry := by
  unfold Obligations.AcceptanceAndRetry
  intro e s refused taken
  refine ⟨fun x hboot hx => ⟨fun b hb => ?first, fun hb => ?none⟩, fun b x hboot hx => ?second, fun hl hm hb hc => ?retry⟩
  case first =>
    refine completes_of_act rfl ?_
    rw [imageAcceptance_select hboot, ← hx]
    rcases ha : (x.attempt b true).2 with ⟨_ | m, c⟩
    · have hfail := firstAttempt_failed hb ha
      dsimp only
      split at hfail
      next h => exact (if_pos h).mpr hfail
      next h => exact (if_neg h).mpr (hfail.settled s.dev)
    · exact (firstAttempt_taken hb ha).settled s.dev
  case none =>
    refine completes_of_act rfl ?_
    have hbanks : x.banks = s.dev.banks := by rw [hx]; exact acceptRead_banks _ e
    obtain ⟨hA, hB⟩ := Prod.mk.inj hbanks
    obtain ⟨hstep, hrefused⟩ := firstAttempt_none hb
    rw [hA, hB] at hrefused
    rw [imageAcceptance_select hboot, ← hx]
    exact ⟨hstep, hrefused.settled s.dev⟩
  case second =>
    refine completes_of_act rfl ?_
    rw [imageAcceptance_second hboot, ← hx]
    rcases ha : (x.attempt b true).2 with ⟨_ | m, c⟩
    · exact (secondAttempt_refused ha).settled s.dev
    · exact (secondAttempt_taken ha).settled s.dev
  case retry => exact becomes_of_calm rfl (retry_of_startTollgate hm hb hc) hl rfl rfl rfl

end Sys2Proof.Proofs

/-! ## The one NaN of f32 (R204, Table 0.6) -/

namespace Sys2Proof.Laws

open Sys2Proof.Machine Sys2Proof.Safety

/-- What R204 asks of a result: a NaN where an operand is one (`p`), and no NaN but the one of Table 0.6. -/
def GivesOneNaN (p : Prop) (r : Word) : Prop := (p → isNaN r) ∧ (isNaN r → r = 0x7FC00000)

theorem givesOneNaN_fNaN {p : Prop} : GivesOneNaN p fNaN := ⟨fun _ => by decide, fun _ => rfl⟩

theorem givesOneNaN_number {p : Prop} {r : Word} (hp : ¬p) (hr : isNaN r = false) : GivesOneNaN p r :=
  ⟨fun h => absurd h hp, fun h => absurd h (by simp [hr])⟩

/-! ### Numbers and infinities -/

theorem isNaN_eq_false_iff (a : Word) : isNaN a = false ↔ fOf a ≠ .nan := by
  simp [fOf_eq_nan_iff]

/-- A magnitude up to that of the infinities is no NaN, whatever its sign. -/
theorem isNaN_fSigned (neg : Bool) {mag : Nat} (h : mag ≤ 0x7F800000) : isNaN (fSigned neg mag) = false := by
  have hval : (fSigned neg mag).toNat = mag + if neg then 2 ^ 31 else 0 := by
    cases neg <;> simp [fSigned] <;> omega
  have hfields : ¬(bitsOf (fSigned neg mag).toNat 30 23 = 255 ∧ bitsOf (fSigned neg mag).toNat 22 0 ≠ 0) := by
    simp only [bitsOf, hval, Nat.shiftRight_eq_div_pow]
    split <;> omega
  rw [exponent_eq_ones, Ne, fraction_eq_zero] at hfields
  simpa [isNaN] using hfields

theorem fMagOfRat_le (n d : Nat) : fMagOfRat n d ≤ 0x7F800000 := by
  unfold fMagOfRat
  split
  · exact Nat.zero_le _
  · exact Nat.min_le_right _ _

@[simp] theorem isNaN_fInf (neg : Bool) : isNaN (fInf neg) = false := isNaN_fSigned neg (Nat.le_refl _)

@[simp] theorem isNaN_fSigned_zero (neg : Bool) : isNaN (fSigned neg 0) = false := isNaN_fSigned neg (Nat.zero_le _)

@[simp] theorem isNaN_fOfRat (neg : Bool) (n d : Nat) : isNaN (fOfRat neg n d) = false :=
  isNaN_fSigned neg (fMagOfRat_le n d)

@[simp] theorem isNaN_fOfScaled (zneg : Bool) (i e : Int) : isNaN (fOfScaled zneg i e) = false := by
  unfold fOfScaled
  dsimp only
  split
  · exact isNaN_fSigned_zero _
  · split
    · exact isNaN_fOfRat ..
    · exact isNaN_fOfRat ..

/-! ### The sign bit -/

/-- Whether a word is a NaN is told by what stands below its sign bit. -/
theorem isNaN_congr {a b : Word} (h : a &&& 0x7FFFFFFF#32 = b &&& 0x7FFFFFFF#32) : isNaN a = isNaN b := by
  have hbelow : ∀ x : Word, isNaN x = isNaN (x &&& 0x7FFFFFFF#32) := fun x => by simp [isNaN, BitVec.and_assoc]
  rw [hbelow a, hbelow b, h]

@[simp] theorem isNaN_fFlip (a : Word) : isNaN (fFlip a) = isNaN a := by
  have hkeep : ∀ m : Word, (a ^^^ ~~~m) &&& m = a &&& m := fun m => by
    ext i
    cases ha : a[i] <;> cases hm : m[i] <;> simp [ha, hm]
  exact isNaN_congr (hkeep 0x7FFFFFFF#32)

@[simp] theorem isNaN_clearSign (a : Word) : isNaN (a &&& 0x7FFFFFFF#32) = isNaN a :=
  isNaN_congr (by simp [BitVec.and_assoc])

/-! ### The operations -/

theorem givesOneNaN_unary {a r : Word} (ha : fOf a ≠ .nan) (hr : isNaN r = false) : GivesOneNaN (isNaN a) r :=
  givesOneNaN_number (by simpa [fOf_eq_nan_iff] using ha) hr

theorem givesOneNaN_binary {a b r : Word} (ha : fOf a ≠ .nan) (hb : fOf b ≠ .nan) (hr : isNaN r = false) :
    GivesOneNaN (isNaN a ∨ isNaN b) r :=
  givesOneNaN_number (by simp_all [fOf_eq_nan_iff]) hr

theorem fAdd_givesOneNaN (a b : Word) : GivesOneNaN (isNaN a ∨ isNaN b) (fAdd a b) := by
  fun_cases fAdd a b
  case case1 | case2 | case4 => exact givesOneNaN_fNaN
  case case3 | case5 | case6 => exact givesOneNaN_binary (by simp_all) (by simp_all) (isNaN_fInf _)
  case case7 => exact givesOneNaN_binary (by simp_all) (by simp_all) (isNaN_fOfScaled ..)

theorem fSub_givesOneNaN (a b : Word) : GivesOneNaN (isNaN a ∨ isNaN b) (fSub a b) :=
  isNaN_fFlip b ▸ fAdd_givesOneNaN a (fFlip b)

theorem fMul_givesOneNaN (a b : Word) : GivesOneNaN (isNaN a ∨ isNaN b) (fMul a b) := by
  fun_cases fMul a b
  case case1 | case2 | case4 | case6 => exact givesOneNaN_fNaN
  case case3 | case5 | case7 => exact givesOneNaN_binary (by simp_all) (by simp_all) (isNaN_fInf _)
  case case8 => exact givesOneNaN_binary (by simp_all) (by simp_all) (isNaN_fOfScaled ..)

theorem fDiv_givesOneNaN (a b : Word) : GivesOneNaN (isNaN a ∨ isNaN b) (fDiv a b) := by
  fun_cases fDiv a b
  case case1 | case2 | case3 | case6 => exact givesOneNaN_fNaN
  case case4 | case7 => exact givesOneNaN_binary (by simp_all) (by simp_all) (isNaN_fInf _)
  case case5 => exact givesOneNaN_binary (by simp_all) (by simp_all) (isNaN_fSigned_zero _)
  case case8 | case9 => exact givesOneNaN_binary (by simp_all) (by simp_all) (isNaN_fOfRat ..)

theorem fMin_givesOneNaN (a b : Word) : GivesOneNaN (isNaN a ∨ isNaN b) (fMin a b) := by
  fun_cases fMin a b
  case case1 | case2 => exact givesOneNaN_fNaN
  case case3 ha hb => exact givesOneNaN_binary ha hb ((isNaN_eq_false_iff a).mpr ha)
  case case4 ha hb => exact givesOneNaN_binary ha hb ((isNaN_eq_false_iff b).mpr hb)

theorem fMax_givesOneNaN (a b : Word) : GivesOneNaN (isNaN a ∨ isNaN b) (fMax a b) := by
  fun_cases fMax a b
  case case1 | case2 => exact givesOneNaN_fNaN
  case case3 ha hb => exact givesOneNaN_binary ha hb ((isNaN_eq_false_iff a).mpr ha)
  case case4 ha hb => exact givesOneNaN_binary ha hb ((isNaN_eq_false_iff b).mpr hb)

theorem fSqrt_givesOneNaN (a : Word) : GivesOneNaN (isNaN a) (fSqrt a) := by
  fun_cases fSqrt a
  case case1 | case2 | case5 => exact givesOneNaN_fNaN
  case case3 => exact givesOneNaN_unary (by simp_all) (isNaN_fInf _)
  case case4 => exact givesOneNaN_unary (by simp_all) (isNaN_fSigned_zero _)
  case case6 => exact givesOneNaN_unary (by simp_all) (isNaN_fOfScaled ..)

theorem fToWhole_givesOneNaN (r : FRound) (a : Word) : GivesOneNaN (isNaN a) (fToWhole r a) := by
  fun_cases fToWhole r a
  case case1 => exact givesOneNaN_fNaN
  case case2 => exact givesOneNaN_unary (by simp_all) (isNaN_fInf _)
  case case3 => exact givesOneNaN_unary (by simp_all) (isNaN_fOfScaled ..)

/-- A sign that changes no NaN into a number nor a number into a NaN, on values with the one NaN. -/
theorem fCanon_givesOneNaN {f : Word → Word} (hf : ∀ a, isNaN (f a) = isNaN a) (a : Word) :
    GivesOneNaN (isNaN a) (fCanon f a) := by
  fun_cases fCanon f a
  case case1 => exact givesOneNaN_fNaN
  case case2 ha => exact givesOneNaN_unary ha ((hf a).trans ((isNaN_eq_false_iff a).mpr ha))

end Sys2Proof.Laws

namespace Sys2Proof.Proofs

open Sys2Proof.Machine Sys2Proof.Safety Sys2Proof.Laws

/-- Settles O27. Each operation ends in the one NaN, or in a number or an infinity, which no sign and no rounding makes a NaN. -/
theorem oneNaN : Obligations.OneNaN := by
  unfold Obligations.OneNaN
  simp only [List.forall_mem_cons]
  exact ⟨⟨fAdd_givesOneNaN, fSub_givesOneNaN, fMul_givesOneNaN, fDiv_givesOneNaN, fMin_givesOneNaN, fMax_givesOneNaN, nofun⟩,
    fCanon_givesOneNaN isNaN_fFlip, fCanon_givesOneNaN isNaN_clearSign, fSqrt_givesOneNaN, fToWhole_givesOneNaN .floor,
    fToWhole_givesOneNaN .ceil, fToWhole_givesOneNaN .even, fToWhole_givesOneNaN .trunc, nofun⟩

end Sys2Proof.Proofs

/-! ## Elements and captures of Rhamet (R210 to R212, Table 7.11) -/

namespace Sys2Proof.Laws

open Sys2Proof.Machine Sys2Proof.Safety

variable {imm cost : Nat} {instr : Fin 64 → Instr}

/-! ### Rows by what they push, pop or stage -/

theorem pushes_of_window {v : Window → Word}
    (hi : ∀ t s, exec (instr t) s = s.lane (fun d => d.rhPush t imm cost fun w _ => v w))
    (hv : ∀ w u, v { w with units := u } = v w) : Pushes instr imm cost (fun _ w _ => v w) := by
  intro s t w fr rest h
  rw [hi, rhPush_runs h, hv]

theorem popsTo_of_rhPop {f : Staged → Word → Staged}
    (hi : ∀ t s, exec (instr t) s = s.lane (fun d => d.rhPop t imm cost fun a w => { w with staged := f w.staged a })) :
    PopsTo instr imm cost f :=
  fun _ _ _ _ _ _ _ h hs => (hi _ _).trans (rhPop_runs h hs _ rfl)

theorem stages_of_rhStage {f : Staged → Staged}
    (hi : ∀ t s, exec (instr t) s = s.lane (fun d => d.rhStage t imm cost f)) : Stages instr imm cost f :=
  fun _ _ _ _ _ h => (hi _ _).trans (rhStage_runs h f)

/-! ### Words stored one after the other (R105, R212) -/

/-- A checked store adds to what is staged and reads nothing of the work units. -/
theorem winStore_stages (d : Dev) (p n : Nat) (a v : Word) (w : Window) :
    ∃ g, ∀ u, d.winStore p n a v { w with units := u } = { w with units := u, staged := g } := by
  unfold Dev.winStore
  split
  next x _ => exact ⟨(w.storeLE x n v).staged, fun _ => rfl⟩
  next => exact ⟨(w.memFault 1).staged, fun _ => rfl⟩

theorem winStoreWords_stages (d : Dev) (p : Nat) (a : Word) (vs : List Word) (w : Window) (u : Nat) :
    d.winStoreWords p a vs { w with units := u } =
      { w with units := u, staged := (d.winStoreWords p a vs w).staged } := by
  unfold Dev.winStoreWords
  induction vs.zipIdx generalizing w with
  | nil => rfl
  | cons v l ih =>
    obtain ⟨g, hg⟩ := winStore_stages d p 4 (a + BitVec.ofNat 32 (4 * v.2)) v.1 w
    simp only [List.foldl_cons]
    rw [hg u, show d.winStore p 4 _ v.1 w = { w with staged := g } from hg w.units]
    exact ih { w with staged := g }

/-- An instruction that pops one cell and leaves `g` as what its release has staged. -/
theorem rhPop_stages {s : State} {t : Fin 64} {w : Window} {fr : Frame} {rest : List Frame} {f : Word → Window → Window}
    {a : Word} {st : List Word} {g : Staged} (h : Runs s t imm w fr rest) (hs : fr.stack = a :: st)
    (hf : ∀ u, f a { w with units := u } = { w with units := u, staged := g }) :
    s.lane (fun d => d.rhPop t imm cost f) = .next (withWindow s t { stepped w fr rest imm cost st with staged := g }) := by
  rw [rhPop_runs h hs f (by rw [hf]), hf]
  rfl

/-! ### Captures (R212) -/

/-- The slots of CAP.CP where the release delivered no more entries than it has slots: the entries, then zeros. -/
theorem capSlots_eq {es : List CapEntry} (h : es.length ≤ 16) :
    (es.flatMap capWords ++ List.replicate 32 0).take 32 =
      es.flatMap capWords ++ List.replicate (32 - 2 * es.length) 0 := by
  have hlen : (es.flatMap capWords).length = 2 * es.length := by
    simp [List.length_flatMap, capWords, Nat.mul_comm]
  rw [List.take_append, List.take_of_length_le (by omega), hlen, List.take_replicate, Nat.min_eq_left (by omega)]

theorem capWords_eq : capWords = fun e =>
    [BitVec.ofNat 32 e.si, BitVec.ofNat 32 (e.si / 4294967296 % 2147483648 + (if e.rise then 2147483648 else 0))] := by
  funext e
  cases h : e.rise <;> simp [capWords, b2n, h]

theorem rhCapCp_runs {s : State} {t : Fin 64} {w : Window} {fr : Frame} {rest : List Frame} {ch : BitVec 10} {a : Word}
    {st : List Word} (h : Runs s t 2 w fr rest) (hs : fr.stack = a :: st)
    (hle : (w.latch.cap ch.toNat).entries.length ≤ 16) :
    exec (.rhCapCp t ch) s = .next (withWindow s t { stepped w fr rest 2 12 st with
      staged := (s.dev.winStoreWords (s.dev.potOf t) a ((w.latch.cap ch.toNat).entries.flatMap capWords ++
        List.replicate (32 - 2 * (w.latch.cap ch.toNat).entries.length) 0) w).staged }) := by
  calc exec (.rhCapCp t ch) s = s.lane (fun _ => s.dev.rhCapCp t ch) := rfl
    _ = _ := by
      rw [← capSlots_eq hle]
      exact rhPop_stages h hs fun u => winStoreWords_stages ..

end Sys2Proof.Laws

namespace Sys2Proof.Proofs

open Sys2Proof.Machine Sys2Proof.Safety Sys2Proof.Laws

/-- Settles O31. The elements are pushes of the latch and one pop into what is staged; CAP.CP is a run of checked stores, which
read neither the work units nor the frames. -/
theorem elementsAndCaptures : Obligations.ElementsAndCaptures := by
  unfold Obligations.ElementsAndCaptures
  refine ⟨⟨fun ch el ty => ?value, fun ch el => ?status, fun ch el ty => ?kept, fun ch el => ?rose, fun ch el => ?fell,
    fun ch el ty => ?out, fun ch el ty => ?outget⟩, fun ch => ?count, fun ch => ?further,
    fun ch s t w fr rest a st h hs hle => ?copy⟩
  case value | status | kept | rose | fell | outget | count | further =>
    exact pushes_of_window (fun _ _ => rfl) fun _ _ => rfl
  case out => exact popsTo_of_rhPop fun _ _ => rfl
  case copy => exact capWords_eq ▸ rhCapCp_runs h hs hle

end Sys2Proof.Proofs

/-! ## Time, registers and timers of Rhamet (R213, R214, R220, Table 7.10) -/

namespace Sys2Proof.Laws

open Sys2Proof.Machine Sys2Proof.Safety

variable {n : Nat} {s : State} {t : Fin 64} {w : Window} {fr : Frame} {rest : List Frame}

theorem ofNat_upper (x : BitVec n) : BitVec.ofNat 32 (x.toNat / 2 ^ 32) = (x >>> 32).setWidth 32 := by
  rw [← BitVec.ofNat_toNat, BitVec.toNat_ushiftRight, Nat.shiftRight_eq_div_pow]

/-- What the model pushes for a selector is what Table 7.10 names. -/
theorem time_eq_latchedTime (l : Latch) (sel : TimeSel) : l.time sel = latchedTime l sel := by
  cases sel with
  | msLo | siLo | netMsLo | netSiLo => exact BitVec.ofNat_toNat 32 _
  | msHi | siHi | netMsHi | netSiHi => exact ofNat_upper _
  | wm | cycle | die | netValid => rfl

/-- SELF pushes what its selector names of the task, the pot or the entry. -/
theorem rhSelf_runs {sel : SelfSel} (h : Runs s t 1 w fr rest) :
    exec (.rhSelf t sel) s = .next (withWindow s t (stepped w fr rest 1 1
      (BitVec.ofNat 32 (match sel with | .task => t.val | .pot => s.dev.potOf t | .entry => w.entry.code) :: fr.stack))) :=
  rhPush_runs h _

theorem rhTStart_runs {ms : Bool} {dur a : Word} {st : List Word} (h : Runs s t 1 w fr rest) (hs : fr.stack = dur :: a :: st) :
    exec (.rhTStart t ms) s = .next (withWindow s t { stepped w fr rest 1 6 st with
      staged := (s.dev.winStoreWords (s.dev.potOf t) a
        [BitVec.ofNat 32 (w.latch.base ms), BitVec.ofNat 32 (w.latch.base ms / 2 ^ 32), dur, cellOf ms] w).staged }) := by
  calc exec (.rhTStart t ms) s = s.lane (fun _ => s.dev.rhTStart t ms) := rfl
    _ = _ := by
      unfold Dev.rhTStart
      exact rh_stages h (need := 2) (by simp [hs]) (by simp only [hs, winStoreWords_stages])

/-- A checked load as a count of faults and a value. -/
theorem winLoad_eq (d : Dev) (p n : Nat) (a : Word) (w : Window) :
    d.winLoad p n a w =
      (w.memFault (if (d.winAddr p a.toNat n).isSome then 0 else 1),
        ((d.winAddr p a.toNat n).map (w.loadLE · n)).getD 0) := by
  unfold Dev.winLoad
  cases d.winAddr p a.toNat n <;> rfl

/-- Loading a timer record adds to what is staged and reads nothing of the work units. -/
theorem timerRecord_stages (d : Dev) (p : Nat) (a : Word) (w : Window) (u : Nat) :
    d.timerRecord p a { w with units := u } =
      ({ w with units := u, staged := (d.timerRecord p a w).1.staged }, (d.timerRecord p a w).2) := by
  simp only [Dev.timerRecord, winLoad_eq]
  rfl

theorem rhTimer_runs {cost : Nat} {f : Nat → Nat → Word} {a : Word} {st : List Word} {r : Window × Nat × Nat}
    (h : Runs s t 0 w fr rest) (hs : fr.stack = a :: st) (hr : s.dev.timerRecord (s.dev.potOf t) a w = r) :
    s.lane (fun d => d.rhTimer t cost f) =
      .next (withWindow s t { stepped w fr rest 0 cost (f r.2.1 r.2.2 :: st) with staged := r.1.staged }) := by
  subst hr
  calc s.lane (fun d => d.rhTimer t cost f) = s.lane (fun _ => s.dev.rhTimer t cost f) := rfl
    _ = _ := by
      unfold Dev.rhTimer
      exact rh_stages h (need := 1) (by simp [hs]) (by simp only [hs, timerRecord_stages])

theorem cellOf_decide (p : Prop) [Decidable p] : cellOf (decide p) = truth p := by
  simp [cellOf, truth]

end Sys2Proof.Laws

namespace Sys2Proof.Proofs

open Sys2Proof.Machine Sys2Proof.Safety Sys2Proof.Laws

/-- Settles O32. The latched values are pushes, a timer is a run of four checked stores or loads, which read neither the work
units nor the frames. -/
theorem timeAndTimers : Obligations.TimeAndTimers := by
  unfold Obligations.TimeAndTimers
  refine ⟨⟨fun sel => ?time, fun a => ?read, fun a => ?write, fun s t w fr rest h => ⟨rhSelf_runs h, rhSelf_runs h, ?entry⟩⟩,
    fun ms s t w fr rest dur a st h hs => ?start, fun s t w fr rest a st h hs => ⟨?expired, rhTimer_runs h hs rfl⟩⟩
  case time =>
    simp only [← time_eq_latchedTime]
    exact pushes_of_window (fun _ _ => rfl) fun _ _ => rfl
  case read => exact pushes_of_window (fun _ _ => rfl) fun _ _ => rfl
  case write => exact popsTo_of_rhPop fun _ _ => rfl
  case entry =>
    refine (rhSelf_runs h).trans ?_
    cases w.entry <;> rfl
  case start => exact rhTStart_runs h hs
  case expired =>
    rw [← cellOf_decide]
    exact rhTimer_runs h hs rfl

end Sys2Proof.Proofs

/-! ## Hatches and larder regions of Rhamet (R215 to R217, Table 7.12) -/

namespace Sys2Proof.Laws

open Sys2Proof.Machine Sys2Proof.Safety

variable {s : State} {t : Fin 64} {w : Window} {fr : Frame} {rest : List Frame}

/-! ### Hatches (R215) -/

/-- A choice that holds under a condition only, against a default. -/
theorem getD_own {α : Type} {p : Prop} [Decidable p] (o : Option α) (x y : α) :
    (if p then o else none).getD x = if p ∧ o.isSome then o.getD y else x := by
  by_cases hp : p
  · cases o <;> simp [hp]
  · simp [hp]

theorem rhHRd_runs {h : BitVec 6} {wd : BitVec 4} {ty : RhType} {x : HatchDecl} (hr : Runs s t 2 w fr rest)
    (hx : s.dev.image.hatch h.toNat = some x) :
    exec (.rhHRd t h wd ty) s = .next (withWindow s t (stepped w fr rest 2 2
      (maskWord x.length wd.toNat
        (if x.writer = t.val ∧ (mapFind w.staged.hatch (h.toNat, wd.toNat)).isSome then
          (mapFind w.staged.hatch (h.toNat, wd.toNat)).getD 0
        else BitVec.ofNat 32 (leNat (((w.latch.hatch h.toNat).bytes.drop (4 * wd.toNat)).take 4))) :: fr.stack))) := by
  calc exec (.rhHRd t h wd ty) s = s.lane (fun _ => s.dev.rhHRd t h wd ty) := rfl
    _ = _ := by
      unfold Dev.rhHRd
      rw [hx, ← getD_own]
      exact rhPush_runs hr _

/-! ### Reads of the larder (R216, R243) -/

/-- A row that raises no event changes what its effect on the window changes. -/
theorem act_of_lane {f : Dev → Dev} {w' : Window} (hl : Logged s.dev) (hf : s.lane f = .next (withWindow s t w')) :
    s.act f = .next (withWindow s t w') := by
  have hdev : f s.dev = (withWindow s t w').dev := by
    rw [State.lane_eq] at hf
    injection hf with hf
    exact congrArg State.dev hf
  rw [← hf, act_quiet (by rw [hdev]; exact hl) (by rw [hdev]; rfl)]
  rfl

/-- The LOST bit that a read of a lost group sets stands in the status of a region (R243). -/
theorem markLostRead_regions (d : Dev) (g : Nat) :
    ∃ rs, d.markLostRead g = { d with store := { d.store with regions := rs } } := by
  unfold Dev.markLostRead Dev.onRegion
  split
  · split
    · exact ⟨_, rfl⟩
    · exact ⟨_, rfl⟩
  · exact ⟨_, rfl⟩

variable {r : BitVec 6} {half : Bool} {g : BitVec 15} {ty : RhType}

theorem rhLRd_of_staged {d : Dev} {e : EccFind} {v : Word} (hw : d.cycle.tasks[t].window = some w) (hr : w.status = .running)
    (hv : mapFind w.staged.larder (r.toNat, g.toNat, b2n half) = some v) :
    d.rhLRd t r half g ty e = d.rhPush t 4 6 fun _ _ => v := by
  unfold Dev.rhLRd
  simp only [hw, hr, hv, ne_eq, not_true_eq_false, if_false]

/-- What a half of group `n` reads as, of the larder that a release latched: 0 of a group lost or failed. -/
def latchedHalf (st : StoreState) (n : Nat) (half : Bool) (w : Window) : Word :=
  if st.lost.contains n || st.failed.contains n then 0
  else BitVec.ofNat 32 (leNat (Mem.readBytes larderByte w.latch.larder (8 * n + 4 * b2n half) 4))

/-- A read of a half that the task has not staged, where the check byte shows nothing. -/
theorem rhLRd_of_clean {d : Dev} (hw : d.cycle.tasks[t].window = some w) (hr : w.status = .running)
    (hv : mapFind w.staged.larder (r.toNat, g.toNat, b2n half) = none) :
    d.rhLRd t r half g ty .clean = (d.markLostRead (d.regionGroup r.toNat g.toNat)).rhPush t 4 6 fun w _ =>
      latchedHalf (d.markLostRead (d.regionGroup r.toNat g.toNat)).store (d.regionGroup r.toNat g.toNat) half w := by
  unfold Dev.rhLRd
  simp only [hw, hr, hv, ne_eq, not_true_eq_false, if_false]
  rfl

theorem rhLRd_runs_staged {e : EccFind} {v : Word} (h : Runs s t 4 w fr rest) (hl : Logged s.dev)
    (hv : mapFind w.staged.larder (r.toNat, g.toNat, b2n half) = some v) :
    exec (.rhLRd t r half g ty e) s = .next (withWindow s t (stepped w fr rest 4 6 (v :: fr.stack))) := by
  have ⟨hw, hr, _⟩ := h
  refine act_of_lane (f := fun d => d.rhLRd t r half g ty e) hl ?_
  rw [State.lane_eq, rhLRd_of_staged hw hr hv]
  exact rhPush_runs h _

theorem rhLRd_runs_sound (h : Runs s t 4 w fr rest) (hl : Logged s.dev)
    (hv : mapFind w.staged.larder (r.toNat, g.toNat, b2n half) = none)
    (hlost : s.dev.store.lost.contains (s.dev.regionGroup r.toNat g.toNat) = false)
    (hfailed : s.dev.store.failed.contains (s.dev.regionGroup r.toNat g.toNat) = false) :
    exec (.rhLRd t r half g ty .clean) s = .next (withWindow s t (stepped w fr rest 4 6
      (BitVec.ofNat 32 (leNat (Mem.readBytes larderByte w.latch.larder
        (8 * s.dev.regionGroup r.toNat g.toNat + 4 * b2n half) 4)) :: fr.stack))) := by
  have ⟨hw, hr, _⟩ := h
  have hmark : s.dev.markLostRead (s.dev.regionGroup r.toNat g.toNat) = s.dev := by
    simp only [Dev.markLostRead, hlost, hfailed, Bool.or_false, Bool.false_eq_true, if_false]
  refine act_of_lane (f := fun d => d.rhLRd t r half g ty .clean) hl ?_
  rw [State.lane_eq, rhLRd_of_clean hw hr hv, hmark]
  simp only [latchedHalf, hlost, hfailed, Bool.or_false, Bool.false_eq_true, if_false]
  exact rhPush_runs h _

/-- The window after a push on a device `d` on which the task's window runs, whatever else of `d` differs from `s`. -/
theorem rhPush_window {d : Dev} {imm cost : Nat} {v : Window → Frame → Word}
    (h : Runs { s with dev := d } t imm w fr rest) :
    (d.rhPush t imm cost v).cycle.tasks[t].window = some (stepped w fr rest imm cost
      (v { w with units := w.units + cost } { fr with pc := fr.pc + 1 + imm } :: fr.stack)) := by
  have hpush := rhPush_runs h (cost := cost) v
  rw [State.lane_eq] at hpush
  injection hpush with hpush
  rw [show d.rhPush t imm cost v = _ from congrArg State.dev hpush]
  simp [withWindow]

theorem rhLRd_completes_lost (h : Runs s t 4 w fr rest) (hv : mapFind w.staged.larder (r.toNat, g.toNat, b2n half) = none)
    (hlost : s.dev.store.lost.contains (s.dev.regionGroup r.toNat g.toNat) = true) :
    Completes (.rhLRd t r half g ty .clean) s
      (fun d => d.cycle.tasks[t].window = some (stepped w fr rest 4 6 (0 :: fr.stack))) := by
  have ⟨hw, hr, _⟩ := h
  obtain ⟨rs, hmark⟩ := markLostRead_regions s.dev (s.dev.regionGroup r.toNat g.toNat)
  refine completes_of_act rfl ?_
  show ((s.dev.rhLRd t r half g ty .clean).cycle.tasks[t]).window = _
  rw [rhLRd_of_clean hw hr hv, hmark]
  simp only [latchedHalf, hlost, Bool.true_or, if_true]
  exact rhPush_window (s := s) h

/-! ### Writes of the larder (R217) -/

theorem rhLWr_runs_room {v : Word} {st : List Word}
    (h : Runs s t 4 w fr rest) (hs : fr.stack = v :: st) (hroom : w.staged.groupsOf.length < 512) :
    exec (.rhLWr t r half g ty) s = .next (withWindow s t { stepped w fr rest 4 6 st with
      staged := { w.staged with larder := mapPut w.staged.larder (r.toNat, g.toNat, b2n half) v } }) :=
  rhPop_stages h hs fun u => by simp [hroom]

theorem rhLWr_runs_overflow {v : Word} {st : List Word}
    (h : Runs s t 4 w fr rest) (hs : fr.stack = v :: st) (hfull : 512 ≤ w.staged.groupsOf.length)
    (hnew : (r.toNat, g.toNat) ∉ w.staged.groupsOf) :
    exec (.rhLWr t r half g ty) s = .next (withWindow s t { stepped w fr rest 4 6 st with
      staged := { w.staged with overflow := r.toNat :: w.staged.overflow } }) :=
  rhPop_stages h hs fun u => by simp [hnew, Nat.not_lt.mpr hfull]

end Sys2Proof.Laws

namespace Sys2Proof.Proofs

open Sys2Proof.Machine Sys2Proof.Safety Sys2Proof.Laws

/-- Settles O33. A hatch word is a push or a pop into what is staged; a read of the larder is a push of the staged half, or of
the latched one once LOST is marked; a write asks first how many groups are staged. -/
theorem hatchesAndLarder : Obligations.HatchesAndLarder := by
  unfold Obligations.HatchesAndLarder
  refine ⟨⟨fun h wd ty x s t w fr rest hr hx => rhHRd_runs hr hx, fun h wd ty => ?hatch, fun h => ?gen⟩,
    fun r half g ty e v s t w fr rest h hl hv => rhLRd_runs_staged h hl hv,
    fun r half g ty s t w fr rest h hl hv hlost hfailed => ?sound,
    fun r half g ty s t w fr rest v st h hs hroom => rhLWr_runs_room h hs hroom,
    fun r half g ty s t w fr rest v st h hs hfull hnew => rhLWr_runs_overflow h hs hfull hnew,
    fun r half g ty s t w fr rest h _ hv hlost => rhLRd_completes_lost h hv hlost, fun r => ?status⟩
  case hatch => exact popsTo_of_rhPop fun _ _ => rfl
  case gen | status => exact pushes_of_window (fun _ _ => rfl) fun _ _ => rfl
  case sound =>
    have hofs : (if half then 4 else 0) = 4 * b2n half := by cases half <;> rfl
    rw [hofs]
    exact rhLRd_runs_sound h hl hv hlost hfailed

end Sys2Proof.Proofs

/-! ## Scripts and face requests staged by Rhamet (R218, R219, R221, Table 7.12) -/

namespace Sys2Proof.Proofs

open Sys2Proof.Machine Sys2Proof.Safety Sys2Proof.Laws

/-- Settles O34. Each row is a push of the latch, or one change of what is staged with or without a cell popped. -/
theorem scriptsAndFaceStaged : Obligations.ScriptsAndFaceStaged := by
  unfold Obligations.ScriptsAndFaceStaged
  refine ⟨fun n => ?run, fun n => ?stop, fun n k => ?param, fun n => ?slot, fun r => ?rect, fun r => ?abort, fun k => ?stencil,
    fun r => ?face⟩
  case run | stop | abort | stencil => exact stages_of_rhStage fun _ _ => rfl
  case param | rect => exact popsTo_of_rhPop fun _ _ => rfl
  case slot | face => exact pushes_of_window (fun _ _ => rfl) fun _ _ => rfl

end Sys2Proof.Proofs

/-! ## STORE commands: refused, begun, ended and aborted (R224, R229, R231 to R234, R240, Table 8.4) -/

namespace Sys2Proof.Laws

open Sys2Proof.Machine Sys2Proof.Safety

variable {d : Dev} {b : Bool}

/-! ### A command that is refused -/

/-- The candidate of a switch is not erased, also while the switch is being verified. -/
theorem storeErase_candidate (hn : d.store.busy = none) (hc : d.store.candidate b = true) :
    d.storeErase b = storeAnswer d 1 5 := by
  unfold Dev.storeErase
  rw [hn, hc]
  rfl

theorem storeErase_busy (hb : d.store.isBusy = true) (h : d.store.busy.isSome = true ∨ d.store.candidate b = false) :
    d.storeErase b = storeAnswer d 1 2 := by
  have hfree : (d.store.busy.isNone && d.store.candidate b) = false := by
    rcases h with h | h
    · rw [Option.isNone_eq_false_iff.mpr h, Bool.false_and]
    · rw [h, Bool.and_false]
  unfold Dev.storeErase
  rw [if_neg (by simp [hfree]), if_pos hb]
  rfl

/-- Every other command is refused while one is in progress (R229). -/
theorem storeCommands_busy (hb : d.store.isBusy = true) (priv : Bool) :
    d.storeWrite b = storeAnswer d 2 2 ∧ d.storeSeal b = storeAnswer d 3 2 ∧ d.storeSwitch b = storeAnswer d 4 2 ∧
      d.txnBegin = storeAnswer d 6 2 ∧ d.txnWrite = storeAnswer d 7 2 ∧ d.txnCommit = storeAnswer d 8 2 ∧
      d.storeProvision priv = storeAnswer d 9 2 :=
  ⟨if_pos hb, if_pos hb, if_pos hb, if_pos hb, if_pos hb, if_pos hb, if_pos hb⟩

/-! ### A command that begins -/

theorem storeErase_begins (hb : d.store.isBusy = false) (hm : (d.store.bank b).mode ≠ .active)
    (hc : d.store.candidate b = false) :
    d.storeErase b = { d with store := { d.store.setBank b
        { d.store.bank b with mode := if (d.store.bank b).mode = .empty then .empty else .writing } with
      busy := some (.erase b), progress := 127, op := 1 } } := by
  unfold Dev.storeErase
  rw [if_neg (by simp [hc]), if_neg (by simp [hb]), if_neg hm]
  rfl

theorem storeWrite_begins (hb : d.store.isBusy = false)
    (hm : (d.store.bank b).mode = .empty ∨ (d.store.bank b).mode = .writing) (ho : d.store.arg0.toNat % 4 = 0)
    (hl : d.store.arg1.toNat % 4 = 0) (hmin : 4 ≤ d.store.arg1.toNat) (hmax : d.store.arg1.toNat ≤ 256)
    (hend : d.store.arg0.toNat + d.store.arg1.toNat ≤ 1048576) :
    d.storeWrite b = { d with store := { d.store.setBank b { d.store.bank b with mode := .writing } with
      busy := some (.write b d.store.arg0.toNat (d.store.bufBytes.take d.store.arg1.toNat)), op := 2 } } := by
  have hlen : bitsOf d.store.arg1.toNat 8 0 = d.store.arg1.toNat := Nat.mod_eq_of_lt (by omega)
  have hargs : (decide (d.store.arg1.toNat ≥ 512) || d.store.arg0.toNat % 4 != 0 || d.store.arg1.toNat % 4 != 0 ||
      decide (d.store.arg1.toNat < 4) || decide (256 < d.store.arg1.toNat) ||
      decide (1048576 < d.store.arg0.toNat + d.store.arg1.toNat)) = false := by
    simp only [ho, hl, bne_self_eq_false, Bool.or_false, Bool.or_eq_false_iff, decide_eq_false_iff_not]
    omega
  unfold Dev.storeWrite
  simp only [hlen, hb, hargs, Bool.false_eq_true, if_false]
  rcases hm with hm | hm <;> simp only [hm] <;> rfl

theorem storeSeal_begins (hb : d.store.isBusy = false) (hm : (d.store.bank b).mode = .writing) :
    d.storeSeal b = { d with store := { d.store with busy := some (.seal b), progress := 127, op := 3 } } := by
  unfold Dev.storeSeal
  simp only [hb, hm, Bool.false_eq_true, if_false]
  rfl

/-- SWITCH of a COMPLETE bank of a later generation, or of any generation with ROLLBACK (R233). -/
theorem storeSwitch_begins (hb : d.store.isBusy = false) (hm : (d.store.bank b).mode = .complete)
    (ht : d.sys.mode ≠ .tollgate) (hs : d.store.sw = .idle) (ha : d.store.arg1.toNat < 2 ^ 19)
    (hg : d.store.arg1.getLsbD 18 = true ∨ d.image.generation < (d.store.bank b).generation) :
    d.storeSwitch b = { d with store := { d.store with
      sw := .verifying b d.store.arg0.toNat (d.store.arg1.toNat % 2 ^ 16) (d.store.arg1.getLsbD 16) (d.store.arg1.getLsbD 17)
      progress := 127, op := 4 } } := by
  have hgen : (!bitOf d.store.arg1.toNat 18 && decide ((d.store.bank b).generation ≤ d.image.generation)) = false := by
    rcases hg with hg | hg
    · rw [show bitOf d.store.arg1.toNat 18 = true from hg]
      rfl
    · rw [decide_eq_false (Nat.not_le.mpr hg), Bool.and_false]
  unfold Dev.storeSwitch
  simp only [hb, hm, ht, hs, hgen, Nat.not_le.mpr ha, Bool.false_eq_true, if_false, decide_false, bne_self_eq_false,
    Bool.or_self, reduceCtorEq]
  rfl

theorem txnBegin_begins {reg : LarderRegion} (hb : d.store.isBusy = false) (ha : d.store.arg0.toNat < 64)
    (hr : d.image.region d.store.arg0.toNat = some reg) (hj : reg.journaled = true) (ht : d.store.txn = none) :
    d.txnBegin = storeDone { d with store := { d.store with
      txn := some { region := d.store.arg0.toNat, groups := [] } } } 6 := by
  unfold Dev.txnBegin
  simp only [hb, hr, hj, ht, Nat.not_le.mpr ha, Bool.false_eq_true, if_false, Bool.not_true, Option.isSome_none]
  rfl

/-- TXN_WRITE of groups inside the region, with room for them in the transaction. -/
theorem txnWrite_begins {t : HostTxn} {reg : LarderRegion} (hb : d.store.isBusy = false) (ht : d.store.txn = some t)
    (hr : d.image.region t.region = some reg) (hmin : 1 ≤ d.store.arg1.toNat) (hmax : d.store.arg1.toNat ≤ 32)
    (hg : d.store.arg0.toNat < 2 ^ 15) (hsize : d.store.arg0.toNat + d.store.arg1.toNat ≤ reg.groups)
    (hroom : t.groups.length + d.store.arg1.toNat ≤ 512) :
    d.txnWrite = storeDone { d with store := { d.store with txn := some { t with
      groups := (upTo d.store.arg1.toNat).foldl (fun gs k =>
        setGroup gs (d.store.arg0.toNat + k) ((d.store.bufBytes.drop (8 * k)).take 8)) t.groups } } } 7 := by
  have hargs : ¬(2 ^ 15 ≤ d.store.arg0.toNat ∨ 64 ≤ d.store.arg1.toNat) := by omega
  have hcount : ¬((d.store.arg1.toNat < 1 ∨ 32 < d.store.arg1.toNat) ∨
      reg.groups < d.store.arg0.toNat + d.store.arg1.toNat) := by omega
  have hfull : ¬512 - d.store.arg1.toNat < t.groups.length := by omega
  unfold Dev.txnWrite
  simp only [hb, ht, hr, hargs, hcount, hfull, Bool.or_eq_true, decide_eq_true_eq, Bool.false_eq_true, if_false]
  rfl

/-! ### PROVISION (R240) -/

/-- A write of a group that has not failed waits behind the others. -/
theorem writeImmBy_sound {s : StoreState} {g : Nat} (host : Bool) (bs : List Byte) (hf : g ∉ s.failed) :
    s.writeImmBy host g bs = { s with queue := s.queue ++ [.imm g bs host], lost := s.lost.filter (· != g) } := by
  unfold StoreState.writeImmBy
  rw [if_neg (by simpa using hf)]

/-- Groups of STORE.BUF that a host writes to groups which have not failed wait in their order; beside the queue only what is lost
changes. -/
theorem foldl_writeImmBy_buf (first : Nat) (l : List Nat) (s : StoreState) (hf : ∀ k ∈ l, first + k ∉ s.failed) :
    ∃ lost, l.foldl (fun s k => s.writeImmBy true (first + k) ((s.bufBytes.drop (8 * k)).take 8)) s = { s with
      queue := s.queue ++ l.map fun k => .imm (first + k) ((s.bufBytes.drop (8 * k)).take 8) true, lost } := by
  induction l generalizing s with
  | nil => exact ⟨s.lost, by simp⟩
  | cons k l ih =>
    have hk := writeImmBy_sound true ((s.bufBytes.drop (8 * k)).take 8) (hf k (by simp))
    obtain ⟨lost, h⟩ := ih (s.writeImmBy true (first + k) ((s.bufBytes.drop (8 * k)).take 8)) fun j hj => by
      rw [hk]
      exact hf j (by simp [hj])
    refine ⟨lost, ?_⟩
    rw [List.foldl_cons, h, hk]
    simp [StoreState.bufBytes]

/-- PROVISION of a slot that may be written, whose groups have not failed. -/
theorem storeProvision_begins {priv : Bool} {first : Nat} (hb : d.store.isBusy = false) (ha : d.store.arg0.toNat < 2)
    (hfirst : first = 4 * d.store.arg0.toNat) (hprov : d.sys.provEn = true)
    (hblank : priv = true ∨ ∀ k < 4, ∀ y ∈ d.store.group (first + k), y = 0) (hf : ∀ k < 4, first + k ∉ d.store.failed) :
    ∃ lost, d.storeProvision priv = { d with store := { d.store with
      hostLost := false, lost, busy := some (.provision 4), op := 9
      queue := d.store.queue ++ (upTo 4).map fun k => .imm (first + k) ((d.store.bufBytes.drop (8 * k)).take 8) true } } := by
  have hslot : (if d.store.arg0 = 1 then 4 else 0) = first := by
    have hone : d.store.arg0 = 1 ↔ d.store.arg0.toNat = 1 := by simp [BitVec.toNat_eq]
    simp only [hone]
    split <;> omega
  have hmay : (!d.sys.provEn || (!(upTo 4).all (fun k => (d.store.group (first + k)).all (· == 0)) && !priv)) = false := by
    rcases hblank with hp | hz
    · simp [hprov, hp]
    · have hall : (upTo 4).all (fun k => (d.store.group (first + k)).all (· == 0)) = true := by
        simpa [upTo] using hz
      rw [hall, hprov]
      rfl
  have hleft : ((upTo 4).filter fun k => !d.store.failed.contains (first + k)).length = 4 := by
    rw [List.filter_eq_self.mpr (by simpa [upTo] using hf)]
    rfl
  obtain ⟨lost, hqueued⟩ := foldl_writeImmBy_buf first (upTo 4) { d.store with hostLost := false } (by simpa [upTo] using hf)
  refine ⟨lost, ?_⟩
  unfold Dev.storeProvision
  simp only [hslot, hmay, hleft, hb, Nat.not_le.mpr ha, Bool.false_eq_true, if_false, OfNat.ofNat_ne_zero, Dev.onStore, hqueued]
  rfl

/-! ### A command that ends -/

theorem storeEraseEnd_of_erase (hb : d.store.busy = some (.erase b)) : d.storeEraseEnd =
    commitPoint { d with store := { d.store.setBank b Bank.blank with progress := 100 } } 1 := by
  unfold Dev.storeEraseEnd
  rw [hb]
  rfl

theorem storeWriteEnd_of_write {ofs : Nat} {bs : List Byte} (hb : d.store.busy = some (.write b ofs bs)) :
    d.storeWriteEnd = commitPoint { d with store := d.store.setBank b ((d.store.bank b).put ofs bs) } 2 := by
  unfold Dev.storeWriteEnd
  rw [hb]
  rfl

/-- SEAL marks a bank whose checks hold, and answers BAD_IMAGE for any other (R224). -/
theorem sealComplete_of_seal (hb : d.store.busy = some (.seal b)) : d.sealComplete =
    if (d.store.bank b).sealOk then
      commitPoint { d with store := { d.store.setBank b { d.store.bank b with mode := .complete } with progress := 100 } } 3
    else storeAnswer { d with store := { d.store with busy := none } } 3 7 := by
  unfold Dev.sealComplete
  rw [hb]
  rfl

/-! ### ABORT (R232) -/

theorem storeAbort_erase (hb : d.store.busy = some (.erase b)) (n : Nat) : d.storeAbort n = storeAnswer
    { d with store := { d.store.setBank b { d.store.bank b with mode := .writing } with busy := none } } 1 0xB := by
  unfold Dev.storeAbort
  rw [hb]
  rfl

theorem storeAbort_write {ofs : Nat} {bs : List Byte} (hb : d.store.busy = some (.write b ofs bs)) (n : Nat) :
    d.storeAbort n = storeAnswer { d with store :=
      { d.store.setBank b ((d.store.bank b).put ofs (bs.take (4 * n))) with busy := none } } 2 0xB := by
  unfold Dev.storeAbort
  rw [hb]
  rfl

theorem storeAbort_seal (hb : d.store.busy = some (.seal b)) (n : Nat) :
    d.storeAbort n = storeAnswer { d with store := { d.store with busy := none } } 3 0xB := by
  unfold Dev.storeAbort
  rw [hb]
  rfl

theorem storeAbort_switch (hb : d.store.busy = none) (hs : d.store.sw ≠ .idle) (n : Nat) :
    d.storeAbort n = storeAnswer { d with store := { d.store with sw := .idle } } 4 0xB := by
  unfold Dev.storeAbort
  rw [hb]
  exact if_pos (bne_iff_ne.mpr hs)

/-- With no command and no switch in progress a host transaction is aborted; OP names the TXN_BEGIN that opened it (DEDUCED, log
51). -/
theorem storeAbort_txn (hb : d.store.busy = none) (hs : d.store.sw = .idle) (ht : d.store.txn.isSome = true) (n : Nat) :
    d.storeAbort n = storeAnswer { d with store := { d.store with txn := none } } 6 0xB := by
  unfold Dev.storeAbort
  rw [hb, hs, ht]
  rfl

/-! ### Answers raise no event -/

theorem setBank_logPend (s : StoreState) (b : Bool) (x : Bank) : (s.setBank b x).logPend = s.logPend := by
  cases b <;> rfl

end Sys2Proof.Laws

namespace Sys2Proof.Proofs

open Sys2Proof.Machine Sys2Proof.Safety Sys2Proof.Laws

/-- Settles O35. Each command is judged on the device alone: it answers, or begins with one change of the store. -/
theorem storeCommandsJudged : Obligations.StoreCommandsJudged := by
  unfold Obligations.StoreCommandsJudged
  intro b priv s hl d st x
  refine ⟨fun hn hc => ?candidate, fun hb => ⟨fun h => ?eraseBusy, ?others⟩, fun hb => ⟨fun hm hc => ?erase,
    fun hm ho hlen hmin hmax hend => ?write, fun hm => ?sealBegins, fun hm ht hs ha hg => ?verify, fun reg ha hr hj ht => ?begin,
    fun t reg ht hr hmin hmax hg hsize hroom => ?stage, fun first ha hfirst hprov hblank hf => ?provision⟩⟩
  case candidate => exact becomes_of_quiet rfl (storeErase_candidate hn hc) hl rfl
  case eraseBusy => exact becomes_of_quiet rfl (storeErase_busy hb h) hl rfl
  case others =>
    obtain ⟨hwrite, hseal, hswitch, hbegin, hstage, hcommit, hprovision⟩ := storeCommands_busy (b := b) hb priv
    exact ⟨becomes_of_quiet rfl hwrite hl rfl, becomes_of_quiet rfl hseal hl rfl, becomes_of_quiet rfl hswitch hl rfl,
      becomes_of_quiet rfl hbegin hl rfl, becomes_of_quiet rfl hstage hl rfl, becomes_of_quiet rfl hcommit hl rfl,
      becomes_of_quiet rfl hprovision hl rfl⟩
  case erase => exact becomes_of_quiet rfl (storeErase_begins hb hm hc) ((setBank_logPend st b _).trans hl) rfl
  case write =>
    exact becomes_of_quiet rfl (storeWrite_begins hb hm ho hlen hmin hmax hend) ((setBank_logPend st b _).trans hl) rfl
  case sealBegins => exact becomes_of_quiet rfl (storeSeal_begins hb hm) hl rfl
  case verify => exact becomes_of_quiet rfl (storeSwitch_begins hb hm ht hs ha hg) hl rfl
  case begin => exact becomes_of_quiet rfl (txnBegin_begins hb ha hr hj ht) hl rfl
  case stage => exact becomes_of_quiet rfl (txnWrite_begins hb ht hr hmin hmax hg hsize hroom) hl rfl
  case provision =>
    obtain ⟨lost, h⟩ := storeProvision_begins hb ha hfirst hprov hblank hf
    exact ⟨_, becomes_of_quiet rfl h hl rfl, rfl, rfl, rfl, rfl⟩

/-- Settles O36. Each end and each ABORT is one answer beside what the command leaves of its bank, and raises no event. -/
theorem storeCommandsEnd : Obligations.StoreCommandsEnd := by
  unfold Obligations.StoreCommandsEnd
  intro b s hl d st x
  have hbank : ∀ y, (st.setBank b y).logPend = [] := fun y => (setBank_logPend st b y).trans hl
  refine ⟨fun hb => ⟨?erased, fun n => ?eraseAborted⟩, fun ofs bs hb => ⟨?written, fun n => ?writeAborted⟩,
    fun hb => ⟨fun hok => ?sealed, fun hbad => ?badImage, fun n => ?sealAborted⟩, fun hb hs n => ?switchAborted,
    fun hb hs ht n => ?txnAborted⟩
  case erased => exact becomes_of_quiet rfl (storeEraseEnd_of_erase hb) (hbank _) rfl
  case eraseAborted => exact becomes_of_quiet rfl (storeAbort_erase hb n) (hbank _) rfl
  case written => exact becomes_of_quiet rfl (storeWriteEnd_of_write hb) (hbank _) rfl
  case writeAborted => exact becomes_of_quiet rfl (storeAbort_write hb n) (hbank _) rfl
  case sealed => exact becomes_of_quiet rfl ((sealComplete_of_seal hb).trans (if_pos hok)) (hbank _) rfl
  case badImage => exact becomes_of_quiet rfl ((sealComplete_of_seal hb).trans (if_neg (ne_true_of_eq_false hbad))) hl rfl
  case sealAborted => exact becomes_of_quiet rfl (storeAbort_seal hb n) hl rfl
  case switchAborted => exact becomes_of_quiet rfl (storeAbort_switch hb hs n) hl rfl
  case txnAborted => exact becomes_of_quiet rfl (storeAbort_txn hb hs ht n) hl rfl

end Sys2Proof.Proofs

/-! ## Larder writes: landing, remapping, journaled transactions and the wear counters (R231, R241 to R253) -/

namespace Sys2Proof.Laws

open Sys2Proof.Machine Sys2Proof.Safety

/-! ### What the fault log leaves of the store (R570) -/

section logFlush

variable (d : Dev)

@[simp] theorem logFlush_home : d.logFlush.store.home = d.store.home := by rw [logFlush_store]
@[simp] theorem logFlush_wear : d.logFlush.store.wear = d.store.wear := by rw [logFlush_store]
@[simp] theorem logFlush_failed : d.logFlush.store.failed = d.store.failed := by rw [logFlush_store]
@[simp] theorem logFlush_noSpare : d.logFlush.store.noSpare = d.store.noSpare := by rw [logFlush_store]
@[simp] theorem logFlush_spares : d.logFlush.store.spares = d.store.spares := by rw [logFlush_store]
@[simp] theorem logFlush_remap : d.logFlush.store.remap = d.store.remap := by rw [logFlush_store]

end logFlush

/-- The count of a wear block is read from the counts alone. -/
theorem wearOf_eq_of_wear {s u : StoreState} (h : u.wear = s.wear) (b : Nat) : u.wearOf b = s.wearOf b := by
  unfold StoreState.wearOf
  rw [h]

theorem foldl_queue_prefix {α : Type} {f : StoreState → α → StoreState} (hf : ∀ s a, s.queue <+: (f s a).queue)
    (l : List α) (s : StoreState) : s.queue <+: (l.foldl f s).queue := by
  induction l generalizing s with
  | nil => exact List.prefix_rfl
  | cons a l ih => exact (hf s a).trans (ih _)

theorem writeImm_queue_prefix (s : StoreState) (g : Nat) (b : List Byte) : s.queue <+: (s.writeImm g b).queue := by
  unfold StoreState.writeImm StoreState.writeImmBy
  split
  · exact List.prefix_rfl
  · exact List.prefix_append _ _

/-- The entries of the log are queued behind the writes that wait. -/
theorem logFlush_queue_prefix (d : Dev) : d.store.queue <+: d.logFlush.store.queue := by
  refine foldl_queue_prefix (f := writeEntry d.logStamp) (fun s e => ?_) d.store.logPend { d.store with logPend := [] }
  unfold writeEntry
  split
  · exact List.prefix_rfl
  · exact foldl_queue_prefix (fun u (p : List Byte × Nat) => writeImm_queue_prefix u _ p.1) _ s

/-! ### A group as every load sees it (R243, R244) -/

theorem queuedGroup_append_imm_ne {g h : Nat} (hgh : h ≠ g) (b : List Byte) (host : Bool) (q : List LarderWrite) :
    queuedGroup g (q ++ [.imm h b host]) = queuedGroup g q := by
  induction q with
  | nil => simp [queuedGroup, hgh]
  | cons w q ih => simp only [List.cons_append, queuedGroup, ih]

/-- A write of another group leaves what a load of this one sees. -/
theorem group_writeImm_ne (s : StoreState) {g h : Nat} (hgh : h ≠ g) (b : List Byte) :
    (s.writeImm h b).group g = s.group g := by
  have hlost : (s.lost.filter (· != h)).contains g = s.lost.contains g := by
    rw [Bool.eq_iff_iff]
    simp [Ne.symm hgh]
  unfold StoreState.writeImm StoreState.writeImmBy
  split
  · rfl
  · simp only [StoreState.group, queuedGroup_append_imm_ne hgh, hlost]

/-- Writes of other groups leave what a load of a group sees. -/
theorem foldl_writeImm_group {α : Type} {group : α → Nat} (bytes : StoreState → α → List Byte) {g : Nat} (l : List α)
    (hl : ∀ a ∈ l, group a ≠ g) (s : StoreState) :
    (l.foldl (fun s a => s.writeImm (group a) (bytes s a)) s).group g = s.group g := by
  induction l generalizing s with
  | nil => rfl
  | cons a l ih =>
    rw [List.foldl_cons, ih fun x hx => hl x (List.mem_cons_of_mem a hx)]
    exact group_writeImm_ne s (hl a List.mem_cons_self) _

/-- The fault log lies in groups 0x600 to 0x8FF. -/
theorem logFlush_group (d : Dev) {g : Nat} (hg : 0x900 ≤ g) : d.logFlush.store.group g = d.store.group g := by
  have hentry : ∀ (s : StoreState) (e : LogEvent), (writeEntry d.logStamp s e).group g = s.group g := by
    intro s e
    unfold writeEntry
    split
    · rfl
    · refine foldl_writeImm_group (group := fun p : List Byte × Nat => 0x600 + 4 * (s.logSeq % 192) + p.2)
        (fun _ p => p.1) _ (fun p hp => ?_) s
      have hlt : p.2 < 4 := (List.mem_zipIdx' hp).1
      omega
  show (d.store.logPend.foldl (writeEntry d.logStamp) { d.store with logPend := [] }).group g = d.store.group g
  induction d.store.logPend using List.reverseRecOn with
  | nil => rfl
  | append_singleton l e ih => rw [List.foldl_append, List.foldl_cons, List.foldl_nil, hentry, ih]

/-! ### Counting a write (R253) -/

theorem countWear_wear (d : Dev) (g : Nat) : (d.countWear g).store.wear =
    (g / 64, d.store.wearOf (g / 64) + 1) :: d.store.wear.filter (fun p => p.1 != g / 64) := by
  unfold Dev.countWear
  extract_lets b n d1
  split <;> rfl

theorem countWear_wearOf (d : Dev) (g : Nat) :
    (d.countWear g).store.wearOf (g / 64) = d.store.wearOf (g / 64) + 1 := by
  rw [StoreState.wearOf, countWear_wear]
  simp

/-- A group written home whose read-back holds: its cells, and one write more in the count of its block. -/
theorem writeHome_true (d : Dev) (g : Nat) (b : List Byte) (host : Bool) :
    (d.writeHome g b true host).store.home = Mem.writeBytes larderByte d.store.home (8 * g) b ∧
      (d.writeHome g b true host).store.wearOf (g / 64) = d.store.wearOf (g / 64) + 1 ∧
      (d.writeHome g b true host).store.queue = d.store.queue := by
  obtain ⟨lost, result, hostLost, h⟩ := writeHome_sound d g b host
  rw [h]
  exact ⟨rfl, countWear_wearOf d g, rfl⟩

/-! ### A group that is retired (R242, R244) -/

/-- The status of a group's region lies in the status of the regions. -/
theorem onRegion_regions (d : Dev) (g : Nat) (f : RegionStat → RegionStat) :
    ∃ rs, d.onRegion g f = { d with store := { d.store with regions := rs } } := by
  unfold Dev.onRegion
  split
  · exact ⟨_, rfl⟩
  · exact ⟨d.store.regions, rfl⟩

/-- With no spare left the group is failed, and nothing is written. -/
theorem retireGroup_spent {d : Dev} (g cause : Nat) (h : d.store.spares = 0) :
    g ∈ (d.retireGroup g cause).store.failed ∧ (d.retireGroup g cause).store.noSpare = true ∧
      (d.retireGroup g cause).store.home = d.store.home := by
  unfold Dev.retireGroup
  rw [if_pos h]
  obtain ⟨rs, hrs⟩ := onRegion_regions (d.onStore fun s =>
    { s with failed := g :: s.failed.filter (· != g), lost := g :: s.lost.filter (· != g), noSpare := true }) g
    (fun r => { r with lost := true })
  rw [hrs]
  exact ⟨List.mem_cons_self, rfl, rfl⟩

/-- The larder after the row of spare `k`, which now holds group `g`, is written to both copies of the remap table. -/
def remapped (s : StoreState) (g k : Nat) : Mem :=
  let row := ({ s with remap := (g, k) :: s.remap } : StoreState).remapGroup (k / 4)
  Mem.writeBytes larderByte (Mem.writeBytes larderByte s.home (8 * (0x200 + k / 4)) row) (8 * (0x400 + k / 4)) row

/-- A group that is retired takes the lowest free spare, whose row is written to both copies of the remap table. -/
theorem retireGroup_spare {d : Dev} (g cause : Nat) (h : d.store.spares ≠ 0) :
    (d.retireGroup g cause).store.home = remapped d.store g (2048 - d.store.spares) ∧
      (d.retireGroup g cause).store.spares = d.store.spares - 1 ∧
      (d.retireGroup g cause).store.remap = (g, 2048 - d.store.spares) :: d.store.remap := by
  unfold Dev.retireGroup
  rw [if_neg h]
  extract_lets k d1 row
  obtain ⟨rs, hrs⟩ := onRegion_regions ((d1.cellWrite (0x200 + k / 4) row).cellWrite (0x400 + k / 4) row) g
    (fun r => { r with retired := true })
  rw [hrs, cellWrite_keeps, cellWrite_keeps]
  exact ⟨rfl, rfl, rfl⟩

/-- A write that cannot be read back, with no spare left. -/
theorem writeHome_spent {d : Dev} (g : Nat) (b : List Byte) (h : d.store.spares = 0) :
    g ∈ (d.writeHome g b false false).store.failed ∧ (d.writeHome g b false false).store.noSpare = true ∧
      (d.writeHome g b false false).store.home = d.store.home := by
  have hspares : (d.countWear g).store.spares = 0 := by rw [countWear_keeps]; exact h
  have hhome : (d.countWear g).store.home = d.store.home := by rw [countWear_keeps]
  obtain ⟨hfailed, hmark, hkept⟩ := retireGroup_spent g 2 hspares
  unfold Dev.writeHome
  rw [if_neg Bool.false_ne_true, if_pos h]
  exact ⟨hfailed, hmark, hkept.trans hhome⟩

/-- A write that cannot be read back is made again in the next spare group, which the group keeps. -/
theorem writeHome_spare {d : Dev} (g : Nat) (b : List Byte) (h : d.store.spares ≠ 0) :
    (d.writeHome g b false false).store.home =
        Mem.writeBytes larderByte (remapped d.store g (2048 - d.store.spares)) (8 * g) b ∧
      (d.writeHome g b false false).store.spares = d.store.spares - 1 ∧
      (d.writeHome g b false false).store.remap = (g, 2048 - d.store.spares) :: d.store.remap := by
  have hcount : (d.countWear g).store.spares = d.store.spares ∧ (d.countWear g).store.remap = d.store.remap ∧
      remapped (d.countWear g).store g = remapped d.store g := by
    rw [countWear_keeps]
    exact ⟨rfl, rfl, rfl⟩
  obtain ⟨hspares, hremap, hrow⟩ := hcount
  obtain ⟨hhome, hleft, hmap⟩ := retireGroup_spare (d := d.countWear g) g 2 (by rwa [hspares])
  rw [hspares] at hhome hleft hmap
  rw [hrow] at hhome
  rw [hremap] at hmap
  rw [← hhome, ← hleft, ← hmap]
  unfold Dev.writeHome
  rw [if_neg Bool.false_ne_true, if_neg h]
  dsimp only [Dev.onStore]
  rw [cellWrite_keeps]
  split <;> exact ⟨rfl, rfl, rfl⟩

/-! ### Eight bytes written to a group's cells -/

section cells

variable {m : Mem} (hm : Memory.wf larderByte m = true) {g h : Nat} {bs : List Byte} (hb : bs.length = 8)
include hm hb

/-- A byte of another group reads as before. -/
theorem read_writeGroup_ne {a : Nat} (ha : a / 8 ≠ g) :
    Mem.read larderByte (Mem.writeBytes larderByte m (8 * g) bs) a = Mem.read larderByte m a := by
  rw [Mem.read_writeBytes hm]
  split
  · rw [List.getElem?_eq_none (by omega)]
  · rfl

theorem readBytes_writeGroup_same : Mem.readBytes larderByte (Mem.writeBytes larderByte m (8 * g) bs) (8 * g) 8 = bs := by
  rw [readBytes_eq_map]
  refine List.ext_getElem (by simp [upTo, hb]) fun i hi hi' => ?_
  rw [List.getElem_map, Mem.read_writeBytes hm]
  simp [upTo, hi']

theorem readBytes_writeGroup_ne (hgh : h ≠ g) : Mem.readBytes larderByte (Mem.writeBytes larderByte m (8 * g) bs) (8 * h) 8 =
    Mem.readBytes larderByte m (8 * h) 8 := by
  rw [readBytes_eq_map, readBytes_eq_map]
  refine List.map_congr_left fun i hi => read_writeGroup_ne hm hb ?_
  have hi8 : i < 8 := List.mem_range.mp hi
  omega

end cells

/-- A row of the remap table fills its group. -/
theorem remapGroup_length (s : StoreState) (j : Nat) : (s.remapGroup j).length = 8 := by
  unfold StoreState.remapGroup
  rw [List.length_flatMap, List.map_congr_left (g := fun _ => 2) fun i _ => by split <;> simp]
  rfl

/-- What a larder holds whose group `g` moved to the next spare `k` with the bytes `bs`: the bytes and the spare's row, the row
not where the group is itself one of the remap table's; every other group as before. -/
theorem remapped_cells {s u : StoreState} {g : Nat} {bs : List Byte} (hwf : Memory.wf larderByte s.home = true)
    (hspare : s.spares ≠ 0) (hb : bs.length = 8)
    (hhome : u.home = Mem.writeBytes larderByte (remapped s g (2048 - s.spares)) (8 * g) bs)
    (hremap : u.remap = (g, 2048 - s.spares) :: s.remap) :
    let k := 2048 - s.spares
    u.cells g = bs ∧
      (g < 0x200 ∨ 0x600 ≤ g →
        u.cells (0x200 + k / 4) = u.remapGroup (k / 4) ∧ u.cells (0x400 + k / 4) = u.remapGroup (k / 4)) ∧
      ∀ a, a / 8 ≠ g → a / 8 ≠ 0x200 + k / 4 → a / 8 ≠ 0x400 + k / 4 →
        Mem.read larderByte u.home a = Mem.read larderByte s.home a := by
  intro k
  have hk : k / 4 < 0x200 := by omega
  have hrow : u.remapGroup (k / 4) = ({ s with remap := (g, k) :: s.remap } : StoreState).remapGroup (k / 4) := by
    unfold StoreState.remapGroup
    rw [hremap]
  have hlen := remapGroup_length u (k / 4)
  have hmap : remapped s g k = Mem.writeBytes larderByte
      (Mem.writeBytes larderByte s.home (8 * (0x200 + k / 4)) (u.remapGroup (k / 4))) (8 * (0x400 + k / 4))
        (u.remapGroup (k / 4)) := by rw [hrow]; rfl
  have hwf1 := Mem.writeBytes_wf hwf (8 * (0x200 + k / 4)) (u.remapGroup (k / 4))
  have hwf2 := Mem.writeBytes_wf hwf1 (8 * (0x400 + k / 4)) (u.remapGroup (k / 4))
  rw [hmap] at hhome
  unfold StoreState.cells
  rw [hhome]
  refine ⟨readBytes_writeGroup_same hwf2 hb, fun hg => ⟨?first, ?second⟩, fun a ha ha1 ha2 => ?others⟩
  case first =>
    rw [readBytes_writeGroup_ne hwf2 hb (by omega), readBytes_writeGroup_ne hwf1 hlen (by omega),
      readBytes_writeGroup_same hwf hlen]
  case second => rw [readBytes_writeGroup_ne hwf2 hb (by omega), readBytes_writeGroup_same hwf1 hlen]
  case others => rw [read_writeGroup_ne hwf2 hb ha, read_writeGroup_ne hwf1 hlen ha2, read_writeGroup_ne hwf hlen ha1]

/-! ### The front of the queue (R247, R248) -/

theorem landFront_imm {d : Dev} {g : Nat} {b : List Byte} {rest : List LarderWrite}
    (hq : d.store.queue = .imm g b false :: rest) (ok : Bool) :
    d.landFront ok = (d.onStore fun s => { s with queue := rest }).writeHome g b ok false := by
  unfold Dev.landFront
  rw [hq]
  rfl

/-- A host command that ends leaves the larder's cells, its counts and its queue. -/
theorem hostLanded_keeps (d : Dev) : d.hostLanded.store.home = d.store.home ∧ d.hostLanded.store.wear = d.store.wear ∧
    d.hostLanded.store.queue = d.store.queue := by
  unfold Dev.hostLanded
  extract_lets code
  split
  · split <;> exact ⟨rfl, rfl, rfl⟩
  · exact ⟨rfl, rfl, rfl⟩
  · exact ⟨rfl, rfl, rfl⟩

/-- The next group write of a transaction that is not its last: the cells of its group, the count of its block, and the
transaction one write further at the front. -/
theorem landFront_txn {d : Dev} {t : JournalTxn} {rest : List LarderWrite} (hq : d.store.queue = .txn t :: rest)
    (ht : t.done + 1 < t.writes) :
    (d.landFront true).store.home = Mem.writeBytes larderByte d.store.home (8 * t.next.1) t.next.2 ∧
      (d.landFront true).store.wearOf (t.next.1 / 64) = d.store.wearOf (t.next.1 / 64) + 1 ∧
      (d.landFront true).store.queue = .txn (t.step d.store) :: rest := by
  obtain ⟨hhome, hwear, hqueue⟩ := writeHome_true (d.onStore fun s => { s with queue := .txn (t.step d.store) :: rest })
    t.next.1 t.next.2 (t.host && t.marked)
  have hnext : (if t.writes ≤ t.done + 1 then rest else .txn (t.step d.store) :: rest) = .txn (t.step d.store) :: rest :=
    if_neg (Nat.not_le.mpr ht)
  unfold Dev.landFront
  simp only [hq, hnext]
  split
  · obtain ⟨khome, kwear, kqueue⟩ := hostLanded_keeps
      ((d.onStore fun s => { s with queue := .txn (t.step d.store) :: rest }).writeHome t.next.1 t.next.2 true
        (t.host && t.marked))
    exact ⟨khome.trans hhome, (wearOf_eq_of_wear kwear _).trans hwear, kqueue.trans hqueue⟩
  · exact ⟨hhome, hwear, hqueue⟩

/-! ### The commit of a host transaction (R231, R251) -/

/-- A transaction none of whose groups has failed is queued with the next sequence number and place. -/
theorem writeTxn_sound {s : StoreState} {gs : List (Nat × List Byte)} (host : Bool) (owner : Nat) (hf : s.failed = [])
    (hg : gs ≠ []) : s.writeTxn host owner gs = { s with
      queue := s.queue ++ [.txn { owner, seq := s.journalSeq, place := s.journalAt, groups := gs, done := 0, host, old := [] }]
      journalSeq := (s.journalSeq + 1) % 2 ^ 32, journalAt := (s.journalAt + recordLength gs.length + 1) % 2048
      lost := s.lost.filter fun g => !gs.any fun p => p.1 == g } := by
  have hkeep : gs.filter (fun p => !s.failed.contains p.1) = gs := by simp [hf]
  unfold StoreState.writeTxn
  rw [hkeep]
  exact if_neg (by simpa using hg)

theorem txnCommit_begins {d : Dev} {t : HostTxn} {reg : LarderRegion} {gs : List (Nat × List Byte)}
    (hb : d.store.isBusy = false) (ht : d.store.txn = some t) (hf : d.store.failed = []) (hg : t.groups ≠ [])
    (hr : d.image.region t.region = some reg) (hgs : gs = t.groups.map fun p => (reg.base + p.1, p.2)) :
    d.txnCommit = { d with store := { d.store with
      txn := none, op := 8, busy := some .commit, hostLost := false
      queue := d.store.queue ++ [.txn { owner := reg.owner, seq := d.store.journalSeq, place := d.store.journalAt
                                        groups := gs, done := 0, host := true, old := [] }]
      journalSeq := (d.store.journalSeq + 1) % 2 ^ 32
      journalAt := (d.store.journalAt + recordLength t.groups.length + 1) % 2048
      lost := d.store.lost.filter fun g => !gs.any fun p => p.1 == g } } := by
  have hne : gs ≠ [] := by simpa [hgs] using hg
  have hlen : t.groups.length = gs.length := by rw [hgs, List.length_map]
  have hlossy : gs.any (fun p => d.store.failed.contains p.1) = false := by simp [hf]
  have hall : gs.all (fun p => d.store.failed.contains p.1) = false := by
    obtain ⟨p, l, rfl⟩ := List.exists_cons_of_ne_nil hne
    simp [hf]
  unfold Dev.txnCommit
  simp only [hb, ht, hr, ← hgs, hlossy, hall, hlen, Dev.onStore, writeTxn_sound true reg.owner hf hne, Bool.false_eq_true,
    if_false]

/-! ### The wear counters written back (R253; layout DEDUCED, log 23) -/

/-- Each counter written back stands in its own group, whatever others are written back behind it. -/
theorem foldl_writeImm_wear (l : List Nat) (hl : l.Nodup) (s : StoreState) (hf : s.failed = []) {b : Nat} (hb : b ∈ l) :
    (l.foldl (fun s b => s.writeImm (0xC00 + b) (leBytes 8 (s.wearOf b))) s).group (0xC00 + b) = leBytes 8 (s.wearOf b) := by
  induction l generalizing s with
  | nil => exact absurd hb List.not_mem_nil
  | cons a l ih =>
    obtain ⟨ha, hl⟩ := List.nodup_cons.mp hl
    have hkeep := writeImm_keeps s (0xC00 + a) (leBytes 8 (s.wearOf a))
    rw [List.foldl_cons]
    by_cases hab : b = a
    · subst hab
      rw [foldl_writeImm_group (group := (0xC00 + ·)) _ l fun x hx h => ha (by rwa [← Nat.add_left_cancel h])]
      exact group_writeImm_same _ (by simp [hf])
    · rw [ih hl _ (by rw [hkeep]; exact hf) ((List.mem_cons.mp hb).resolve_left hab)]
      exact congrArg (leBytes 8) (wearOf_eq_of_wear (by rw [hkeep]) b)

theorem wearWriteback_group {d : Dev} (hm : d.ms % 65536 = 0) (h0 : d.ms ≠ 0) (hf : d.store.failed = []) {b : Nat}
    (hb : b < 480) : d.wearWriteback.store.group (0xC00 + b) = leBytes 8 (d.store.wearOf b) := by
  have hdue : (decide (d.ms % 65536 = 0) && decide (d.ms ≠ 0)) = true := by simp [hm, h0]
  unfold Dev.wearWriteback
  rw [if_pos hdue, Dev.onStore_store]
  exact foldl_writeImm_wear (upTo 480) List.nodup_range d.store hf (List.mem_range.mpr hb)

end Sys2Proof.Laws

namespace Sys2Proof.Proofs

open Sys2Proof.Machine Sys2Proof.Safety Sys2Proof.Laws

/-- Settles O38. A group write is one write of eight bytes, after the row of the spare in both copies of the remap table where it
is moved; what the log writes after it is queued behind, to groups of its own. -/
theorem larderWritesLand : Obligations.LarderWritesLand := by
  unfold Obligations.LarderWritesLand
  intro s
  refine ⟨fun g bs rest hq hlen => ⟨?lands, fun hspent => ?spent, fun hspare hwf => ?moved⟩, fun t rest hq ht => ?txn,
    fun t reg gs hb ht hf hg hl hr hgs => ?commit, fun hm h0 hf => ?wear⟩
  case lands =>
    refine completes_of_act rfl ?_
    rw [landFront_imm hq, Dev.settle_store, logFlush_home, wearOf_eq_of_wear (logFlush_wear _)]
    obtain ⟨hhome, hwear, -⟩ := writeHome_true (s.dev.onStore fun x => { x with queue := rest }) g bs false
    exact ⟨hhome, hwear⟩
  case spent =>
    refine completes_of_act rfl ?_
    rw [landFront_imm hq, Dev.settle_store, logFlush_failed, logFlush_noSpare, logFlush_home]
    exact writeHome_spent (d := s.dev.onStore fun x => { x with queue := rest }) g bs hspent
  case moved =>
    refine completes_of_act rfl ?_
    rw [landFront_imm hq, Dev.settle_store]
    obtain ⟨hhome, hspares, hremap⟩ := writeHome_spare (d := s.dev.onStore fun x => { x with queue := rest }) g bs hspare
    have hmap := (logFlush_remap _).trans hremap
    obtain ⟨hcells, hcopies, hothers⟩ := remapped_cells hwf hspare hlen ((logFlush_home _).trans hhome) hmap
    exact ⟨hcells, (logFlush_spares _).trans hspares, hmap, hcopies, hothers⟩
  case txn =>
    obtain ⟨hhome, hwear, hqueue⟩ := landFront_txn hq ht
    refine completes_of_act rfl ?_
    rw [Dev.settle_store, logFlush_home, wearOf_eq_of_wear (logFlush_wear _)]
    refine ⟨hhome, hwear, ?_⟩
    obtain ⟨q, hlog⟩ := logFlush_queue_prefix (s.dev.landFront true)
    rw [← hlog, hqueue]
    rfl
  case commit => exact becomes_of_quiet rfl (txnCommit_begins hb ht hf hg hr hgs) hl rfl
  case wear =>
    refine completes_of_act rfl fun b hb => ?_
    rw [Dev.settle_store, logFlush_group _ (by omega)]
    exact wearWriteback_group hm h0 hf hb

end Sys2Proof.Proofs

/-! ## Start-up: the parameters and the journal (R249, R265, R270, R384, R580) -/

namespace Sys2Proof.Laws

open Sys2Proof.Machine Sys2Proof.Safety

/-! ### Bit fields of little-endian numbers (R1) -/

theorem two_pow_bytes_succ (n : Nat) : 2 ^ (8 * (n + 1)) = 256 * 2 ^ (8 * n) := by
  rw [Nat.mul_succ, Nat.pow_add, Nat.mul_comm]

theorem leNat_cons_div_mod (b : Byte) (l : List Byte) : leNat (b :: l) / 256 = leNat l ∧ leNat (b :: l) % 256 = b.toNat := by
  have hb := b.isLt
  rw [show leNat (b :: l) = b.toNat + 256 * leNat l from rfl]
  omega

theorem leNat_drop (l : List Byte) (i : Nat) : leNat (l.drop i) = leNat l / 2 ^ (8 * i) := by
  induction i generalizing l with
  | zero => simp
  | succ i ih =>
    cases l with
    | nil => simp [leNat]
    | cons b l => rw [List.drop_succ_cons, ih, two_pow_bytes_succ, ← Nat.div_div_eq_div_mul, (leNat_cons_div_mod b l).1]

theorem leNat_take (l : List Byte) (n : Nat) : leNat (l.take n) = leNat l % 2 ^ (8 * n) := by
  induction n generalizing l with
  | zero => simp [leNat, Nat.mod_one]
  | succ n ih =>
    cases l with
    | nil => simp [leNat]
    | cons b l =>
      obtain ⟨hdiv, hmod⟩ := leNat_cons_div_mod b l
      rw [two_pow_bytes_succ, Nat.mod_mul, hdiv, hmod, List.take_succ_cons, leNat, ih]

theorem leAt_eq (l : List Byte) (i n : Nat) : leAt l i n = leNat l / 2 ^ (8 * i) % 2 ^ (8 * n) := by
  rw [leAt, leNat_take, leNat_drop]

/-- A field as wide as the bytes read at most is cut from the whole number. -/
theorem ofNat_leAt {w n : Nat} (hw : w ≤ 8 * n) (l : List Byte) (i : Nat) :
    BitVec.ofNat w (leAt l i n) = BitVec.ofNat w (leNat l / 2 ^ (8 * i)) := by
  apply BitVec.eq_of_toNat_eq
  rw [leAt_eq, BitVec.toNat_ofNat, BitVec.toNat_ofNat, Nat.mod_mod_of_dvd _ (Nat.pow_dvd_pow 2 hw)]

theorem ofNat_leAt_zero {w n : Nat} (hw : w ≤ 8 * n) (l : List Byte) :
    BitVec.ofNat w (leAt l 0 n) = BitVec.ofNat w (leNat l) := by
  rw [ofNat_leAt hw]
  simp

/-- A bit field inside the bytes read is cut from the whole number. -/
theorem ofNat_bitsOf_leAt {w hi lo n : Nat} (hw : w = hi + 1 - lo) (hn : hi < 8 * n) (l : List Byte) :
    BitVec.ofNat w (bitsOf (leAt l 0 n) hi lo) = BitVec.ofNat w (leNat l / 2 ^ lo) := by
  subst hw
  apply BitVec.eq_of_toNat_eq
  simp only [BitVec.toNat_ofNat, bitsOf, leAt_eq, Nat.mul_zero, Nat.pow_zero, Nat.div_one, Nat.mod_mod]
  apply Nat.eq_of_testBit_eq
  intro i
  by_cases hi' : i < hi + 1 - lo
  · have hin : lo + i < 8 * n := by omega
    simp [Nat.testBit_mod_two_pow, Nat.testBit_shiftRight, Nat.testBit_div_two_pow, hin, hi', Nat.add_comm]
  · simp only [Nat.testBit_mod_two_pow, hi', decide_false, Bool.false_and]

theorem bitOf_leAt {n i : Nat} (hi : i < 8 * n) (l : List Byte) : bitOf (leAt l 0 n) i = (leNat l).testBit i := by
  simp [bitOf, leAt_eq, Nat.testBit_mod_two_pow, hi]

/-! ### Step 6: what PARAMETER_LOAD takes from the larder (R270) -/

/-- A parameter group is loaded as what it holds, or at the factory value that its unlisted cells read as. -/
theorem leNat_param {g : Nat} (hg : Mem.readBytes larderByte [] (8 * g) 8 = factory g) (s : StoreState) :
    leNat (s.param g) = loadedGroup s g := by
  rw [loadedGroup, StoreState.param, hg]

theorem timeLoad_eq (t : TimeState) (s : StoreState) : t.load s = { t with
    zcOffset := BitVec.ofNat 15 (loadedGroup s 0x80), zcPhase := BitVec.ofNat 2 (loadedGroup s 0x80 / 2 ^ 16)
    zcMode := BitVec.ofNat 2 (loadedGroup s 0x80 / 2 ^ 18), compK := BitVec.ofNat 16 (loadedGroup s 0x81)
    compT0 := BitVec.ofNat 16 (loadedGroup s 0x81 / 2 ^ 16)
    compD := BitVec.ofNat 32 (loadedGroup s 0x81 / 2 ^ 32) } := by
  have hz : leNat (s.param 0x80) = loadedGroup s 0x80 := leNat_param (by decide) s
  have hx : leNat (s.param 0x81) = loadedGroup s 0x81 := leNat_param (by decide) s
  unfold TimeState.load
  dsimp only
  rw [ofNat_leAt_zero (by decide), ofNat_bitsOf_leAt (by decide) (by decide), ofNat_bitsOf_leAt (by decide) (by decide),
    ofNat_leAt_zero (by decide), ofNat_leAt (by decide), ofNat_leAt (by decide), hz, hx]

theorem lineLoad_eq (l : LineState) (s : StoreState) : l.load s = { l with
    cfg := BitVec.ofNat 32 (loadedGroup s 0x86)
    params := {
      netId := BitVec.ofNat 16 (loadedGroup s 0x87), addr := BitVec.ofNat 12 (loadedGroup s 0x87 / 2 ^ 16)
      cvStart := BitVec.ofNat 3 (loadedGroup s 0x87 / 2 ^ 32), cvSlot := BitVec.ofNat 3 (loadedGroup s 0x87 / 2 ^ 36)
      cvLead := BitVec.ofNat 2 (loadedGroup s 0x87 / 2 ^ 40), relay := (loadedGroup s 0x87).testBit 42
      tmRefresh := BitVec.ofNat 8 (loadedGroup s 0x87 / 2 ^ 48) }
    key := s.group 0x88 ++ s.group 0x89
    lseq := BitVec.ofNat 32 (min 0xFFFF0000 (leNat ((s.group 0x8A).take 4) + 65536)) } := by
  have hc : leNat (s.param 0x86) = loadedGroup s 0x86 := leNat_param (by decide) s
  have hn : leNat (s.param 0x87) = loadedGroup s 0x87 := leNat_param (by decide) s
  unfold LineState.load
  dsimp only
  rw [ofNat_leAt_zero (by decide), ofNat_leAt_zero (by decide), ofNat_bitsOf_leAt (by decide) (by decide),
    ofNat_bitsOf_leAt (by decide) (by decide), ofNat_bitsOf_leAt (by decide) (by decide),
    ofNat_bitsOf_leAt (by decide) (by decide), ofNat_bitsOf_leAt (by decide) (by decide), bitOf_leAt (by decide), hc, hn]
  rfl

theorem busLoad_eq (b : BusState) (s : StoreState) : b.load s = { b with
    mac := BitVec.ofNat 7 (loadedGroup s 0x8B), baud := BitVec.ofNat 3 (loadedGroup s 0x8B / 2 ^ 8)
    maxMaster := BitVec.ofNat 7 (loadedGroup s 0x8B / 2 ^ 16), maxInfo := BitVec.ofNat 4 (loadedGroup s 0x8B / 2 ^ 24)
    devInst := BitVec.ofNat 22 (loadedGroup s 0x8B / 2 ^ 32), busEn := (loadedGroup s 0x8B).testBit 63 } := by
  have hn : leNat (s.param 0x8B) = loadedGroup s 0x8B := leNat_param (by decide) s
  unfold BusState.load
  dsimp only
  rw [ofNat_leAt_zero (by decide), ofNat_bitsOf_leAt (by decide) (by decide), ofNat_bitsOf_leAt (by decide) (by decide),
    ofNat_bitsOf_leAt (by decide) (by decide), ofNat_bitsOf_leAt (by decide) (by decide), bitOf_leAt (by decide), hn]

/-- The checkpoint of LSEQ is a write of the larder. -/
theorem checkpoint_onStore (d : Dev) : ∃ st, d.checkpoint = { d with store := st } := by
  unfold Dev.checkpoint
  split
  · exact ⟨_, rfl⟩
  · exact ⟨d.store, rfl⟩

/-- What step 6 loads from the larder as it was read; the checkpoint and the event at its end change the store alone. -/
theorem parameterLoad_loads {d x : Dev} {c : CellEnv} (hb : d.sys.boot = .larder) (hx : paramsRead d c.finds = x) :
    (d.parameterLoad c).time = x.time.load x.store ∧ (d.parameterLoad c).line = x.line.load x.store ∧
      (d.parameterLoad c).bus = x.bus.load x.store ∧
      (d.parameterLoad c).sys = { x.sys with
        boot := .journal, recorded := BitVec.ofNat 32 (leNat ((x.store.group 0x100).take 4))
        acked := BitVec.ofNat 32 (leNat (((x.store.group 0x100).drop 4).take 4)) } := by
  have hread : (if d.wearDue then d.loadWear (c.finds.filter fun f => 0x80 ≤ f.1 && f.1 < 0xE00) else d).larderReads
      (c.finds.filter fun f => 0x80 ≤ f.1 && f.1 < 0xE00) = x := hx
  obtain ⟨st, hcheck⟩ := checkpoint_onStore ({ x with
    time := x.time.load x.store, line := x.line.load x.store, bus := x.bus.load x.store
    sys := { x.sys with boot := .journal, recorded := BitVec.ofNat 32 (x.store.groupLE 0x100 0 4)
                        acked := BitVec.ofNat 32 (x.store.groupLE 0x100 4 4) } } : Dev)
  unfold Dev.parameterLoad
  rw [if_neg (not_not_intro hb)]
  simp only [hread, hcheck]
  exact ⟨rfl, rfl, rfl, rfl⟩

/-! ### Reads and writes of the larder leave the control cycle (R241, R247) -/

@[simp] theorem cycle_ite (c : Prop) [Decidable c] (a b : Dev) :
    (if c then a else b).cycle = if c then a.cycle else b.cycle := apply_ite Dev.cycle c a b

@[simp] theorem event_cycle (d : Dev) (code subject detail tag aux : Nat) :
    (d.event code subject detail tag aux).cycle = d.cycle := rfl

@[simp] theorem onRegion_cycle (d : Dev) (g : Nat) (f : RegionStat → RegionStat) : (d.onRegion g f).cycle = d.cycle := by
  obtain ⟨rs, h⟩ := onRegion_regions d g f
  rw [h]

@[simp] theorem countWear_cycle (d : Dev) (g : Nat) : (d.countWear g).cycle = d.cycle := by rw [countWear_keeps]

@[simp] theorem cellWrite_cycle (d : Dev) (g : Nat) (b : List Byte) : (d.cellWrite g b).cycle = d.cycle := by
  rw [cellWrite_keeps]

@[simp] theorem retireGroup_cycle (d : Dev) (g cause : Nat) : (d.retireGroup g cause).cycle = d.cycle := by
  simp [Dev.retireGroup]

@[simp] theorem loseGroup_cycle (d : Dev) (g : Nat) : (d.loseGroup g).cycle = d.cycle := by simp [Dev.loseGroup]

@[simp] theorem remapFind_cycle (d : Dev) (g : Nat) (mate : Bool) : (d.remapFind g mate).cycle = d.cycle := by
  simp [Dev.remapFind]

@[simp] theorem uncorrShared_cycle (d : Dev) (kind aux : Nat) : (d.uncorrShared kind aux).cycle = d.cycle := rfl

theorem larderFind_cycle (d : Dev) (g : Nat) (e : EccFind) : (d.larderFind g e).cycle = d.cycle := by
  unfold Dev.larderFind
  fun_cases Dev.larderFindBy d g e false <;> simp +zetaDelta

theorem journalRead_cycle (ts : List JournalTxn) (d : Dev) (f : Nat × EccFind) : (Dev.journalRead ts d f).cycle = d.cycle := by
  simp [Dev.journalRead, larderFind_cycle]

@[simp] theorem hostLanded_cycle (d : Dev) : d.hostLanded.cycle = d.cycle := by
  unfold Dev.hostLanded
  extract_lets code
  split
  · split <;> rfl
  · rfl
  · rfl

@[simp] theorem writeHome_cycle (d : Dev) (g : Nat) (b : List Byte) (ok host : Bool) :
    (d.writeHome g b ok host).cycle = d.cycle := by
  simp [Dev.writeHome]

theorem landFront_cycle (ok : Bool) (d : Dev) : (d.landFront ok).cycle = d.cycle := by
  unfold Dev.landFront
  split <;> simp

theorem landMany_cycle (worn : List Nat) (n : Nat) (d : Dev) : (Dev.landMany worn n d).cycle = d.cycle := by
  induction n generalizing d with
  | zero => rfl
  | succ n ih => exact (ih _).trans (landFront_cycle _ d)

theorem recoverTxn_cycle (worn : List Nat) (d : Dev) (t : JournalTxn) : (Dev.recoverTxn worn d t).cycle = d.cycle := by
  simp [Dev.recoverTxn, landMany_cycle]

/-! ### Step 7: one transaction recovered (R249) -/

variable {d : Dev} {t : JournalTxn}

theorem recoverTxn_unmarked (worn : List Nat) (hm : t.marked = false) :
    Dev.recoverTxn worn d t = { d with store := { d.store with rolled := satInc d.store.rolled } } := by
  unfold Dev.recoverTxn
  rw [hm]
  rfl

theorem recoverTxn_holds (worn : List Nat) (hm : t.marked = true) (hh : d.store.recordHolds t = true) :
    Dev.recoverTxn worn d t = Dev.landMany worn (t.writes - t.done)
      { d with store := { d.store with queue := [.txn t], redone := satInc d.store.redone } } := by
  unfold Dev.recoverTxn
  rw [hm, if_neg (by decide), if_pos hh]
  rfl

/-- An uncorrectable error in the memory of a pot voids its guarantee (R33). -/
theorem uncorrPot_void (d : Dev) (kind aux : Nat) (p : Fin 16) : (d.uncorrPot kind p.val aux).void.getLsbD p.val = true := by
  have hall : (0xFFFF#16).getLsbD p.val = true := by revert p; decide
  unfold Dev.uncorrPot
  split
  · simpa [Dev.void, Dev.event] using hall
  · unfold Dev.void
    split
    · exact hall
    · simp [Dev.event]

/-- The report of an uncorrectable error changes nothing of the store but the events that wait. -/
theorem uncorrPot_logPend (d : Dev) (kind p aux : Nat) :
    ∃ l, (d.uncorrPot kind p aux).store = { d.store with logPend := l } := by
  unfold Dev.uncorrPot
  split <;> exact ⟨_, rfl⟩

/-- A marked transaction whose record does not hold: its home groups as they were before it, counted, its pot's guarantee
void. -/
theorem recoverTxn_broken (worn : List Nat) (hm : t.marked = true) (hh : d.store.recordHolds t = false) :
    (Dev.recoverTxn worn d t).store.home = (d.store.undo t.old).home ∧
      (Dev.recoverTxn worn d t).store.redone = d.store.redone ∧
      (Dev.recoverTxn worn d t).store.rolled = satInc d.store.rolled ∧
      (Dev.recoverTxn worn d t).store.crcLost = satInc d.store.crcLost ∧
      ∀ p : Fin 16, t.owner = p.val → (Dev.recoverTxn worn d t).void.getLsbD p = true := by
  unfold Dev.recoverTxn
  rw [hm, if_neg (by decide), if_neg (by simp [hh])]
  extract_lets d1
  split
  next howner =>
    obtain ⟨l, h⟩ := uncorrPot_logPend d1 2 t.owner 0x1000
    rw [h]
    exact ⟨rfl, rfl, rfl, rfl, fun p hp => hp ▸ uncorrPot_void d1 2 0x1000 p⟩
  next howner => exact ⟨rfl, rfl, rfl, rfl, fun p hp => absurd (hp ▸ p.isLt) howner⟩

/-! ### Step 7: the row (R249, R265) -/

@[simp] theorem logFlush_redone (d : Dev) : d.logFlush.store.redone = d.store.redone := by rw [logFlush_store]
@[simp] theorem logFlush_rolled (d : Dev) : d.logFlush.store.rolled = d.store.rolled := by rw [logFlush_store]
@[simp] theorem logFlush_crcLost (d : Dev) : d.logFlush.store.crcLost = d.store.crcLost := by rw [logFlush_store]

theorem journalRecovery_frame {c : CellEnv} (hb : d.sys.boot = .journal) :
    (d.journalRecovery c).sys.boot = .select ∧ (d.journalRecovery c).sys.progress = 3 ∧
      (if d.sys.lastKind = .cold then (d.journalRecovery c).cycle.worktop = []
        else (d.journalRecovery c).cycle.worktop = d.cycle.worktop) := by
  unfold Dev.journalRecovery
  rw [if_neg (not_not_intro hb)]
  extract_lets ts imms d0 d1 d2 d3 d4
  refine ⟨rfl, rfl, ?_⟩
  have h3 : d3.cycle = d.cycle :=
    (foldl_cycle (recoverTxn_cycle c.worn) ts d1).trans (foldl_cycle (journalRead_cycle ts) c.finds d)
  by_cases hk : d.sys.lastKind = .cold
  · rw [if_pos hk, Dev.onSys_cycle, show d4 = d3.onCycle fun c => { c with worktop := [] } from if_pos hk]
    rfl
  · rw [if_neg hk, Dev.onSys_cycle, show d4 = d3 from if_neg hk, h3]

/-- The device as the recovery of a sound journal begins: nothing queued, nothing counted. -/
def recovering (d : Dev) : Dev :=
  { d with store := { d.store with queue := [], redone := 0, rolled := 0, crcLost := 0 } }

theorem journalRecovery_empty {c : CellEnv} (hb : d.sys.boot = .journal) (hf : c.finds = []) (hq : d.store.queue = []) :
    (d.journalRecovery c).store = (recovering d).store := by
  unfold Dev.journalRecovery
  rw [if_neg (not_not_intro hb), hf, hq]
  split <;> rfl

/-- One transaction in the journal and nothing else queued. -/
theorem journalRecovery_txn {c : CellEnv} (hb : d.sys.boot = .journal) (hf : c.finds = []) (hq : d.store.queue = [.txn t]) :
    (d.journalRecovery c).store = (Dev.recoverTxn c.worn (recovering d) t).store ∧
      (d.journalRecovery c).void = (Dev.recoverTxn c.worn (recovering d) t).void := by
  unfold Dev.journalRecovery
  rw [if_neg (not_not_intro hb), hf, hq]
  extract_lets ts imms d0 d1 d2 d3 d4
  have h2 : Dev.recoverTxn c.worn (recovering d) t = d2 := rfl
  rw [h2]
  clear_value d2
  have h3 : d3 = d2 := by
    show { d2 with store := { d2.store with queue := d2.store.queue ++ [] } } = d2
    rw [List.append_nil]
  have h4 : d4.store = d3.store ∧ d4.void = d3.void := by
    dsimp only [d4]
    split <;> exact ⟨rfl, rfl⟩
  exact ⟨h4.1.trans (congrArg Dev.store h3), h4.2.trans (congrArg Dev.void h3)⟩

end Sys2Proof.Laws

namespace Sys2Proof.Proofs

open Sys2Proof.Machine Sys2Proof.Safety Sys2Proof.Laws

/-- Settles O14. Step 6 is one equation per block that loads; step 7 is the recovery of each transaction, which ends in one of
three ways, and what is logged after it changes neither the counts nor the home groups. -/
theorem parametersAndJournal : Obligations.ParametersAndJournal := by
  unfold Obligations.ParametersAndJournal
  intro c s
  refine ⟨fun hboot => completes_of_act rfl ?load, fun hboot => completes_of_act rfl ?_⟩
  case load =>
    obtain ⟨htime, hline, hbus, hsys⟩ := parameterLoad_loads (c := c) hboot rfl
    rw [Dev.settle_time, Dev.settle_line, Dev.settle_bus, Dev.settle_sys, logFlush_time, logFlush_line, logFlush_bus,
      logFlush_sys, htime, hline, hbus, hsys, timeLoad_eq, lineLoad_eq, busLoad_eq]
    simp only [and_self]
  obtain ⟨hdone, hprogress, hworktop⟩ := journalRecovery_frame (c := c) hboot
  refine ⟨hdone, hprogress, hworktop, fun hf => ⟨fun hq => ?empty, fun t hworn hq ht => ?_⟩⟩
  case empty =>
    rw [Dev.settle_store, logFlush_redone, logFlush_rolled, logFlush_crcLost, logFlush_home, journalRecovery_empty hboot hf hq]
    exact ⟨rfl, rfl, rfl, rfl⟩
  obtain ⟨hstore, hvoid⟩ := journalRecovery_txn hboot hf hq
  rw [hworn] at hstore hvoid
  rw [Dev.settle_store, logFlush_redone, logFlush_rolled, logFlush_crcLost, logFlush_home, hstore]
  refine ⟨fun hm => ?unmarked, fun hm hh => ?completed, fun hm hh => ?broken⟩
  case unmarked =>
    rw [recoverTxn_unmarked [] hm]
    exact ⟨rfl, rfl, rfl, rfl⟩
  case completed =>
    have hleft : ¬t.writes - t.done = 0 := by omega
    rw [recoverTxn_holds [] hm hh]
    obtain ⟨hhome, -, hredone, hrolled, hcrc, -, -⟩ := landMany_copies (t.writes - t.done) t
      { recovering s.dev with store := { (recovering s.dev).store with
        queue := [.txn t], redone := satInc (recovering s.dev).store.redone } } rfl ht.le hm (if_neg hleft).symm
    exact ⟨hredone, hrolled, hcrc, hhome⟩
  case broken =>
    obtain ⟨hhome, hredone, hrolled, hcrc, hguar⟩ := recoverTxn_broken (d := recovering s.dev) [] hm hh
    exact ⟨hredone, hrolled, hcrc, hhome, fun p hp => (congrArg (·.getLsbD p) hvoid).trans (hguar p hp)⟩

end Sys2Proof.Proofs

/-! ## The bank switch (R233, R234, R236, Table 8.5) -/

namespace Sys2Proof.Machine

/-- What a bank switch decides, as one value: the image that runs, the switch itself, the bank record and the banks. -/
def Dev.held (d : Dev) : Image × SwitchState × Option Bool × Bank × Bank :=
  (d.image, d.store.sw, d.store.record, d.banks)

@[simp] theorem Dev.held_eta (d : Dev) : (d.image, d.store.sw, d.store.record, d.banks) = d.held := rfl

@[simp] theorem Dev.held_mk (time : TimeState) (power : PowerState) (sys : SysState) (lane : LaneState)
    (cycle : CycleState) (image : Image) (store : StoreState) (mando : MandoState) (sense : SenseState)
    (whisk : Vector Whisk 2) (fan : FanState) (face : FaceState) (line : LineState) (seat : SeatState)
    (bus : BusState) (free : Nat) :
    (Dev.mk time power sys lane cycle image store mando sense whisk fan face line seat bus free).held =
      (image, store.sw, store.record, store.bankA, store.bankB) := rfl

section updates

variable (d : Dev)

@[simp] theorem Dev.onTime_held (f : TimeState → TimeState) : (d.onTime f).held = d.held := rfl
@[simp] theorem Dev.onPower_held (f : PowerState → PowerState) : (d.onPower f).held = d.held := rfl
@[simp] theorem Dev.onSys_held (f : SysState → SysState) : (d.onSys f).held = d.held := rfl
@[simp] theorem Dev.onCycle_held (f : CycleState → CycleState) : (d.onCycle f).held = d.held := rfl
@[simp] theorem Dev.onMando_held (f : MandoState → MandoState) : (d.onMando f).held = d.held := rfl
@[simp] theorem Dev.onSense_held (f : SenseState → SenseState) : (d.onSense f).held = d.held := rfl
@[simp] theorem Dev.onFan_held (f : FanState → FanState) : (d.onFan f).held = d.held := rfl
@[simp] theorem Dev.onLine_held (f : LineState → LineState) : (d.onLine f).held = d.held := rfl
@[simp] theorem Dev.onBus_held (f : BusState → BusState) : (d.onBus f).held = d.held := rfl
@[simp] theorem Dev.onFace_held (f : FaceState → FaceState) : (d.onFace f).held = d.held := rfl
@[simp] theorem Dev.onUnit_held (u : Nat) (f : Whisk → Whisk) : (d.onUnit u f).held = d.held := rfl
@[simp] theorem Dev.onStore_held (f : StoreState → StoreState) : (d.onStore f).held =
    (d.image, (f d.store).sw, (f d.store).record, (f d.store).bankA, (f d.store).bankB) := rfl
@[simp] theorem Dev.settle_held (b : Dev) : (Dev.settle b d).held = d.held := rfl

end updates

end Sys2Proof.Machine

namespace Sys2Proof.Laws

open Sys2Proof.Machine Sys2Proof.Safety

/-! ### What leaves the image, the switch and the banks

A lemma `f_held` says of each function that a switch runs after the image took over that it leaves them as they are, so that
`simp` carries `Dev.held` through the rest of the switch. -/

@[simp] theorem held_ite (c : Prop) [Decidable c] (a b : Dev) : (if c then a else b).held = if c then a.held else b.held :=
  apply_ite Dev.held c a b

@[simp] theorem foldl_held {α : Type} {f : Dev → α → Dev} (hf : ∀ d a, (f d a).held = d.held) (l : List α) (d : Dev) :
    (l.foldl f d).held = d.held := by
  induction l generalizing d with
  | nil => rfl
  | cons a l ih => exact (ih _).trans (hf d a)

@[simp] theorem logFlush_held (d : Dev) : d.logFlush.held = d.held := by
  unfold Dev.held Dev.banks
  rw [logFlush_store]
  rfl

section blocks

variable (d : Dev)

@[simp] theorem event_held (code subject detail tag aux : Nat) : (d.event code subject detail tag aux).held = d.held := by rfl
@[simp] theorem setInput_held (ch el : Nat) (v : Word) : (d.setInput ch el v).held = d.held := by rfl
@[simp] theorem setInputs_held (ch el : Nat) (vs : List Word) : (d.setInputs ch el vs).held = d.held := by simp [Dev.setInputs]
@[simp] theorem capture_held (stream stamp : Nat) (rise : Bool) : (d.capture stream stamp rise).held = d.held := by rfl

/-! #### The front ends and the converters -/

@[simp] theorem senseImage_held (old : List Byte) : (d.senseImage old).held = d.held := by
  simp [Dev.senseImage, Dev.senseApply, Dev.senseNoData]

@[simp] theorem onConv_held (c : Nat) (f : Converter → Converter) : (d.onConv c f).held = d.held := by rfl
@[simp] theorem onSlot_held (n : Nat) (f : Slot → Slot) : (d.onSlot n f).held = d.held := by rfl
@[simp] theorem abortSlot_held (n at' : Nat) : (d.abortSlot n at').held = d.held := by rfl
@[simp] theorem loadConverters_held : d.loadConverters.held = d.held := by rfl
@[simp] theorem loadGroups_held : d.loadGroups.held = d.held := by rfl
@[simp] theorem putWorktop_held (a : Nat) (b : List Byte) : (d.putWorktop a b).held = d.held := by rfl
@[simp] theorem onCx_held (i : Nat) (f : Crossing → Crossing) : (d.onCx i f).held = d.held := by rfl
@[simp] theorem cxDrop_held (i stamp : Nat) : (d.cxDrop i stamp).held = d.held := by simp [Dev.cxDrop]
@[simp] theorem cxUnowned_held : d.cxUnowned.held = d.held := by simp [Dev.cxUnowned]
@[simp] theorem convScriptsOff_held (c at' : Nat) : (d.convScriptsOff c at').held = d.held := by simp [Dev.convScriptsOff]

/-! #### The motor units, the Line and the bus -/

@[simp] theorem loadWhisk_held : d.loadWhisk.held = d.held := by simp [Dev.loadWhisk]
@[simp] theorem junctionStart_held : d.junctionStart.held = d.held := by simp [Dev.junctionStart]
@[simp] theorem lineStart_held : d.lineStart.held = d.held := by simp [Dev.lineStart]
@[simp] theorem switchRole_held (old : Image) : (d.switchRole old).held = d.held := by
  fun_cases Dev.switchRole d old
  simp +zetaDelta
@[simp] theorem remoteReset_held : d.remoteReset.held = d.held := by simp -implicitDefEqProofs [Dev.remoteReset]
@[simp] theorem busSay_held (mac : Nat) (m : BacMsg) : (d.busSay mac m).held = d.held := by simp [Dev.busSay]
@[simp] theorem busStart_held : d.busStart.held = d.held := by simp [Dev.busStart]
@[simp] theorem busStop_held : d.busStop.held = d.held := by rfl

/-! #### The pots -/

@[simp] theorem onPot_held (p : Nat) (f : PotState → PotState) : (d.onPot p f).held = d.held := by rfl
@[simp] theorem onTask_held (t : Nat) (f : TaskState → TaskState) : (d.onTask t f).held = d.held := by rfl
@[simp] theorem slotsStart_held (p : Nat) : (d.slotsStart p).held = d.held :=
  foldl_held (fun d n => by dsimp only; split <;> simp) _ d
@[simp] theorem remoteStart_held (p : Nat) : (d.remoteStart p).held = d.held := by
  simp -implicitDefEqProofs [Dev.remoteStart]
@[simp] theorem potStart_held (p : Nat) (warm same host : Bool) : (d.potStart p warm same host).held = d.held := by
  unfold Dev.potStart
  extract_lets w lo hi r pass mem d1 d2 blank d3 d4 fresh d5
  have h3 : d3.held = d.held := by simp [d3, d2, d1]
  have h4 : d4.held = d3.held := by simp [d4]
  have h5 : d5.held = d4.held := rfl
  simp [Dev.facePotStart, h5, h4, h3]
@[simp] theorem switchPots_held (old : Dev) (warm : Nat) : (switchPots old warm d).held = d.held := by simp [switchPots]

/-! #### The domains that the new plan makes OFF -/

@[simp] theorem tripUnit_held (u cause i : Nat) : (d.tripUnit u cause i).held = d.held := by simp [Dev.tripUnit]
@[simp] theorem convLost_held (c at' : Nat) : (d.convLost c at').held = d.held := by simp [Dev.convLost]
@[simp] theorem domainOff_held (at' n : Nat) : (d.domainOff at' n).held = d.held := by
  simp [Dev.domainOff, Dev.convOff, Dev.whiskOff, Dev.frontsOff, Dev.faceOff]
@[simp] theorem domainsOff_held (m : BitVec 16) : (d.domainsOff m).held = d.held := by simp [Dev.domainsOff]
@[simp] theorem planOff_held : d.planOff.held = d.held := by
  fun_cases Dev.planOff d <;> simp +zetaDelta
@[simp] theorem replanning_held {f : Dev → Dev} : (d.replanning f).held = (f d).held := by simp [Dev.replanning]

end blocks

/-! ### The switch made (R236) -/

/-- Bank `b` is ACTIVE alone and recorded, its image `m` runs, and no switch is in progress. -/
def Switched (b : Bool) (m : Image) (d : Dev) : Prop :=
  d.image = m ∧ d.store.sw = .idle ∧ d.store.record = some b ∧ (d.store.bank b).mode = .active ∧
    (d.store.bank (!b)).mode ≠ .active

variable {d e : Dev} {b : Bool} {m : Image}

theorem bank_congr {s u : StoreState} (hA : u.bankA = s.bankA) (hB : u.bankB = s.bankB) (a : Bool) : u.bank a = s.bank a := by
  unfold StoreState.bank
  rw [hA, hB]

theorem Switched.of_held (h : Switched b m d) (he : e.held = d.held) : Switched b m e := by
  simp only [Dev.held, Dev.banks, Prod.mk.injEq] at he
  obtain ⟨himage, hsw, hrecord, hA, hB⟩ := he
  have hbank := bank_congr hA hB
  unfold Switched
  rwa [himage, hsw, hrecord, hbank, hbank]

theorem activate_some_other_mode (s : StoreState) (b : Bool) : ((s.activate (some b)).bank (!b)).mode ≠ .active := by
  cases b
  · by_cases h : s.bankB.mode = .active <;> simp [StoreState.activate, StoreState.bank, h]
  · by_cases h : s.bankA.mode = .active <;> simp [StoreState.activate, StoreState.bank, h]

/-- The store of the switch: `b` is activated and recorded, and no switch is in progress. -/
theorem switched_of_store {s : StoreState} (himage : d.image = m) (hsw : d.store.sw = .idle)
    (hrecord : d.store.record = ((s.activate (some b)).recordBank b).record)
    (hA : d.store.bankA = ((s.activate (some b)).recordBank b).bankA)
    (hB : d.store.bankB = ((s.activate (some b)).recordBank b).bankB) : Switched b m d := by
  obtain ⟨hrA, hrB, -⟩ := recordBank_mems (s.activate (some b)) b
  have hbank := bank_congr (hA.trans hrA) (hB.trans hrB)
  refine ⟨himage, hsw, hrecord, ?_, ?_⟩
  · rw [hbank]; exact activate_some_mode s b
  · rw [hbank]; exact activate_some_other_mode s b

theorem bankSwitch_switched {t warm : Nat} (hs : d.store.sw = .armed b t warm m) (ht : t = d.ms % 2 ^ 32) :
    Switched b m d.bankSwitch := by
  have hdue : d.switchDue 0 = true := by simp [Dev.switchDue, hs, ht]
  unfold Dev.bankSwitch
  split
  case h_1 b' t' warm' m' hs' =>
    obtain ⟨rfl, rfl, rfl, rfl⟩ := SwitchState.armed.inj (hs.symm.trans hs')
    rw [if_neg (by simp [hdue])]
    extract_lets d1 d2 d3 c d4 d5 d6 d7 d8 d9
    have h4 : Switched b m d4 := by
      clear_value d2
      exact switched_of_store (s := d2.store) rfl rfl rfl rfl rfl
    have h6 : d6.held = d4.held := by simp [d6, d5]
    have h8 : d8.held = d6.held := by simp [d8, d7]
    have h9 : d9.held = d8.held := by simp [d9]
    exact h4.of_held (((planOff_held d9).trans h9).trans (h8.trans h6))
  case h_2 hne => exact absurd hs (hne b t warm m)

/-! ### The candidate verified (R233, R234) -/

/-- An attempt on a bank changes what SYS shows of the verification alone. -/
theorem attempt_sys (d : Dev) (b fresh : Bool) : ∃ f, (d.attempt b fresh).1 = d.onSys f := ⟨fun x => x.verified _, rfl⟩

@[simp] theorem logFlush_sw (d : Dev) : d.logFlush.store.sw = d.store.sw := by rw [logFlush_store]
@[simp] theorem logFlush_result (d : Dev) : d.logFlush.store.result = d.store.result := by rw [logFlush_store]
@[simp] theorem logFlush_vfyCause (d : Dev) : d.logFlush.store.vfyCause = d.store.vfyCause := by rw [logFlush_store]
@[simp] theorem logFlush_swAt (d : Dev) : d.logFlush.store.swAt = d.store.swAt := by rw [logFlush_store]

@[simp] theorem switchEnd_sw (d : Dev) (code : Nat) : (d.switchEnd code).store.sw = .idle := rfl
@[simp] theorem switchEnd_result (d : Dev) (code : Nat) : (d.switchEnd code).store.result = BitVec.ofNat 4 code := rfl
@[simp] theorem switchEnd_vfyCause (d : Dev) (code : Nat) : (d.switchEnd code).store.vfyCause = d.store.vfyCause := rfl

/-- The boundary asked for does not depend on what SYS shows. -/
theorem onSys_switchAt (d : Dev) (f : SysState → SysState) (m : Image) (at' : Nat) (net asap : Bool) :
    (d.onSys f).switchAt m at' net asap = d.switchAt m at' net asap := rfl

section verified

variable {at' warm c t : Nat} {net asap : Bool} (hs : d.store.sw = .verifying b at' warm net asap)
include hs

/-- A candidate that fails a check. -/
theorem switchVerified_failed (ha : (d.attempt b false).2 = (none, c)) :
    ∃ f, d.switchVerified =
      ((d.onSys f).onStore fun s => { s with vfyCause := BitVec.ofNat 8 c }).switchEnd 0xA := by
  obtain ⟨f, hf⟩ := attempt_sys d b false
  have he : d.attempt b false = (d.onSys f, none, c) := Prod.ext hf ha
  exact ⟨f, by simp only [Dev.switchVerified, hs, he]⟩

variable (ha : (d.attempt b false).2 = (some m, c))
include ha

/-- A candidate that passes, to be switched to at a network number that is not known. -/
theorem switchVerified_unknown (ht : d.switchAt m at' net asap = none) :
    ∃ f, d.switchVerified = (d.onSys f).switchEnd 5 := by
  obtain ⟨f, hf⟩ := attempt_sys d b false
  have he : d.attempt b false = (d.onSys f, some m, c) := Prod.ext hf ha
  exact ⟨f, by simp only [Dev.switchVerified, hs, he, onSys_switchAt, ht]⟩

variable (ht : d.switchAt m at' net asap = some t)
include ht

/-- A candidate that passes, but whose boundary is not ahead. -/
theorem switchVerified_late
    (hlate : (t + 2 ^ 32 - d.ms % 2 ^ 32) % 2 ^ 32 = 0 ∨ 2 ^ 31 ≤ (t + 2 ^ 32 - d.ms % 2 ^ 32) % 2 ^ 32) :
    ∃ f, d.switchVerified = (d.onSys f).switchEnd 9 := by
  obtain ⟨f, hf⟩ := attempt_sys d b false
  have he : d.attempt b false = (d.onSys f, some m, c) := Prod.ext hf ha
  refine ⟨f, ?_⟩
  simp only [Dev.switchVerified, hs, he, onSys_switchAt, ht, Bool.or_eq_true, decide_eq_true_eq]
  exact if_pos hlate

/-- A candidate that passes and whose boundary is ahead. -/
theorem switchVerified_armed
    (hahead : ¬((t + 2 ^ 32 - d.ms % 2 ^ 32) % 2 ^ 32 = 0 ∨ 2 ^ 31 ≤ (t + 2 ^ 32 - d.ms % 2 ^ 32) % 2 ^ 32)) :
    ∃ f, d.switchVerified = ((d.onSys f).onStore fun s =>
      { s.setResult 4 1 with sw := .armed b t warm m, swAt := BitVec.ofNat 32 t, progress := 100 }).attnStore := by
  obtain ⟨f, hf⟩ := attempt_sys d b false
  have he : d.attempt b false = (d.onSys f, some m, c) := Prod.ext hf ha
  refine ⟨f, ?_⟩
  simp only [Dev.switchVerified, hs, he, onSys_switchAt, ht, Bool.or_eq_true, decide_eq_true_eq]
  exact if_neg hahead

end verified

end Sys2Proof.Laws

namespace Sys2Proof.Proofs

open Sys2Proof.Machine Sys2Proof.Safety Sys2Proof.Laws

/-- Settles O37. A candidate that is verified takes one of four ends, by its checks and by where its boundary lies; of the
switch that is made, what follows the activation leaves the image, the bank record and the banks as they are. -/
theorem switchVerifiedAndMade : Obligations.SwitchVerifiedAndMade := by
  unfold Obligations.SwitchVerifiedAndMade
  refine fun b s => ⟨fun at' warm net asap hs => completes_of_act rfl ?_, fun t warm m hs ht => completes_of_act rfl ?_⟩
  · rcases ha : (s.dev.attempt b false).2 with ⟨_ | m, c⟩
    · obtain ⟨f, hf⟩ := switchVerified_failed hs ha
      simp [hf]
    · rcases ht : s.dev.switchAt m at' net asap with _ | t
      · obtain ⟨f, hf⟩ := switchVerified_unknown hs ha ht
        simp [hf, ht]
      · simp only [ht]
        split
        next hlate =>
          obtain ⟨f, hf⟩ := switchVerified_late hs ha ht hlate
          simp [hf]
        next hahead =>
          obtain ⟨f, hf⟩ := switchVerified_armed hs ha ht hahead
          simp [hf, Dev.attnStore, StoreState.setResult]
  · exact (bankSwitch_switched hs ht).of_held (by rw [Dev.settle_held, logFlush_held, replanning_held])

end Sys2Proof.Proofs

/-! ## Resets, the straps and what a power-on leaves (R254 to R257, R259, R262 to R265, R282, R284, R555) -/

namespace Sys2Proof.Machine

/-- What a reset takes over of the device before it, in the time base, the control cycle and SYS: the aborts and the larder
writes that it makes first leave it as it was. -/
def Dev.carried (d : Dev) : TimeState × CycleState × Bool × BitVec 16 × BitVec 2 :=
  (d.time, d.cycle, d.sys.resetHeld, d.sys.rstCount, d.sys.tollAuto)

/-- The device once a reset has made its aborts and its larder writes (R256), its other states still as they were. -/
def Dev.landed (r : PendReset) (e : ResetEnv) (d : Dev) : Dev :=
  let d1 := (d.storeReset e.words).lanesAtReset.logFlush
  if r.cutsLarder then d1.losePower e.worn e.landed else (d1.landAll e.worn).logFlush

/-- Both readings of the die temperature, as a milestone whose count is 0 takes them (R31, R50). -/
def TimeState.withDie (t : TimeState) (temp : Int) : TimeState :=
  { t with dieTemp := temp, rate := -t.errorPpb temp, dieShown := divRoundEven temp 100 }

/-- Where a start-up stands after a reset at a milestone boundary: held while RESET_N is low, else at its step 6 where the
domains are usable, or before it (R255, Table 9.6). -/
def SysState.begun (s : SysState) (ready : Bool) : SysState :=
  if s.resetHeld then { s with boot := .held, progress := 1 }
  else { s with boot := if ready then .larder else .wait, zeroNext := false }

end Sys2Proof.Machine

namespace Sys2Proof.Laws

open Sys2Proof.Machine Sys2Proof.Safety

/-! ### What the aborts and the larder writes of a reset leave (R256)

A lemma `f_carried` says of each function that a reset runs first that it leaves what the reset takes over, so that `simp`
carries `Dev.carried` through them. -/

@[simp] theorem carried_ite (c : Prop) [Decidable c] (a b : Dev) :
    (if c then a else b).carried = if c then a.carried else b.carried := apply_ite Dev.carried c a b

theorem foldl_carried {α : Type} {f : Dev → α → Dev} (hf : ∀ d a, (f d a).carried = d.carried) (l : List α) (d : Dev) :
    (l.foldl f d).carried = d.carried := by
  induction l generalizing d with
  | nil => rfl
  | cons a l ih => exact (ih _).trans (hf d a)

section carried

variable (d : Dev)

@[simp] theorem onStore_carried (f : StoreState → StoreState) : (d.onStore f).carried = d.carried := rfl
@[simp] theorem onLane_carried (f : LaneState → LaneState) : (d.onLane f).carried = d.carried := rfl
@[simp] theorem event_carried (code subject detail tag aux : Nat) :
    (d.event code subject detail tag aux).carried = d.carried := rfl
@[simp] theorem logFlush_carried : d.logFlush.carried = d.carried := rfl
@[simp] theorem storeEnd_carried (op code : Nat) (point : Bool) : (d.storeEnd op code point).carried = d.carried := rfl
@[simp] theorem retireLane_carried (k cause served : Nat) : (d.retireLane k cause served).carried = d.carried := rfl

@[simp] theorem onRegion_carried (g : Nat) (f : RegionStat → RegionStat) : (d.onRegion g f).carried = d.carried := by
  obtain ⟨rs, h⟩ := onRegion_regions d g f
  rw [h]
  rfl

@[simp] theorem countWear_carried (g : Nat) : (d.countWear g).carried = d.carried := by
  rw [countWear_keeps]
  rfl

@[simp] theorem cellWrite_carried (g : Nat) (b : List Byte) : (d.cellWrite g b).carried = d.carried := by
  rw [cellWrite_keeps]
  rfl

@[simp] theorem retireGroup_carried (g cause : Nat) : (d.retireGroup g cause).carried = d.carried := by
  simp [Dev.retireGroup]

@[simp] theorem writeHome_carried (g : Nat) (b : List Byte) (ok host : Bool) :
    (d.writeHome g b ok host).carried = d.carried := by
  simp [Dev.writeHome]

@[simp] theorem hostLanded_carried : d.hostLanded.carried = d.carried := by
  fun_cases Dev.hostLanded d <;> simp

@[simp] theorem landFront_carried (ok : Bool) : (d.landFront ok).carried = d.carried := by
  unfold Dev.landFront
  split <;> simp

@[simp] theorem landMany_carried (worn : List Nat) (n : Nat) : (Dev.landMany worn n d).carried = d.carried := by
  induction n generalizing d with
  | zero => rfl
  | succ n ih => exact (ih _).trans (landFront_carried _ _)

@[simp] theorem abortBusy_carried (o : StoreOp) (words : Nat) : (d.abortBusy o words).carried = d.carried := by
  cases o <;> simp [Dev.abortBusy]

@[simp] theorem storeReset_carried (words : Nat) : (d.storeReset words).carried = d.carried := by
  unfold Dev.storeReset
  extract_lets d1 d2
  have h2 : d2.carried = d.carried := by simp [d2, d1]
  split <;> simp [h2]

@[simp] theorem lanesAtReset_carried : d.lanesAtReset.carried = d.carried := by
  unfold Dev.lanesAtReset
  exact foldl_carried (fun d f => by split <;> simp) _ _

/-- Of what a reset takes over nothing changes before it takes it over. -/
theorem landed_carried (r : PendReset) (e : ResetEnv) : (d.landed r e).carried = d.carried := by
  simp [Dev.landed, Dev.losePower, Dev.landAll]

end carried

/-! ### A reset at a milestone boundary (R254 to R257, R265) -/

theorem readDie_of_zero {d : Dev} (temp : Int) (hw : d.time.wm = 0) (hc : d.time.count = 0) :
    d.readDie temp = { d with time := d.time.withDie temp } := by
  have hms (n : Nat) : d.ms % n = 0 := by simp [Dev.ms, hc]
  rw [Dev.readDie, xtalComp_of_due temp hw (hms 16)]
  exact dieTempRefresh_of_due temp hw (hms 256)

/-- The boundary that a reset replaces becomes 0:0. -/
theorem afterReset_time_zero (r : PendReset) (d : Dev) :
    (d.afterReset r true).time.wm = 0 ∧ (d.afterReset r true).time.count = 0 := by
  dsimp only [Dev.afterReset]
  split <;> exact ⟨rfl, rfl⟩

/-- A reset at a milestone boundary in its parts: aborts and larder writes, every state of Table 9.2, the die temperature, and
where start-up stands. -/
theorem doReset_boundary (r : PendReset) (e : ResetEnv) (d : Dev) :
    d.doReset r true e =
      let x := (d.landed r e).afterReset r true
      { x with time := x.time.withDie e.die, sys := x.sys.begun (r.kind != .powerOn && x.power.ready == tollgateOn) } := by
  unfold Dev.doReset
  extract_lets d1 d2 d3 ready
  obtain ⟨hw, hc⟩ := afterReset_time_zero r d2
  rw [if_pos rfl, readDie_of_zero e.die hw hc]
  rfl

/-- Start-up's step is all that the beginning of a start-up changes of SYS. -/
theorem begun_eq (s : SysState) (ready : Bool) :
    ∃ boot progress zeroNext, s.begun ready = { s with boot, progress, zeroNext } := by
  unfold SysState.begun
  split
  · exact ⟨_, _, s.zeroNext, rfl⟩
  · exact ⟨_, s.progress, _, rfl⟩

/-- The rate that the factory parameters of the crystal give (Table 2.4). -/
theorem withDie_reset (temp : Int) : TimeState.reset.withDie temp =
    { TimeState.reset with
      dieTemp := temp, dieShown := divRoundEven temp 100, rate := 34 * (temp - 2500) * (temp - 2500) / 10000 } := by
  have hrate : -TimeState.reset.errorPpb temp = 34 * (temp - 2500) * (temp - 2500) / 10000 := by
    simp [TimeState.errorPpb, TimeState.reset, Int.fdiv_eq_ediv_of_nonneg]
  rw [TimeState.withDie, hrate]

/-- A power-on reset, whatever its source (R254, R265). -/
theorem doReset_powerOn (source : Nat) (e : ResetEnv) (d : Dev) :
    AtPowerOn e.die d.sys.resetHeld (d.doReset { source, kind := .powerOn, faultPd := 0 } true e) ∧
      (d.doReset { source, kind := .powerOn, faultPd := 0 } true e).sys.rstSource = BitVec.ofNat 4 source := by
  obtain ⟨hsource, -, -⟩ := doReset_cause { source, kind := .powerOn, faultPd := 0 } true e d
  refine ⟨?_, hsource⟩
  have hcarried := landed_carried d { source, kind := .powerOn, faultPd := 0 } e
  simp only [Dev.carried, Prod.mk.injEq] at hcarried
  obtain ⟨-, -, hheld, -, -⟩ := hcarried
  rw [doReset_boundary, ← hheld]
  generalize d.landed _ e = x
  refine ⟨withDie_reset e.die, rfl, rfl, rfl, rfl, rfl, ?_⟩
  cases hx : x.sys.resetHeld <;>
    simp [Dev.afterReset, SysState.atReset, SysState.begun, SysState.reset, SeatState.atReset, SeatState.reset, hx]

/-! ### The rows -/

/-- The one reset that waits is carried out at the end of the milestone (R255, R284). -/
theorem resetApply_single {d : Dev} {r : PendReset} (hw : d.time.wm = 255) (hp : d.sys.pendResets = [r]) (e : ResetEnv) :
    d.resetApply e = (d.onTime fun x => { x with now := d.time.msStart + d.time.msLen }).doReset r true e := by
  simp [Dev.resetApply, hw, hp, pickResets]

/-- What a warm or cold reset that waits records of its own, what it counts, and what it leaves of the device before it, in the
place of the milestone boundary (R255 to R257, R282). -/
theorem resetApply_afterReset {d : Dev} {r : PendReset} (hw : d.time.wm = 255) (hp : d.sys.pendResets = [r])
    (hk : r.kind ≠ .powerOn) (e : ResetEnv) :
    AfterReset d (d.resetApply e) (BitVec.ofNat 4 r.source) r.kind ∧ (d.resetApply e).sys.tollAuto =
        if r.kind = .warm then (if r.source = 7 then d.sys.tollAuto + 1 else d.sys.tollAuto) else 0 := by
  have hcarried := landed_carried (d.onTime fun x => { x with now := d.time.msStart + d.time.msLen }) r e
  rw [resetApply_single hw hp, doReset_boundary]
  generalize Dev.landed r e _ = x at hcarried ⊢
  simp only [Dev.carried, Dev.onTime_time, Dev.onTime_cycle, Dev.onTime_sys, Prod.mk.injEq] at hcarried
  obtain ⟨htime, hcycle, -, hcount, hauto⟩ := hcarried
  have hnow : x.time.now = d.time.msStart + d.time.msLen := by rw [htime]
  have hloss : x.time.cntLoss = d.time.cntLoss := by rw [htime]
  unfold AfterReset
  rw [← hnow, ← hloss, ← hcycle, ← hcount, ← hauto]
  obtain ⟨boot, progress, zeroNext, hb⟩ := begun_eq (x.sys.atReset r true)
    (r.kind != .powerOn && (x.afterReset r true).power.ready == tollgateOn)
  have hsys : (x.afterReset r true).sys = x.sys.atReset r true := rfl
  simp only [hsys, hb]
  obtain ⟨source, kind, faultPd⟩ := r
  cases kind
  case powerOn => exact absurd rfl hk
  all_goals exact ⟨⟨rfl, rfl, rfl, rfl, rfl, rfl, rfl, rfl, rfl, rfl, rfl, rfl, rfl, rfl⟩, rfl⟩

/-- Where it is due, the automatic reset is a warm reset of source 7 (R282). -/
theorem tollAutoReset_due {d : Dev} (hd : d.tollAutoDue = true) (hw : d.time.wm = 255) (e : ResetEnv) :
    d.tollAutoReset e = (d.orderReset 7 .warm).resetApply e := by
  simp [Dev.tollAutoReset, Dev.tollAutoOrder, hd, hw]

/-- The straps latched once, by the two readings of HOSTSEL (R262, R555). -/
theorem strapLatch_first {d : Dev} (hs : d.sys.strapped = false) (hb : d.sys.boot ≠ .held) (hz : d.sys.zeroNext = false)
    (t : BitVec 3) (prov up down : Bool) : d.strapLatch t prov up down = { d with sys := { d.sys with
      strapped := true, tstrap := t, provEn := prov
      hostSel := if up && down then 2 else if up then 3 else 1 } } := by
  rw [Dev.strapLatch, if_neg (by simp [hs, hb, hz])]
  rfl

end Sys2Proof.Laws

namespace Sys2Proof.Proofs

open Sys2Proof.Machine Sys2Proof.Safety Sys2Proof.Laws

/-- Settles O7: no event waits, the domains usable are those on, and the memories hold what the factory wrote. -/
theorem invariantsAtReset : Obligations.InvariantsAtReset := by
  unfold Obligations.InvariantsAtReset
  exact ⟨rfl, reset_readyOn rfl, rfl, rfl, rfl, rfl⟩

/-- Settles O8: each value is the one that the state after a reset is written with; the factory parameters are those of log 5. -/
theorem resetValues : Obligations.ResetValues := by
  unfold Obligations.ResetValues
  exact ⟨rfl, rfl, rfl, rfl, rfl, rfl, rfl, rfl, rfl, rfl, rfl, rfl, rfl, rfl, rfl, rfl, rfl, rfl, rfl, rfl, rfl⟩

/-- Settles O13: the straps are a change of SYS that touches neither the mode nor a guarantee. -/
theorem strapsLatched : Obligations.StrapsLatched := by
  unfold Obligations.StrapsLatched
  intro t prov up down s hl hs hb hz
  refine becomes_of_calm rfl ?_ hl rfl rfl rfl
  rw [strapLatch_first hs hb hz]
  cases up <;> cases down <;> rfl

/-- Settles O10. A power-on reset is made at its instant; every other only joins those that wait. The reset values of VNOW,
READY and the factory parameters are those of logs 6, 9 and 5. -/
theorem resetsOrderedAndMade : Obligations.ResetsOrderedAndMade := by
  unfold Obligations.ResetsOrderedAndMade
  refine ⟨fun e s => ⟨completes_of_act rfl (doReset_powerOn 1 e s.dev), completes_of_act rfl (doReset_powerOn 2 e s.dev)⟩,
    fun s hl => ⟨?warm, ?cold, fun hh => ?pin, ?release⟩⟩
  case pin =>
    have hf : s.dev.resetN = (s.dev.orderReset 3 .cold).onSys fun x => { x with resetHeld := true } := by
      simp [Dev.resetN, hh]
    exact becomes_of_calm rfl hf hl rfl rfl rfl
  all_goals exact becomes_of_calm rfl rfl hl rfl rfl rfl

/-- Settles O11. The one reset that waits, and the automatic reset, are one operation in the place of the boundary. That the
rows act in the last waymark alone is log 68. -/
theorem pendingResetTakesEffect : Obligations.PendingResetTakesEffect := by
  unfold Obligations.PendingResetTakesEffect
  intro e s hw
  refine ⟨fun r hp hk => completes_of_act rfl ?pending, fun h hp hh hm hc hd ha hle => completes_of_act rfl ?automatic⟩
  case pending =>
    obtain ⟨hafter, -⟩ := resetApply_afterReset hw hp hk e
    exact hafter
  case automatic =>
    have hdue : s.dev.tollAutoDue = true := by
      simp [Dev.tollAutoDue, hh, hm, hc, hd, ha, hle]
    have hpend : (s.dev.orderReset 7 .warm).sys.pendResets = [{ source := 7, kind := .warm, faultPd := 0 }] := by
      simp [Dev.orderReset, hp]
    rw [tollAutoReset_due hdue hw]
    exact resetApply_afterReset (d := s.dev.orderReset 7 .warm) hw hpend (by decide) e

end Sys2Proof.Proofs

/-! ## The seat is taken and left, and requests are judged (R260, R271, R412, R413, R416 to R420, R423) -/

namespace Sys2Proof.Laws

open Sys2Proof.Machine Sys2Proof.Safety

/-! ### A frame of the local host is heard (R413) -/

/-- The seat as a frame of the local host leaves it: where that host holds the seat, its silence starts afresh. -/
def heardSeat (d : Dev) : SeatState := if d.seat.holder = .spi then { d.seat with heard := d.ms } else d.seat

section heard

variable (d : Dev)

theorem hear_spi : d.hear .spi = { d with seat := heardSeat d } := by
  unfold Dev.hear heardSeat
  split <;> rfl

theorem heardSeat_of_other {d : Dev} (h : d.seat.holder ≠ .spi) : heardSeat d = d.seat := if_neg h

theorem heardSeat_of_holder {d : Dev} (h : d.seat.holder = .spi) : heardSeat d = { d.seat with heard := d.ms } := if_pos h

/-- The instant of the last frame is all that a frame changes by being heard. -/
theorem heardSeat_eq : ∃ t, heardSeat d = { d.seat with heard := t } := by
  unfold heardSeat
  split
  · exact ⟨_, rfl⟩
  · exact ⟨d.seat.heard, rfl⟩

@[simp] theorem heardSeat_holder : (heardSeat d).holder = d.seat.holder := by
  obtain ⟨t, h⟩ := heardSeat_eq d
  rw [h]

@[simp] theorem heardSeat_priv : (heardSeat d).priv = d.seat.priv := by
  obtain ⟨t, h⟩ := heardSeat_eq d
  rw [h]

@[simp] theorem heardSeat_estr : (heardSeat d).estr = d.seat.estr := by
  obtain ⟨t, h⟩ := heardSeat_eq d
  rw [h]

@[simp] theorem heardSeat_e : (heardSeat d).e = d.seat.e := by
  obtain ⟨t, h⟩ := heardSeat_eq d
  rw [h]

@[simp] theorem heardSeat_stored : (heardSeat d).stored = d.seat.stored := by
  obtain ⟨t, h⟩ := heardSeat_eq d
  rw [h]

end heard

/-! ### What is judged before a command is looked at (R271, R418) -/

section judged

variable {d : Dev} {r : SeatReq} {cmd : Nat} {run : Option (List Byte × Nat) → Dev → SeatStatus × List Byte × Dev}

theorem pd_of_heeded (h : Heeded d r) : d.pd 1 = true := by
  obtain ⟨hpd, -, -⟩ := h
  exact hpd

theorem gate_heeded (h : Heeded d r) : (d.hear .spi).gate r false = none := by
  obtain ⟨-, hcrc, hboot⟩ := h
  simp [Dev.gate, hear_spi, hcrc, hboot]

theorem sequenced_badCrc (h : r.crcOk = false) : d.sequenced .spi cmd r run =
    (answerTo r 3 [], { d with seat := { heardSeat d with badCrc := satInc (heardSeat d).badCrc } }) := by
  simp only [Dev.sequenced, Dev.gate, hear_spi, h, Bool.not_false, if_true]
  rfl

theorem sequenced_startUp (h : r.crcOk = true) (hb : d.sys.boot ≠ .done) : d.sequenced .spi cmd r run =
    (answerTo r 1 [d.sys.progress.setWidth 8], { d with seat := heardSeat d }) := by
  simp [Dev.sequenced, Dev.gate, hear_spi, h, hb, SeatReq.answer, answerTo, SeatStatus.code]

/-! ### The holder and its SEQ (R416, R418 to R420) -/

theorem sequenced_estranged (h : Heeded d r) (he : d.seat.estr = true) : d.sequenced .spi cmd r run =
    (answerTo r 5 [], { d with seat := heardSeat d }) := by
  simp only [Dev.sequenced, gate_heeded h]
  simp [hear_spi, he, SeatReq.answer, answerTo, SeatStatus.code]

theorem sequenced_other (h : Heeded d r) (he : d.seat.estr = false) (ho : d.seat.holder ≠ .spi) :
    d.sequenced .spi cmd r run = (answerTo r 2 [], d) := by
  simp only [Dev.sequenced, gate_heeded h]
  simp [hear_spi, heardSeat_of_other ho, he, ho, SeatReq.answer, answerTo, SeatStatus.code]

/-- A request of the holder is judged by its SEQ. -/
theorem sequenced_holder (h : Heeded d r) (he : d.seat.estr = false) (ho : d.seat.holder = .spi) :
    d.sequenced .spi cmd r run = ({ d with seat := heardSeat d } : Dev).bySeq cmd r run := by
  simp only [Dev.sequenced, gate_heeded h]
  simp [hear_spi, he, ho]

/-- The last request sent again is answered as it was. -/
theorem bySeq_repeated {x : StoredResponse} (hne : r.seq ≠ d.seat.e) (hs : d.seat.stored = some x)
    (hseq : r.seq + 1 = d.seat.e) (hcrc : x.crc = r.crc cmd) : d.bySeq cmd r run = (x.resp, d) := by
  rw [Dev.bySeq, if_neg hne]
  simp only [hs, hseq, hcrc, beq_self_eq_true, decide_true, Bool.and_self, if_true]

/-- Any other SEQ that is not expected estranges the seat. -/
theorem bySeq_unexpected (hne : r.seq ≠ d.seat.e)
    (hno : ∀ x, d.seat.stored = some x → r.seq + 1 = d.seat.e → x.crc ≠ r.crc cmd) : d.bySeq cmd r run =
      (answerTo r 4 [], { d with seat := { d.seat with badSeq := satInc d.seat.badSeq, estr := true } }) := by
  rw [Dev.bySeq, if_neg hne]
  rcases hs : d.seat.stored with _ | x
  · rfl
  · have hagain : (decide (r.seq + 1 = d.seat.e) && x.crc == r.crc cmd) = false := by
      simpa using hno x hs
    simp only [hagain]
    rfl

end judged

/-! ### The port (R271) -/

theorem port_closed {d : Dev} (f : Dev → Dev) (h : d.pd 1 = false) : d.port f = d := by
  simp [Dev.port, h]

/-- A request that the port carries completes with its answer as the frame sent last. -/
theorem becomes_of_answer {i : Instr} {s : State} {f : Dev → Response × Dev} {a : Response} {e : Dev}
    (hi : exec i s = s.act (Dev.port fun d => Dev.spi (f d))) (hpd : s.dev.pd 1 = true) (hf : f s.dev = (a, e))
    (hl : Logged e) (hs : e.sys = s.dev.sys) : Becomes i s { e with seat := { e.seat with last := some a } } :=
  becomes_of_quiet hi (by rw [Dev.port, if_pos hpd, hf]; rfl) hl hs

end Sys2Proof.Laws

namespace Sys2Proof.Proofs

open Sys2Proof.Machine Sys2Proof.Safety Sys2Proof.Laws

/-- Settles O50: the six commands are one judgement, which performs none of them in these cases. That a bad CRC comes before
start-up is log 108. -/
theorem requestsGuardedBySequence : Obligations.RequestsGuardedBySequence := by
  unfold Obligations.RequestsGuardedBySequence
  intro r env s p hl hp d h
  obtain ⟨run, hi⟩ : ∃ run, exec p.2 s = s.act (Dev.port fun d => Dev.spi (d.sequenced .spi p.1 r run)) := by
    simp only [List.mem_cons, List.not_mem_nil, or_false] at hp
    rcases hp with rfl | rfl | rfl | rfl | rfl | rfl <;> exact ⟨_, rfl⟩
  have hanswer {a e} (hpd : d.pd 1 = true) (he : d.sequenced .spi p.1 r run = (a, e)) (hle : Logged e)
      (hs : e.sys = d.sys) : Becomes p.2 s { e with seat := { e.seat with last := some a } } :=
    becomes_of_answer hi hpd he hle hs
  refine ⟨fun hpd => becomes_of_quiet hi (port_closed _ hpd) hl rfl,
    fun hpd hcrc => hanswer hpd (sequenced_badCrc hcrc) hl rfl,
    fun hpd hcrc hb => hanswer hpd (sequenced_startUp hcrc hb) hl rfl, fun hh => ?heeded⟩
  have hpd : d.pd 1 = true := pd_of_heeded hh
  refine ⟨fun he => hanswer hpd (sequenced_estranged hh he) hl rfl,
    fun he ho => hanswer hpd (sequenced_other hh he ho) hl rfl, fun he ho hne => ?bySeq⟩
  have hseq := sequenced_holder (cmd := p.1) (run := run) hh he ho
  refine ⟨fun x hx h1 hc => hanswer hpd (hseq.trans (bySeq_repeated ?_ ?_ ?_ hc)) hl rfl,
    fun hno => hanswer hpd (hseq.trans (bySeq_unexpected ?_ ?_)) hl rfl⟩ <;> simpa

end Sys2Proof.Proofs

namespace Sys2Proof.Laws

open Sys2Proof.Machine Sys2Proof.Safety

/-! ### IDENTIFY, TAKE and RESET (R260, R412, R423, Tables 14.3 and 14.4) -/

theorem leBytes_one (x : BitVec 8) : leBytes 1 x.toNat = [x] := by
  simp [leBytes]

theorem identifyBytes_heard (d : Dev) : ({ d with seat := heardSeat d } : Dev).identifyBytes .spi =
    leBytes 4 0x48160001 ++ leBytes 8 Config.uid.toNat ++ [d.sys.progress.setWidth 8] ++
      leBytes 1 (d.sys.mode.code + 4 * d.sys.role.toNat + 16 * d.sys.hostSel.toNat) ++
      leBytes 1 (d.seat.holder.code + 4 * b2n d.seat.priv + 8 * b2n d.seat.estr +
        16 * b2n (d.seat.holder == .spi)) ++ [0] := by
  simp [Dev.identifyBytes, leBytes_one]

/-- IDENTIFY is answered at start-up too. -/
theorem seatIdentify_of_crc {d : Dev} {r : SeatReq} (h : r.crcOk = true) : d.seatIdentify .spi r =
    (answerTo r 0 (({ d with seat := heardSeat d } : Dev).identifyBytes .spi), { d with seat := heardSeat d }) := by
  simp [Dev.seatIdentify, Dev.gate, hear_spi, h, Dev.doIdentify, SeatReq.answer, answerTo, SeatStatus.code]

/-- A TAKE of the free seat is judged by HOSTSEL alone where the local host asks. -/
theorem seatTake_free {d : Dev} {r : SeatReq} (h : Heeded d r) (hf : d.seat.holder = .free) (he : d.seat.estr = false) :
    d.seatTake .spi r = if d.sys.hostSel.getLsbD 0 then (answerTo r 0 [], { d with seat := { d.seat with
        holder := .spi, heard := d.ms, e := r.seq + 1
        stored := some { crc := r.crc 0x02, resp := answerTo r 0 [] } } })
      else (answerTo r 2 [], d) := by
  have hsame : heardSeat d = d.seat := heardSeat_of_other (by simp [hf])
  have hgrant : d.takeGranted .spi = d.sys.hostSel.getLsbD 0 := by
    simp [Dev.takeGranted, hf, Holder.isRemote, bitOf, BitVec.getLsbD]
  have hjudge : d.seatTake .spi r = d.doTake .spi r := by
    simp only [Dev.seatTake, gate_heeded h]
    simp [hear_spi, hsame, hf, he]
  rw [hjudge, Dev.doTake, hgrant]
  cases d.sys.hostSel.getLsbD 0
  · rfl
  · simp [he, SeatReq.answer, answerTo, SeatStatus.code, Dev.onSeat]

/-- RESET by the holder, the estranged one too, orders the reset of its kind. -/
theorem seatReset_holder {d : Dev} {r : SeatReq} (h : Heeded d r) (ho : d.seat.holder = .spi) (k : Fin 2)
    (hp : r.payload = [BitVec.ofNat 8 (k.val + 1)]) : d.seatReset .spi r =
      (answerTo r 0 [], { d with
        sys := { d.sys with pendResets := d.sys.pendResets ++
          [{ source := 4 + k.val, kind := if k.val = 0 then .warm else .cold, faultPd := 0 }] }
        seat := { d.seat with heard := d.ms } }) := by
  have hjudge : d.seatReset .spi r = ({ d with seat := { d.seat with heard := d.ms } } : Dev).doSeatReset r := by
    simp only [Dev.seatReset, gate_heeded h]
    simp [hear_spi, ho, heardSeat_of_holder ho]
  rw [hjudge]
  fin_cases k <;> simp [Dev.doSeatReset, hp, byteAt, Dev.orderReset, Dev.onSys, SeatReq.answer, answerTo, SeatStatus.code]

theorem idleFree_of_silent {d : Dev} {ch : Nat} (hh : d.seat.holder = .remote ch) (hs : d.seat.heard + 3000 ≤ d.ms) :
    d.idleFree = d.onSeat fun s => { s.freed with idleFree := satInc s.idleFree } := by
  simp [Dev.idleFree, hh, Holder.isRemote, hs]

end Sys2Proof.Laws

namespace Sys2Proof.Proofs

open Sys2Proof.Machine Sys2Proof.Safety Sys2Proof.Laws

/-- Settles O49. Each request is one change to the seat and its answer; RESET changes SYS by the reset that it orders. -/
theorem seatTakenAndLeft : Obligations.SeatTakenAndLeft := by
  unfold Obligations.SeatTakenAndLeft
  intro r s hl d
  refine ⟨fun hpd hcrc => completes_of_act rfl ?identify, fun hh hf he => ⟨fun hsel => ?granted, fun hsel => ?denied⟩,
    fun hn => completes_of_act rfl ?release, fun hh ho k hp => ?reset, becomes_of_quiet (f := fun d => d) rfl rfl hl rfl,
    fun ch hh hs => completes_of_act rfl ?silent⟩
  case identify =>
    rw [Dev.port, if_pos hpd, seatIdentify_of_crc hcrc, identifyBytes_heard]
    exact ⟨rfl, heardSeat_holder d⟩
  case granted =>
    exact becomes_of_answer rfl (pd_of_heeded hh) ((seatTake_free hh hf he).trans (if_pos hsel)) hl rfl
  case denied =>
    have hno : d.sys.hostSel.getLsbD 0 ≠ true := by
      rw [hsel]
      exact Bool.false_ne_true
    exact becomes_of_answer rfl (pd_of_heeded hh) ((seatTake_free hh hf he).trans (if_neg hno)) hl rfl
  case release =>
    have hrelease := sequenced_nextOfHolder hn 0x03 (run := fun _ x => x.doRelease) rfl
    rw [Dev.port, if_pos (pd_of_heeded hn.1), Dev.seatRelease, hrelease]
    exact ⟨rfl, rfl, rfl⟩
  case reset =>
    refine becomes_of_calm rfl ?_ hl rfl rfl rfl
    rw [Dev.port, if_pos (pd_of_heeded hh), seatReset_holder hh ho k hp]
    rfl
  case silent =>
    rw [idleFree_of_silent hh hs]
    exact ⟨rfl, rfl, rfl⟩

end Sys2Proof.Proofs

/-! ## Fans, SYS_SHDN and floating actuators (R264, R484 to R492, R498, R499) -/

namespace Sys2Proof.Laws

open Sys2Proof.Machine Sys2Proof.Safety

/-! ### One fan (R484, R486, R487, R489) -/

section fan

variable {d : Dev} {f : Fin 6}

theorem onFanN_fin (d : Dev) (f : Fin 6) (g : Fan → Fan) : d.onFanN f.val g =
    { d with fan := { d.fan with fans := d.fan.fans.set f (g d.fan.fans[f]) } } := by
  simp only [Dev.onFanN, Dev.onFan, vupdN_eq_set]

theorem kickEnd_last (h : (d.fan.fans[f]).kick = some 1) : d.kickEnd f =
    { d with fan := { d.fan with fans := d.fan.fans.set f { d.fan.fans[f] with kick := none } } } := by
  rw [Dev.kickEnd, onFanN_fin, if_pos h]

theorem tachEdge_accepted {stamp e : Nat} {more : List Nat} (hpd : d.pd 14 = true)
    (he : (d.fan.fans[f]).edges = e :: more) (ht : e + 16 ≤ stamp / 1000) : d.tachEdge f stamp =
      { d with fan := { d.fan with fans := d.fan.fans.set f { d.fan.fans[f] with
        edges := stamp / 1000 :: e :: more.take 62, edged := true, quiet := 0 } } } := by
  simp only [Dev.tachEdge, hpd, Bool.not_true, Bool.false_eq_true, if_false, onFanN_fin, he, List.take_succ_cons,
    if_neg (Nat.not_lt.mpr ht)]

theorem tachLostEvent_due (hpd : d.pd 14 = true) (ho : d.image.owner (0x040 + f.val) < 16)
    (hl : (d.fan.fans[f]).tachLost = false)
    (hq : 256 * fan16 (d.image.tableOf (0x040 + f.val)) 0x12 ≤ (d.fan.fans[f]).quiet) : d.tachLostEvent f =
      { d with fan := { d.fan with fans := d.fan.fans.set f { d.fan.fans[f] with
        tachLost := true, tachLosses := satInc (d.fan.fans[f]).tachLosses } } } := by
  have hdue : (d.fan.fans[f]).tachDue (d.image.tableOf (0x040 + f.val)) = true := by
    simp only [Fan.tachDue, hl, hq, Bool.not_false, decide_true, Bool.and_self]
  simp only [Dev.tachLostEvent, hpd, ho, decide_true, Bool.and_self, if_true, onFanN_fin, hdue]
  rfl

theorem fanCapture_fan (go : BitVec 6) (d : Dev) (f : Fin 6) : (d.fanCapture go).fan.fans[f] =
    if go.getLsbD f.val then { d.fan.fans[f] with capture := true } else d.fan.fans[f] :=
  vmapi_get _ _ f

end fan

/-! ### SYS_SHDN (R264, R490, R491) -/

section shutdown

variable {d : Dev} {die : Int} {ohm : Nat}

/-- A resistance within its limits is shown as it is. -/
theorem shdn_shown (h1 : 50 ≤ ohm) (h2 : ohm ≤ 200000) :
    (if 200000 < ohm then 0x3FFFF else if ohm < 50 then 0 else ohm) = ohm := by
  rw [if_neg (by omega), if_neg (by omega)]

/-- Before the strap instant a comparison changes the shown resistance alone. -/
theorem shdnCompare_unlatched (hs : d.sys.strapped = false) (h1 : 50 ≤ ohm) (h2 : ohm ≤ 200000) :
    (d.shdnCompare die ohm).fan = { d.fan with ohm := BitVec.ofNat 18 ohm } := by
  simp only [Dev.shdnCompare, hs, Bool.not_false, if_true, shdn_shown h1 h2]
  rfl

/-- Above the trip point of the die a comparison counts, and the fourth asserts SYS_SHDN. -/
theorem shdnCompare_hot (hs : d.sys.strapped = true) (hf : d.fan.shdnFirst = false) (h1 : 50 ≤ ohm) (h2 : ohm ≤ 200000)
    (hd : 7000 + 500 * (d.sys.tstrap.toNat : Int) < die) (hr : d.fan.shdn = false) :
    (d.shdnCompare die ohm).fan.ohm = BitVec.ofNat 18 ohm ∧
    (if 3 ≤ d.fan.hotRun then
      (d.shdnCompare die ohm).fan.shdn = true ∧ (d.shdnCompare die ohm).fan.shdnCause = 2 ∧
        (d.shdnCompare die ohm).fan.shdnCount = satInc d.fan.shdnCount
    else (d.shdnCompare die ohm).fan.shdn = false ∧ (d.shdnCompare die ohm).fan.hotRun = d.fan.hotRun + 1) := by
  have hcause : shdnCauseOf d.sys.tstrap.toNat die ohm = 2 := if_pos hd
  have hfour : 4 ≤ d.fan.hotRun + 1 ↔ 3 ≤ d.fan.hotRun := Nat.succ_le_succ_iff
  simp only [Dev.shdnCompare, hs, hf, hr, hcause, shdn_shown h1 h2, hfour, Bool.not_true, Bool.false_eq_true, if_false,
    OfNat.ofNat_ne_zero]
  by_cases h : 3 ≤ d.fan.hotRun
  · rw [if_pos h, if_pos h]
    exact ⟨rfl, rfl, rfl, rfl⟩
  · rw [if_neg h, if_neg h]
    exact ⟨rfl, rfl, rfl⟩

/-- Below the release point a comparison counts, and the fourth releases SYS_SHDN. -/
theorem shdnCompare_cool (hs : d.sys.strapped = true) (hf : d.fan.shdnFirst = false) (h1 : 50 ≤ ohm) (h2 : ohm ≤ 200000)
    (hd : die ≤ 6200 + 500 * (d.sys.tstrap.toNat : Int)) (ho : shdnRelease.getD d.sys.tstrap.toNat 0 ≤ ohm)
    (hr : d.fan.shdn = true) :
    if 3 ≤ d.fan.coolRun then (d.shdnCompare die ohm).fan.shdn = false
    else (d.shdnCompare die ohm).fan.shdn = true ∧ (d.shdnCompare die ohm).fan.coolRun = d.fan.coolRun + 1 := by
  have hcool : shdnCool d.sys.tstrap.toNat die ohm = true := by
    simp only [shdnCool, hd, ho, h1, h2, decide_true, Bool.and_self]
  have hfour : 4 ≤ d.fan.coolRun + 1 ↔ 3 ≤ d.fan.coolRun := Nat.succ_le_succ_iff
  simp only [Dev.shdnCompare, hs, hf, hr, hcool, hfour, Bool.not_true, Bool.false_eq_true, if_false, if_true]
  by_cases h : 3 ≤ d.fan.coolRun
  · rw [if_pos h, if_pos h]
    rfl
  · rw [if_neg h, if_neg h]
    exact ⟨rfl, rfl⟩

end shutdown

/-! ### The pins and the pairs (R497 to R499) -/

theorem vupd_get {α : Type} {n : Nat} (v : Vector α n) (i : Fin n) (f : α → α) : (vupd v i f)[i] = f v[i] := by
  simp [vupd]

@[simp] theorem setPin_pairs (s : FanState) (n : Nat) (v : Bool) : (s.setPin n v).pairs = s.pairs := by
  unfold FanState.setPin
  split <;> rfl

/-- A pin that is set has its level, and the others stay. -/
theorem setPin_doPin (s : FanState) (n : Nat) (v : Bool) {m : Nat} (hm : m < 8) :
    (s.setPin n v).doPin[m] = if m = n then v else s.doPin[m] := by
  unfold FanState.setPin
  split
  next h =>
    split
    · subst_vars
      simp [vgetD, hm]
    · rfl
  next =>
    by_cases hn : n < 8
    · simp [vupdN, hn, Vector.getElem_set, eq_comm]
    · simp [vupdN, hn]
      omega

@[simp] theorem pairOut_pairs (d : Dev) (k : Nat) : (d.pairOut k).fan.pairs = d.fan.pairs := by
  show ((d.fan.setPin _ _).setPin _ _).pairs = _
  simp

/-- The pins of a pair follow its motion. -/
theorem pairOut_doPin (d : Dev) (k : Fin 4) :
    (d.pairOut k).fan.doPin[2 * k.val]'(by omega) = ((d.fan.pairs[k]).motion == .opening) ∧
    (d.pairOut k).fan.doPin[2 * k.val + 1]'(by omega) = ((d.fan.pairs[k]).motion == .closing) := by
  have hfan : (d.pairOut k).fan = (d.fan.setPin (2 * k.val) ((d.fan.pairs[k]).motion == .opening)).setPin (2 * k.val + 1)
      ((d.fan.pairs[k]).motion == .closing) := by
    rw [← vgetD_fin d.fan.pairs k Pair.reset]
    rfl
  constructor <;> simp [hfan, setPin_doPin]

/-- A pair and its pins once an event has changed the pair and it has decided afresh. -/
theorem decided_pair (d : Dev) (k : Fin 4) (g : Pair → Pair) :
    let e := (d.onFan fun s => { s with pairs := vupd s.pairs k g }).pairDecide k.val
    let q := (g d.fan.pairs[k]).next (d.image.tableOf (0x050 + 2 * k.val)) (d.pairTarget k.val)
    e.fan.pairs[k] = q ∧ e.fan.doPin[2 * k.val]'(by omega) = (q.motion == .opening) ∧
      e.fan.doPin[2 * k.val + 1]'(by omega) = (q.motion == .closing) := by
  intro e q
  have hq : e.fan.pairs[k] = q := by
    show (Dev.pairOut _ _).fan.pairs[k] = q
    simp only [pairOut_pairs, Dev.onFan_fan, vupdN_fin_get, vupd_get]
    rfl
  obtain ⟨hopen, hclose⟩ := pairOut_doPin ((d.onFan fun s => { s with pairs := vupd s.pairs k g }).onFan fun s =>
    { s with pairs := vupdN s.pairs k (fun p => p.next (d.image.tableOf (0x050 + 2 * k.val)) (d.pairTarget k.val)) }) k
  simp only [Dev.onFan_fan, vupdN_fin_get, vupd_get] at hopen hclose
  exact ⟨hq, hopen, hclose⟩

end Sys2Proof.Laws

namespace Sys2Proof.Laws

open Sys2Proof.Machine Sys2Proof.Safety

/-! ### The decision of a pair (R498, R499) -/

section decision

variable {p : Pair} {c : List Byte} {t : Nat}

/-- A pair at rest moves towards a target that is farther than the dead band. -/
theorem atRest_eq (p : Pair) (c : List Byte) (t : Nat) : p.atRest c t = { p with runOn := none, motion :=
    (if p.position c + leAt c 8 2 < t then .opening else if t + leAt c 8 2 < p.position c then .closing else .rest) } := by
  unfold Pair.atRest
  extract_lets db x
  split
  · rfl
  · split <;> rfl

/-- At the end of its pause a pair decides as one at rest does. -/
theorem next_paused (hh : p.homing = none) (hu : p.unknown = false) (hm : p.motion = .paused) :
    ({ p with left := 0 } : Pair).next c t = ({ p with left := 0 } : Pair).atRest c t := by
  simp [Pair.next, hh, hu, hm]

theorem next_opened (hh : p.homing = none) (hu : p.unknown = false) (hm : p.motion = .opening)
    (hp : p.position c = 10000) (ht : t = 10000) : ({ p with runOn := some 0 } : Pair).next c t =
      { p with travel := pairRun c, motion := .rest, runOn := none } := by
  unfold Pair.position at hp
  simp only [Pair.next, Pair.position, hh, hu, hm, hp, ht, Nat.lt_irrefl, Bool.false_eq_true, if_false, if_true]

theorem next_closed (hh : p.homing = none) (hu : p.unknown = false) (hm : p.motion = .closing)
    (hp : p.position c = 0) (ht : t = 0) : ({ p with runOn := some 0 } : Pair).next c t =
      { p with travel := 0, motion := .rest, runOn := none } := by
  unfold Pair.position at hp
  simp only [Pair.next, Pair.position, hh, hu, hm, hp, ht, Nat.lt_irrefl, Bool.false_eq_true, if_false, if_true]

/-- A pair that stops keeps its travel, and whether it is homing and unknown. -/
theorem stop_keeps (p : Pair) (c : List Byte) (t : Nat) (wasOpening : Bool) :
    (p.stop c t wasOpening).homing = p.homing ∧ (p.stop c t wasOpening).unknown = p.unknown ∧
      (p.stop c t wasOpening).travel = p.travel := by
  have hrest : (p.atRest c t).homing = p.homing ∧ (p.atRest c t).unknown = p.unknown ∧
      (p.atRest c t).travel = p.travel := by
    rw [atRest_eq]
    exact ⟨rfl, rfl, rfl⟩
  unfold Pair.stop
  extract_lets q rev
  split
  · exact ⟨rfl, rfl, rfl⟩
  · split
    · exact hrest
    · exact ⟨rfl, rfl, rfl⟩

/-- At the end of homing the position is known: the end that the pair ran to. -/
theorem next_homed {up : Bool} (hh : p.homing = some up) : (({ p with runOn := some 0 } : Pair).next c t).homing = none ∧
    (({ p with runOn := some 0 } : Pair).next c t).unknown = false ∧
    (({ p with runOn := some 0 } : Pair).next c t).travel = if up then pairRun c else 0 := by
  have hnext : ({ p with runOn := some 0 } : Pair).next c t = ({ p with runOn := some 0 } : Pair).homed c up t := by
    simp [Pair.next, hh]
  rw [hnext]
  exact stop_keeps _ c t up

end decision

/-! ### The ends of a pause, of an over-travel and of homing (R498, R499) -/

section ends

variable {d : Dev} {k : Fin 4}

theorem pauseEnd_due (hpd : d.pd 14 = true) (hp : d.image.paired (2 * k.val) = true)
    (hm : (d.fan.pairs[k]).motion = .paused) (hl : (d.fan.pairs[k]).left ≤ 1) : d.pauseEnd k =
      (d.onFan fun s => { s with pairs := vupd s.pairs k (fun p => { p with left := 0 }) }).pairDecide k.val := by
  simp only [Dev.pauseEnd, hpd, hp, hm, hl, beq_self_eq_true, decide_true, Bool.and_self, if_true]

theorem overtravelEnd_due {r : Nat} (hpd : d.pd 14 = true) (hp : d.image.paired (2 * k.val) = true)
    (hh : (d.fan.pairs[k]).homing = none) (hr : (d.fan.pairs[k]).runOn = some r) (hle : r ≤ d.wmMicros) :
    d.overtravelEnd k =
      (d.onFan fun s => { s with pairs := vupd s.pairs k (fun p => { p with runOn := some 0 }) }).pairDecide k.val := by
  simp only [Dev.overtravelEnd, hpd, hp, hh, hr, hle, Option.isNone_none, Option.any_some, decide_true, Bool.and_self,
    if_true]

theorem homingComplete_due {up : Bool} {r : Nat} (hpd : d.pd 14 = true) (hp : d.image.paired (2 * k.val) = true)
    (hh : (d.fan.pairs[k]).homing = some up) (hr : (d.fan.pairs[k]).runOn = some r) (hle : r ≤ d.wmMicros) :
    d.homingComplete k =
      (d.onFan fun s => { s with pairs := vupd s.pairs k (fun p => { p with runOn := some 0 }) }).pairDecide k.val := by
  simp only [Dev.homingComplete, hpd, hp, hh, hr, hle, Option.isSome_some, Option.any_some, decide_true, Bool.and_self,
    if_true]

end ends

end Sys2Proof.Laws

namespace Sys2Proof.Proofs

open Sys2Proof.Machine Sys2Proof.Safety Sys2Proof.Laws

/-- Settles O59. What a fan's events change is that fan; SYS_SHDN compares by the strap; the end of a pause, of an over-travel
or of homing is one decision of the pair, whose pins follow its motion. -/
theorem fansAndActuators : Obligations.FansAndActuators := by
  unfold Obligations.FansAndActuators
  constructor
  · intro s d
    refine ⟨fun f hl => ⟨fun hk => ?kick, fun stamp e more hpd he ht => ?edge, fun hpd ho hlost hq => ?lost⟩,
      fun go => completes_of_act rfl (fanCapture_fan go d),
      fun die ohm hs hf h1 h2 => ⟨fun hd hr => ?hot, fun hd ho hr => ?cool⟩,
      fun die ohm hs h1 h2 => completes_of_act rfl (shdnCompare_unlatched hs h1 h2)⟩
    case kick => exact becomes_of_quiet rfl (kickEnd_last hk) hl rfl
    case edge => exact becomes_of_quiet rfl (tachEdge_accepted hpd he ht) hl rfl
    case lost => exact becomes_of_quiet rfl (tachLostEvent_due hpd ho hlost hq) hl rfl
    case hot => exact completes_of_act rfl (shdnCompare_hot hs hf h1 h2 hd hr)
    case cool => exact completes_of_act rfl (shdnCompare_cool hs hf h1 h2 hd ho hr)
  · intro k s hpd hpair d p c t
    refine ⟨fun hh hu => ⟨fun hm hl => completes_of_act rfl ?pause, fun r hr hle =>
      ⟨fun hm hp ht => completes_of_act rfl ?opened, fun hm hp ht => completes_of_act rfl ?closed⟩⟩,
      fun up r hh hr hle => completes_of_act rfl ?homed⟩
    case pause =>
      rw [pauseEnd_due hpd hpair hm hl]
      obtain ⟨hpair', -, -⟩ := decided_pair d k (fun p => { p with left := 0 })
      exact hpair'.trans ((next_paused hh hu hm).trans (atRest_eq _ c t))
    case opened =>
      rw [overtravelEnd_due hpd hpair hh hr hle]
      obtain ⟨hpair', hopen, -⟩ := decided_pair d k (fun p => { p with runOn := some 0 })
      have hnext := next_opened hh hu hm hp ht
      exact ⟨hpair'.trans hnext, hopen.trans (by rw [hnext]; rfl)⟩
    case closed =>
      rw [overtravelEnd_due hpd hpair hh hr hle]
      obtain ⟨hpair', -, hclose⟩ := decided_pair d k (fun p => { p with runOn := some 0 })
      have hnext := next_closed hh hu hm hp ht
      exact ⟨hpair'.trans hnext, hclose.trans (by rw [hnext]; rfl)⟩
    case homed =>
      rw [homingComplete_due hpd hpair hh hr hle]
      obtain ⟨hpair', -, -⟩ := decided_pair d k (fun p => { p with runOn := some 0 })
      have hhomed := next_homed (c := c) (t := t) hh
      rw [← hpair'] at hhomed
      exact hhomed

end Sys2Proof.Proofs

/-! ## Slice scripts: their steps (R306, R309 to R312) -/

namespace Sys2Proof.Laws

open Sys2Proof.Machine Sys2Proof.Safety

/-! ### One slot changed -/

section slot

variable (d : Dev) (n : Fin 16) (x y : Slot)

@[simp] theorem withSlot_slot : (withSlot d n x).mando.slots[n] = x := by
  simp [withSlot]

theorem withSlot_slot_ne {m : Fin 16} (h : m ≠ n) : (withSlot d n x).mando.slots[m] = d.mando.slots[m] :=
  Vector.getElem_set_ne n.isLt m.isLt (Fin.val_ne_of_ne h.symm)

@[simp] theorem withSlot_withSlot : withSlot (withSlot d n x) n y = withSlot d n y := by
  simp [withSlot]

@[simp] theorem withSlot_self : withSlot d n d.mando.slots[n] = d := by
  simp [withSlot]

theorem onSlot_fin (f : Slot → Slot) : d.onSlot n.val f = withSlot d n (f d.mando.slots[n]) := by
  simp only [Dev.onSlot, Dev.onMando, vupdN_eq_set, withSlot]

theorem slot_fin : d.slot n.val = d.mando.slots[n] := vgetD_fin _ n _

/-! ### The grid and the corrected samples are those of the converters, whatever the slots are (R286, R291, R309) -/

theorem tickPast_withSlot (c k : Nat) (t : Tick) : (withSlot d n x).tickPast c k t = d.tickPast c k t := by
  induction k generalizing t with
  | zero => rfl
  | succ k ih =>
    unfold Dev.tickPast
    simp only [ih]
    rfl

theorem tickNext_withSlot (c : Nat) (t : Tick) : (withSlot d n x).tickNext c t = d.tickNext c t :=
  tickPast_withSlot d n x c 65 _

theorem phaseOf_withSlot (c k ms : Nat) : (withSlot d n x).phaseOf c k ms = d.phaseOf c k ms := by
  induction k generalizing ms with
  | zero => rfl
  | succ k ih =>
    unfold Dev.phaseOf
    simp only [ih]
    rfl

theorem posOf_withSlot (c : Nat) (t : Tick) : (withSlot d n x).posOf c t = d.posOf c t := by
  unfold Dev.posOf
  rw [phaseOf_withSlot]
  rfl

theorem coefAt_withSlot (c : Nat) (t : Tick) : (withSlot d n x).coefAt c t = d.coefAt c t := by
  unfold Dev.coefAt
  rw [posOf_withSlot]
  rfl

theorem stalled_withSlot (c : Nat) (t : Tick) : (withSlot d n x).stalled c t = d.stalled c t := by
  unfold Dev.stalled
  rw [coefAt_withSlot]
  rfl

theorem streamFrom_withSlot (c : Nat) (t : Tick) (l : List Nat) :
    (withSlot d n x).streamFrom c t l = d.streamFrom c t l := by
  induction l generalizing t with
  | nil => rfl
  | cons _ l ih => simp only [Dev.streamFrom, coefAt_withSlot, tickNext_withSlot, ih]

theorem ticksBack_withSlot (c k : Nat) (t : Tick) : (withSlot d n x).ticksBack c k t = d.ticksBack c k t := by
  induction k generalizing t with
  | zero => rfl
  | succ k ih => exact ih _

theorem valueOf_withSlot (c : Nat) (t : Tick) (back : List Nat) (code : Nat) (ahead : List Nat) :
    (withSlot d n x).valueOf c t back code ahead = d.valueOf c t back code ahead := by
  simp only [Dev.valueOf, coefAt_withSlot, ticksBack_withSlot, streamFrom_withSlot]

theorem sampleAt_withSlot (c : Nat) (t : Tick) (code : Nat) (ahead back : List Nat) :
    (withSlot d n x).sampleAt c t code ahead back = d.sampleAt c t code ahead back := by
  induction back generalizing t code ahead with
  | nil => simp only [Dev.sampleAt, valueOf_withSlot, stalled_withSlot]
  | cons b back ih =>
    simp only [Dev.sampleAt, valueOf_withSlot, stalled_withSlot, ih]
    rfl

theorem sampleOf_withSlot (c : Nat) (t : Tick) (v : SampleIn) :
    (withSlot d n x).sampleOf c t v = d.sampleOf c t v :=
  sampleAt_withSlot d n x c t _ _ _

/-! ### Entries on their way to the ring (R311) -/

theorem pushEntry_fin (t : Tick) (w : Word) : d.pushEntry n.val t w =
    withSlot d n { d.mando.slots[n] with pend := (d.mando.slots[n]).pend ++ [entryAt d n t w] } :=
  onSlot_fin d n _

theorem pushSample_fin (r : ScriptRun) (t : Tick) (v : SampleVal) : d.pushSample n.val r t v =
    withSlot d n { d.mando.slots[n] with pend := (d.mando.slots[n]).pend ++ [entryAt d n t (sampleWord r v)] } :=
  pushEntry_fin d n t _

/-- The samples of a list of ticks entered one after the other. -/
theorem foldl_pushSample (r : ScriptRun) (l : List (Tick × SampleIn)) :
    l.foldl (fun d p => d.pushSample n.val r p.1 (d.sampleOf (n.val / 4) p.1 p.2)) (withSlot d n x) =
      withSlot d n { x with
        pend := x.pend ++ l.map (fun p => entryAt d n p.1 (sampleWord r (d.sampleOf (n.val / 4) p.1 p.2))) } := by
  induction l generalizing x with
  | nil => simp
  | cons p l ih =>
    have hentry (w : Word) : entryAt (withSlot d n x) n p.1 w = entryAt d n p.1 w := rfl
    simp only [List.foldl_cons, pushSample_fin, withSlot_withSlot, withSlot_slot, sampleOf_withSlot, hentry] at ih ⊢
    rw [ih, List.append_assoc]
    rfl

end slot

/-! ### A run at its step (R309) -/

section step

variable {d : Dev} {n : Fin 16} {r : ScriptRun} {sc : Script} {st : ScriptStep}

theorem stepOf_atStep (h : AtStep d n r sc st) : d.stepOf n.val = some (r, st) := by
  obtain ⟨hrun, hended, hscript, hstep⟩ := h
  simp only [Dev.stepOf, slot_fin, hrun, hscript, hended, hstep, Option.isSome_none, Bool.false_eq_true, if_false,
    Option.map_some]

theorem setRun_withSlot (x : Slot) (q : ScriptRun) :
    (withSlot d n x).setRun n.val q = withSlot d n { x with run := some q } := by
  simp only [Dev.setRun, onSlot_fin, withSlot_withSlot, withSlot_slot]

theorem advance_fin (h : d.image.script n.val = some sc) (q : ScriptRun) :
    d.advance n.val q = withSlot d n { d.mando.slots[n] with run := some (nextStep sc q) } := by
  simp only [Dev.advance, h, onSlot_fin, nextStep]

theorem script_atStep (h : AtStep d n r sc st) : d.image.script n.val = some sc := by
  obtain ⟨-, -, hscript, -⟩ := h
  exact hscript

theorem advance_atStep (h : AtStep d n r sc st) (q : ScriptRun) :
    d.advance n.val q = withSlot d n { d.mando.slots[n] with run := some (nextStep sc q) } :=
  advance_fin (script_atStep h) q

theorem advance_withSlot (h : AtStep d n r sc st) (x : Slot) (q : ScriptRun) :
    (withSlot d n x).advance n.val q = withSlot d n { x with run := some (nextStep sc q) } := by
  have hscript := script_atStep h
  rw [advance_fin (d := withSlot d n x) hscript, withSlot_withSlot, withSlot_slot]

theorem runBehind_fin (q : ScriptRun) (t : Tick) : d.runBehind n.val q t = behind d n q t := rfl

/-- A command whose own step the run stands at, and whose condition holds, acts. -/
theorem not_otherStep {op k : Nat} {b : Bool} (hop : op = k) (hb : b = true) : ¬(decide (op ≠ k) || !b) = true := by
  simp [hop, hb]

/-- A command that converts acts where its operands are as many as its ticks. -/
theorem not_otherConversion {op k : Nat} {b : Bool} {vs : List SampleIn} {ts : List Tick} (hop : op = k) (hb : b = true)
    (hlen : vs.length = ts.length) : ¬(decide (op ≠ k) || !b || decide (vs.length ≠ ts.length)) = true := by
  simp [hop, hb, hlen]

theorem scriptEnd_atStep (h : AtStep d n r sc st) (hop : st.op = 0) : d.scriptEnd n =
    withSlot d n { d.mando.slots[n] with run := some { r with ended := some r.last } } := by
  simp only [Dev.scriptEnd, stepOf_atStep h, if_neg (not_not_intro hop), onSlot_fin]

theorem scriptSample_atStep {vs : List SampleIn} {ts : List Tick} {t : Tick} (h : AtStep d n r sc st) (hop : st.op = 1)
    (hon : d.slotOnline n.val = true)
    (hts : ts = d.ownTicks (n.val / 4) (n.val % 4) (stepValue r st 1 65535 - r.taken) r.cursor)
    (hlen : vs.length = ts.length) (hlast : ts.getLast? = some t) : d.scriptSample n vs =
      withSlot d n { d.mando.slots[n] with
        run := some (if r.taken + ts.length = stepValue r st 1 65535 then nextStep sc (behind d n { r with taken := 0 } t)
          else behind d n { r with taken := r.taken + ts.length } t)
        pend := (d.mando.slots[n]).pend ++ (List.zip ts vs).map
          (fun p => entryAt d n p.1 (sampleWord r (d.sampleOf (n.val / 4) p.1 p.2))) } := by
  have hfold := foldl_pushSample d n d.mando.slots[n] r (List.zip ts vs)
  rw [withSlot_self] at hfold
  simp only [Dev.scriptSample, stepOf_atStep h, ← hts, if_neg (not_otherConversion hop hon hlen), hlast, hfold]
  split
  · rw [advance_withSlot h, runBehind_fin]
  · rw [setRun_withSlot, runBehind_fin]

theorem scriptAverage_atStep {vs : List SampleIn} {ts : List Tick} {t : Tick} {a : Nat} {all : List SampleVal}
    (h : AtStep d n r sc st) (hop : st.op = 2) (hon : d.slotOnline n.val = true)
    (ha : a = if st.param then stepValue r st 0 10 else st.value % 16)
    (hts : ts = d.ownTicks (n.val / 4) (n.val % 4) (2 ^ a - r.taken) r.cursor) (hlen : vs.length = ts.length)
    (hlast : ts.getLast? = some t)
    (hall : all = r.held ++ (List.zip ts vs).map (fun p => d.sampleOf (n.val / 4) p.1 p.2)) : d.scriptAverage n vs =
      if r.taken + ts.length = 2 ^ a then withSlot d n { d.mando.slots[n] with
        run := some (nextStep sc (behind d n { r with taken := 0, held := [] } t))
        pend := (d.mando.slots[n]).pend ++ [entryAt d n t (ringWord (averageOf a (all.map (·.value))).1 r.step
          (all.any (·.gap)) (averageOf a (all.map (·.value))).2 false r.number)] }
      else withSlot d n { d.mando.slots[n] with
        run := some (behind d n { r with taken := r.taken + ts.length, held := all } t) } := by
  simp only [Dev.scriptAverage, stepOf_atStep h, ← ha, ← hts, ← hall,
    if_neg (not_otherConversion hop hon hlen), hlast, pushEntry_fin, advance_withSlot h, runBehind_fin, Dev.setRun,
    onSlot_fin]

theorem scriptWait_atStep (h : AtStep d n r sc st) (hop : st.op = 3) (hon : d.slotOnline n.val = true) :
    d.scriptWait n = withSlot d n { d.mando.slots[n] with run := some (nextStep sc { r with
      cursor := d.tickNorm (n.val / 4) { r.cursor with j := r.cursor.j + stepValue r st 1 16777215 } }) } := by
  simp only [Dev.scriptWait, stepOf_atStep h, if_neg (not_otherStep hop hon), advance_atStep h]

theorem scriptRepeat_atStep {count done : Nat} (h : AtStep d n r sc st) (hop : st.op = 4) (hp : st.param = false)
    (hcount : count = st.value / 2 ^ 16 % 2 ^ 16) (hdone : done = (mapFind r.repeats r.step).getD 0) :
    d.scriptRepeat n = withSlot d n { d.mando.slots[n] with run := some (
      if done < count then { r with step := st.value % 32, repeats := mapPut r.repeats r.step (done + 1) }
      else nextStep sc { r with repeats := r.repeats.filter (fun p => p.1 ≠ r.step) }) } := by
  have hbits : bitsOf st.value 31 16 = count := by rw [hcount, bitsOf, Nat.shiftRight_eq_div_pow]
  have hstep : ¬st.op ≠ 4 := not_not_intro hop
  simp only [Dev.scriptRepeat, stepOf_atStep h, if_neg hstep, hp, hbits, ← hdone, advance_atStep h, onSlot_fin,
    Bool.false_eq_true, if_false, bne, beq_eq_decide, ne_eq, decide_not]
  split <;> rfl

theorem scriptMark_atStep {t : Tick} (h : AtStep d n r sc st) (hop : st.op = 5) (ht : t = d.cursorOf n.val r)
    (hb : d.begun t = true) : d.scriptMark n = withSlot d n { d.mando.slots[n] with
      run := some (nextStep sc { r with cursor := t, last := d.tickAt (n.val / 4) t })
      pend := (d.mando.slots[n]).pend ++ [entryAt d n t (ringWord ((r.params.getD (st.value % 16) 0).toNat % 65536)
        r.step false false true r.number)] } := by
  simp only [Dev.scriptMark, stepOf_atStep h, ← ht, if_neg (not_otherStep hop hb), pushEntry_fin, advance_withSlot h]

theorem scriptGsample_atStep {v : SampleIn} {hold : Nat} {t : Tick} (h : AtStep d n r sc st) (hop : st.op = 7)
    (hon : d.slotOnline n.val = true) (hw : r.waiting = some hold) (ht : d.holdTick n.val hold r = some t) :
    d.scriptGsample n v = withSlot d n { d.mando.slots[n] with
      run := some (nextStep sc { behind d n r t with waiting := none })
      pend := (d.mando.slots[n]).pend ++ [entryAt d n t (sampleWord r (d.sampleOf (n.val / 4) t v))] } := by
  simp only [Dev.scriptGsample, stepOf_atStep h, hw, ht, if_neg (not_otherStep hop hon), pushSample_fin, advance_withSlot h]
  rfl

end step

end Sys2Proof.Laws

namespace Sys2Proof.Proofs

open Sys2Proof.Machine Sys2Proof.Safety Sys2Proof.Laws

/-- Settles O39. Each step is one change of its slot, since the entries of its samples move neither the grid nor a
coefficient. -/
theorem scriptStepsRun : Obligations.ScriptStepsRun := by
  unfold Obligations.ScriptStepsRun
  intro n r sc st s hl h
  refine ⟨fun hop => ?finish, fun vs ts t count hop hon hcount hts hlen hlast => ?sample,
    fun vs ts t a all hop hon ha hts hlen hlast hall => ⟨fun hfull => ?average, fun hpart => ?averagePart⟩,
    fun hop hon => ?wait, fun count done hop hp hcount hdone => ?goBack, fun t hop ht hb => ?mark,
    fun v hold t hop hon hw ht => ?gsample⟩
  case finish => exact becomes_of_quiet rfl (scriptEnd_atStep h hop) hl rfl
  case sample =>
    subst hcount
    exact becomes_of_quiet rfl (scriptSample_atStep h hop hon hts hlen hlast) hl rfl
  case average =>
    have heff := scriptAverage_atStep h hop hon ha hts hlen hlast hall
    exact becomes_of_quiet rfl (heff.trans (if_pos hfull)) hl rfl
  case averagePart =>
    have heff := scriptAverage_atStep h hop hon ha hts hlen hlast hall
    exact becomes_of_quiet rfl (heff.trans (if_neg hpart)) hl rfl
  case wait => exact becomes_of_quiet rfl (scriptWait_atStep h hop hon) hl rfl
  case goBack => exact becomes_of_quiet rfl (scriptRepeat_atStep h hop hp hcount hdone) hl rfl
  case mark => exact becomes_of_quiet rfl (scriptMark_atStep h hop ht hb) hl rfl
  case gsample => exact becomes_of_quiet rfl (scriptGsample_atStep h hop hon hw ht) hl rfl

end Sys2Proof.Proofs

/-! ## Starts, aborts and triggers (R306, R310, R314) -/

namespace Sys2Proof.Laws

open Sys2Proof.Machine Sys2Proof.Safety

/-! ### Starts and aborts (R310, R314) -/

section startAbort

variable {d : Dev} {n : Fin 16}

/-- A start begins its run where the slot has none. -/
theorem scriptStart_free {t : Tick} (hs : (d.mando.slots[n]).starting = some t) (hr : (d.mando.slots[n]).run = none) :
    d.scriptStart n = withSlot d n { d.mando.slots[n] with
      starting := none, mode := .running, dba := false, runNo := (d.mando.slots[n]).runNo + 1
      run := some { cursor := t, step := 0, repeats := [], params := (d.mando.slots[n]).par.toList
                    number := (d.mando.slots[n]).runNo % 256, last := d.tickAt (n.val / 4) t, waiting := none
                    ended := none, taken := 0, held := [] } } := by
  simp only [Dev.scriptStart, slot_fin, hs, hr, onSlot_fin, Option.isSome_none, Bool.false_eq_true, if_false]

theorem scriptStart_running {t : Tick} {r : ScriptRun} (hs : (d.mando.slots[n]).starting = some t)
    (hr : (d.mando.slots[n]).run = some r) (he : r.ended = none) : d.scriptStart n = withSlot d n
      { d.mando.slots[n] with starting := none, ignored := satInc (d.mando.slots[n]).ignored } := by
  simp only [Dev.scriptStart, slot_fin, hs, hr, he, onSlot_fin, Option.isSome_some, if_true, Slot.ignore]

theorem scriptAbort_running {at' : Nat} {r : ScriptRun} (ha : (d.mando.slots[n]).aborting = some at')
    (hr : (d.mando.slots[n]).run = some r) (he : r.ended = none) : d.scriptAbort n = withSlot d n
      { d.mando.slots[n] with
        armed := false, starting := none, aborting := none, run := none, mode := .aborted, dba := false
        pend := (d.mando.slots[n]).pend.filter (fun e => e.instant < at') } := by
  simp only [Dev.scriptAbort, slot_fin, ha, Dev.abortSlot, onSlot_fin, hr, he, Bool.false_eq_true, if_false]

end startAbort

/-! ### Several slots changed alike -/

theorem foldl_onSlot (d : Dev) (l : List Nat) (f : Slot → Slot) : l.foldl (fun d n => d.onSlot n f) d =
    d.onMando fun m => { m with slots := l.foldl (fun v n => vupdN v n f) m.slots } := by
  induction l generalizing d with
  | nil => rfl
  | cons n l ih => exact ih _

theorem vupdN_get_ne {α : Type} {n : Nat} (v : Vector α n) {i : Nat} {m : Fin n} (h : i ≠ m.val) (f : α → α) :
    (vupdN v i f)[m] = v[m] := by
  unfold vupdN
  split
  · exact Vector.getElem_set_ne _ _ h
  · rfl

theorem foldl_vupdN_get {α : Type} {n : Nat} (f : α → α) {l : List Nat} (hl : l.Nodup) (v : Vector α n) (m : Fin n) :
    (l.foldl (fun v i => vupdN v i f) v)[m] = if m.val ∈ l then f v[m] else v[m] := by
  induction l generalizing v with
  | nil => simp
  | cons i l ih =>
    obtain ⟨hi, hl⟩ := List.nodup_cons.mp hl
    rw [List.foldl_cons, ih hl]
    by_cases him : i = m.val
    · subst him
      simp only [if_neg hi, List.mem_cons_self, if_true, vupdN_fin_get]
    · simp only [vupdN_get_ne v him, List.mem_cons, Ne.symm him, false_or]

/-! ### The trigger of a group (R306) -/

/-- A slot whose run takes the hold of its group's trigger. -/
def takeHold (at' : Nat) (x : Slot) : Slot := { x with run := x.run.map (fun r => { r with waiting := some at' }) }

/-- A member of the group waits with a hold that is not yet converted. -/
def Holding (d : Dev) (g : Fin 4) : Prop :=
  ∃ m : Fin 16, (d.mando.groups[g]).members.testBit m.val = true ∧ d.holds m.val g.val = true

section trigger

variable {d : Dev} {g : Fin 4} {at' : Nat}

theorem any_holds_iff : (upTo 16).any (fun n => bitOf (d.mando.groups[g]).members n && d.holds n g.val) = true ↔
    Holding d g := by
  simp only [List.any_eq_true, upTo, List.mem_range, Bool.and_eq_true, bitOf, Holding, Fin.exists_iff, exists_prop]

theorem trigger_holding (hu : (d.mando.groups[g]).used = true) (hh : Holding d g) : d.trigger g.val at' =
    d.onMando fun m =>
      { m with groups := vupdN m.groups g.val (fun y => { y with missed := satInc y.missed }) } := by
  unfold Dev.trigger
  rw [vgetD_fin]
  dsimp only
  rw [if_neg (by simp only [hu, Bool.not_true, Bool.false_eq_true, not_false_eq_true]), if_pos (any_holds_iff.mpr hh)]

theorem trigger_free (hu : (d.mando.groups[g]).used = true) (hh : ¬Holding d g) : d.trigger g.val at' =
    d.onMando fun m => { m with
      slots := ((upTo 16).filter (fun n => bitOf (d.mando.groups[g]).members n && d.waitsFor n g.val at')).foldl
        (fun v n => vupdN v n (takeHold at')) m.slots
      groups := vupdN m.groups g.val (fun y => { y with fires := satInc y.fires }) } := by
  unfold Dev.trigger
  rw [vgetD_fin]
  dsimp only
  rw [if_neg (by simp only [hu, Bool.not_true, Bool.false_eq_true, not_false_eq_true]),
    if_neg (mt any_holds_iff.mp hh), foldl_onSlot]
  rfl

/-- Without an earlier hold every waiting member takes the hold, and no other slot changes. -/
theorem trigger_free_slot (hu : (d.mando.groups[g]).used = true) (hh : ¬Holding d g) (m : Fin 16) :
    (d.trigger g.val at').mando.slots[m] =
      if (d.mando.groups[g]).members.testBit m.val = true ∧ d.waitsFor m.val g.val at' = true then
        takeHold at' d.mando.slots[m]
      else d.mando.slots[m] := by
  rw [trigger_free hu hh]
  refine (foldl_vupdN_get _ (List.nodup_range.filter _) _ m).trans ?_
  simp only [List.mem_filter, List.mem_range, m.isLt, true_and, bitOf, Bool.and_eq_true]

theorem trigger_slot_of_notWaiting {m : Fin 16} (hu : (d.mando.groups[g]).used = true)
    (hw : d.waitsFor m.val g.val at' = false) : (d.trigger g.val at').mando.slots[m] = d.mando.slots[m] := by
  by_cases hh : Holding d g
  · rw [trigger_holding hu hh]
    rfl
  · rw [trigger_free_slot hu hh, if_neg]
    simp only [hw, Bool.false_eq_true, and_false, not_false_eq_true]

@[simp] theorem trigger_image (d : Dev) (g at' : Nat) : (d.trigger g at').image = d.image := by
  unfold Dev.trigger
  dsimp only
  split
  · rfl
  · split
    · rfl
    · rw [foldl_onSlot]
      rfl

end trigger

/-! ### FIRE -/

section fire

variable {d : Dev} {n : Fin 16} {r : ScriptRun} {sc : Script} {st : ScriptStep} {t : Tick} {g : Fin 4}

/-- A slot at a step other than GSAMPLE does not wait for a trigger. -/
theorem waitsFor_otherStep (h : AtStep d n r sc st) (hop : st.op ≠ 7) (g at' : Nat) : d.waitsFor n.val g at' = false := by
  simp only [Dev.waitsFor, stepOf_atStep h, beq_eq_false_iff_ne.mpr hop, Bool.false_and]

/-- FIRE triggers its group, and its own run, which does not wait, goes on. -/
theorem scriptFire_atStep (h : AtStep d n r sc st) (hop : st.op = 6) (hg : g.val = st.value % 4)
    (ht : t = d.cursorOf n.val r) (hb : d.begun t = true) (hu : (d.mando.groups[g]).used = true) : d.scriptFire n =
      withSlot (d.trigger g.val (d.tickAt (n.val / 4) t)) n { d.mando.slots[n] with
        run := some (nextStep sc { r with cursor := t, last := d.tickAt (n.val / 4) t }) } := by
  have hself := waitsFor_otherStep h (by omega) g.val (d.tickAt (n.val / 4) t)
  simp only [Dev.scriptFire, stepOf_atStep h, ← ht, ← hg, if_neg (not_otherStep hop hb)]
  rw [advance_fin (by rw [trigger_image, script_atStep h]), trigger_slot_of_notWaiting hu hself]

end fire

end Sys2Proof.Laws

namespace Sys2Proof.Proofs

open Sys2Proof.Machine Sys2Proof.Safety Sys2Proof.Laws

/-- Settles O40. A start and an abort change their slot alone; FIRE is its group's trigger, which either counts in MISSED or
reaches the waiting members, and then a step of its own run, which does not wait. -/
theorem scriptsStartAbortAndFire : Obligations.ScriptsStartAbortAndFire := by
  unfold Obligations.ScriptsStartAbortAndFire
  intro n s hl
  refine ⟨fun t hs hr => ?start, fun t r hs hr he => ?ignored, fun h r ha hr he => ?abort,
    fun r sc st t hat hop ht hb hu => completes_of_act rfl ?fire⟩
  case start => exact becomes_of_quiet rfl (scriptStart_free hs hr) hl rfl
  case ignored => exact becomes_of_quiet rfl (scriptStart_running hs hr he) hl rfl
  case abort => exact becomes_of_quiet rfl (scriptAbort_running ha hr he) hl rfl
  case fire =>
    let g : Fin 4 := ⟨st.value % 4, Nat.mod_lt _ (by decide)⟩
    rw [Dev.settle_mando, logFlush_mando, scriptFire_atStep (g := g) hat hop rfl ht hb hu]
    refine ⟨withSlot_slot _ n _, ?_⟩
    by_cases hh : Holding s.dev g
    · refine (if_pos hh).mpr ?_
      rw [trigger_holding hu hh]
      exact vupdN_fin_get _ g _
    · refine (if_neg hh).mpr ⟨?_, fun m hm => ?_⟩
      · rw [trigger_free hu hh]
        exact congrArg SampleGroup.fires (vupdN_fin_get _ g _)
      · rw [withSlot_slot_ne _ n _ hm, trigger_free_slot hu hh, apply_ite Slot.run]
        rfl

end Sys2Proof.Proofs

/-! ## Slices calibrated, exchanged and retired (R292, R294, R295) -/

namespace Sys2Proof.Laws

open Sys2Proof.Machine Sys2Proof.Safety

/-! ### The slices of a converter (R285) -/

section converter

variable (c : Converter)

theorem slice_fin (k : Fin 9) : c.slice k.val = c.slices[k] := vgetD_fin _ k _

theorem onSlice_slice (k : Fin 9) (f : Slice → Slice) : (c.onSlice k.val f).slices[k] = f c.slices[k] :=
  vupdN_fin_get _ k f

theorem onSlice_slice_ne {k : Nat} {j : Fin 9} (h : k ≠ j.val) (f : Slice → Slice) :
    (c.onSlice k f).slices[j] = c.slices[j] :=
  vupdN_get_ne _ h f

theorem onSlice_onSlice (k : Fin 9) (f g : Slice → Slice) :
    (c.onSlice k.val f).onSlice k.val g = c.onSlice k.val (fun s => g (f s)) := by
  simp only [Converter.onSlice, vupdN_eq_set, Vector.set_set]
  congr 2
  exact congrArg g (Vector.getElem_set_self k.isLt)

theorem find?_slice_isSome_iff (p : Slice → Bool) :
    ((upTo 9).find? (fun k => p (c.slice k))).isSome = true ↔ ∃ k : Fin 9, p c.slices[k] = true := by
  simp only [List.find?_isSome, upTo, List.mem_range, Fin.exists_iff, ← slice_fin, exists_prop]

theorem spare_isSome_iff : c.spare.isSome = true ↔ ∃ k : Fin 9, (c.slices[k]).duty = .spare :=
  (find?_slice_isSome_iff c (fun s => s.duty == .spare)).trans (by simp only [beq_iff_eq])

theorem atPos_isSome_iff (p : Nat) :
    (c.atPos p).isSome = true ↔ ∃ k : Fin 9, (c.slices[k]).duty = .active ∧ (c.slices[k]).pos = p :=
  (find?_slice_isSome_iff c (fun s => s.duty == .active && s.pos == p)).trans (by simp only [Bool.and_eq_true, beq_iff_eq])

variable {c}

theorem duty_of_spare {k : Nat} (h : c.spare = some k) : (c.slice k).duty = .spare := by
  simpa using List.find?_some h

theorem duty_of_atPos {k p : Nat} (h : c.atPos p = some k) : (c.slice k).duty = .active := by
  have hfound := List.find?_some h
  rw [Bool.and_eq_true, beq_iff_eq] at hfound
  exact hfound.1

theorem duty_of_mem_idles {k : Nat} (h : k ∈ c.idles) : (c.slice k).duty = .idle := by
  simp only [Converter.idles, List.mem_filter, Bool.and_eq_true, beq_iff_eq] at h
  obtain ⟨-, ⟨hidle, -⟩, -⟩ := h
  exact hidle

theorem ne_of_duty {k : Nat} {j : Fin 9} {u : SliceDuty} (hk : (c.slice k).duty = u) (hj : (c.slices[j]).duty ≠ u) :
    k ≠ j.val := by
  rintro rfl
  exact hj (slice_fin c j ▸ hk)

/-! ### Positions after the change of one slice (R285) -/

/-- A position that some slice but `j` holds is held where only `j` has changed. -/
theorem atPos_isSome_of_others {e : Converter} {j : Fin 9} {q : Nat}
    (he : ∀ i : Fin 9, i ≠ j → e.slices[i] = c.slices[i])
    (hj : ¬((c.slices[j]).duty = .active ∧ (c.slices[j]).pos = q)) (hq : (c.atPos q).isSome = true) :
    (e.atPos q).isSome = true := by
  obtain ⟨i, hi⟩ := (atPos_isSome_iff c q).mp hq
  have hij : i ≠ j := by
    rintro rfl
    exact hj hi
  exact (atPos_isSome_iff e q).mpr ⟨i, by rwa [he i hij]⟩

/-- The position of a slice that is active no more is vacant. -/
theorem atPos_isNone_of_left {e : Converter} {j : Fin 9} (hp : Placed c) (hact : (c.slices[j]).duty = .active)
    (he : ∀ i : Fin 9, i ≠ j → e.slices[i] = c.slices[i]) (hj : (e.slices[j]).duty ≠ .active) :
    (e.atPos (c.slices[j]).pos).isNone = true := by
  obtain ⟨-, hplace⟩ := hp
  rw [← Option.not_isSome, Bool.not_eq_true', Bool.eq_false_iff]
  intro hsome
  obtain ⟨i, hi, hpos⟩ := (atPos_isSome_iff e _).mp hsome
  have hij : i ≠ j := by
    rintro rfl
    exact hj hi
  rw [he i hij] at hi hpos
  have hboth : some i.val = some j.val := by rw [← (hplace i hi).2, ← (hplace j hact).2, hpos]
  exact hij (Fin.ext (Option.some.inj hboth))

/-- The one vacant position is the first. -/
theorem find?_vacant {p : Nat} (hp : p < c.w) (hv : (c.atPos p).isNone = true)
    (ho : ∀ q < c.w, q ≠ p → (c.atPos q).isSome = true) :
    (upTo c.w).find? (fun q => (c.atPos q).isNone) = some p := by
  have hsome : ((upTo c.w).find? (fun q => (c.atPos q).isNone)).isSome = true :=
    List.find?_isSome.mpr ⟨p, List.mem_range.mpr hp, hv⟩
  obtain ⟨q, hq⟩ := Option.isSome_iff_exists.mp hsome
  have hnone := List.find?_some hq
  have hlt := List.mem_range.mp (List.mem_of_find?_eq_some hq)
  have hqp : q = p := by
    by_contra hne
    rw [← Option.not_isSome, ho q hlt hne] at hnone
    exact Bool.false_ne_true hnone
  rw [hq, hqp]

theorem find?_vacant_of_full (hf : ∀ q < c.w, (c.atPos q).isSome = true) :
    (upTo c.w).find? (fun q => (c.atPos q).isNone) = none := by
  rw [List.find?_eq_none]
  intro q hq
  rw [← Option.not_isSome, hf q (List.mem_range.mp hq)]
  exact Bool.false_ne_true

/-! ### A spare where there is none, and the spare at a vacant position (R292, R295; log 177) -/

@[simp] theorem recordExchange_slices (x : Exchange) : (c.recordExchange x).slices = c.slices := rfl

@[simp] theorem recordExchange_freed (x : Exchange) : (c.recordExchange x).freed = c.freed := rfl

@[simp] theorem onSlice_freed (k : Nat) (f : Slice → Slice) : (c.onSlice k f).freed = c.freed := rfl

theorem fillSpare_of_spare (h : c.spare.isSome = true) : c.fillSpare = c := by
  obtain ⟨k, hk⟩ := Option.isSome_iff_exists.mp h
  simp only [Converter.fillSpare, hk]

@[simp] theorem fillSpare_freed : c.fillSpare.freed = c.freed := by
  unfold Converter.fillSpare
  split <;> rfl

/-- Only an idle slice becomes the spare. -/
theorem fillSpare_slice {j : Fin 9} (hj : (c.slices[j]).duty ≠ .idle) : c.fillSpare.slices[j] = c.slices[j] := by
  unfold Converter.fillSpare
  split
  next k _ _ hidles => exact onSlice_slice_ne c (ne_of_duty (duty_of_mem_idles (hidles ▸ List.mem_cons_self)) hj) _
  next => rfl

theorem settle_freed (at' m : Nat) (c : Converter) : (c.settle at' m).freed = c.freed := by
  induction m generalizing c with
  | zero => exact fillSpare_freed
  | succ m ih =>
    unfold Converter.settle
    dsimp only
    split
    · rw [ih, recordExchange_freed, onSlice_freed, fillSpare_freed]
    · exact fillSpare_freed

/-- A slice that is neither idle nor the spare stays as it is. -/
theorem settle_slice (at' m : Nat) {c : Converter} {j : Fin 9} (hi : (c.slices[j]).duty ≠ .idle)
    (hs : (c.slices[j]).duty ≠ .spare) : (c.settle at' m).slices[j] = c.slices[j] := by
  induction m generalizing c with
  | zero => exact fillSpare_slice hi
  | succ m ih =>
    have hfill := fillSpare_slice hi
    unfold Converter.settle
    dsimp only
    split
    next k p hspare _ =>
      have hkeep := onSlice_slice_ne c.fillSpare (ne_of_duty (duty_of_spare hspare) (hfill ▸ hs))
        (fun s => { s with duty := .active, pos := p })
      rw [ih] <;> rw [recordExchange_slices, hkeep, hfill] <;> assumption
    next => exact hfill

/-- With a spare and every position held there is nothing to do. -/
theorem settle_of_full (at' m : Nat) (h : c.spare.isSome = true) (hf : ∀ q < c.w, (c.atPos q).isSome = true) :
    c.settle at' m = c := by
  cases m with
  | zero => exact fillSpare_of_spare h
  | succ m =>
    obtain ⟨k, hk⟩ := Option.isSome_iff_exists.mp h
    simp only [Converter.settle, fillSpare_of_spare h, hk, find?_vacant_of_full hf]

/-- The spare takes the one vacant position, and keeps it. -/
theorem settle_vacant_slice (at' m : Nat) {k : Fin 9} {p : Nat} (h : c.spare = some k.val) (hp : p < c.w)
    (hv : (c.atPos p).isNone = true) (ho : ∀ q < c.w, q ≠ p → (c.atPos q).isSome = true) :
    (c.settle at' (m + 1)).slices[k] = { c.slices[k] with duty := .active, pos := p } := by
  simp only [Converter.settle, fillSpare_of_spare (Option.isSome_of_eq_some h), h, find?_vacant hp hv ho]
  rw [settle_slice] <;> rw [recordExchange_slices, onSlice_slice] <;> simp

/-- Where a slice that is not the spare becomes another that is not, the spare is the same. -/
theorem spare_of_others {e : Converter} {j : Fin 9} (he : ∀ i : Fin 9, i ≠ j → e.slices[i] = c.slices[i])
    (hc : (c.slices[j]).duty ≠ .spare) (hj : (e.slices[j]).duty ≠ .spare) : e.spare = c.spare := by
  have hsame : ∀ k ∈ upTo 9, ((e.slice k).duty == .spare) = ((c.slice k).duty == .spare) := by
    intro k hk
    obtain ⟨i, rfl⟩ : ∃ i : Fin 9, i.val = k := ⟨⟨k, List.mem_range.mp hk⟩, rfl⟩
    rw [slice_fin, slice_fin]
    by_cases hij : i = j
    · rw [hij, beq_eq_false_iff_ne.mpr hc, beq_eq_false_iff_ne.mpr hj]
    · rw [he i hij]
  exact List.find?_congr hsame

/-! ### The end of the freed slice's calibration (Table 10.4, step 7) -/

theorem freedDone_slices (at' : Nat) (c : Converter) :
    (c.freedDone at').slices = (Converter.settle at' 3 { c with freed := none }).slices := by
  unfold Converter.freedDone
  dsimp only
  split <;> rfl

theorem freedDone_freed (at' : Nat) (c : Converter) : (c.freedDone at').freed = none := by
  have hsettle : (Converter.settle at' 3 { c with freed := none }).freed = none := settle_freed at' 3 _
  unfold Converter.freedDone
  dsimp only
  split <;> exact hsettle

/-- A slice that is neither idle nor the spare stays as it is at the end. -/
theorem freedDone_slice (at' : Nat) {j : Fin 9} (hi : (c.slices[j]).duty ≠ .idle) (hs : (c.slices[j]).duty ≠ .spare) :
    (c.freedDone at').slices[j] = c.slices[j] := by
  rw [freedDone_slices]
  exact settle_slice at' 3 (c := { c with freed := none }) hi hs

/-- Where the freed slice has become the spare and every position is held, no slice changes any more. -/
theorem freedDone_slices_of_spare {e : Converter} (at' : Nat) {f : Fin 9} (hp : Placed c) (hc : (c.slices[f]).duty = .idle)
    (he : ∀ i : Fin 9, i ≠ f → e.slices[i] = c.slices[i]) (hw : e.w = c.w) (hs : (e.slices[f]).duty = .spare) :
    (e.freedDone at').slices = e.slices := by
  obtain ⟨hfull, -⟩ := hp
  have hidle (q : Nat) : ¬((c.slices[f]).duty = .active ∧ (c.slices[f]).pos = q) := by
    simp only [hc, reduceCtorEq, false_and, not_false_eq_true]
  rw [freedDone_slices, settle_of_full]
  · exact (spare_isSome_iff _).mpr ⟨f, hs⟩
  · exact fun q hq => atPos_isSome_of_others (e := { e with freed := none }) he (hidle q) (hfull q (hw ▸ hq))

end converter

/-! ### What a converter that fails takes with it (R302, R371, R470) -/

/-- The converters and SYS. -/
def convView (d : Dev) : Vector Converter 4 × SysState := (d.mando.conv, d.sys)

theorem foldl_convView {α : Type} {f : Dev → α → Dev} (hf : ∀ d a, convView (f d a) = convView d) (l : List α)
    (d : Dev) : convView (l.foldl f d) = convView d := by
  induction l generalizing d with
  | nil => rfl
  | cons a l ih => exact (ih _).trans (hf d a)

theorem convScriptsOff_convView (d : Dev) (c at' : Nat) : convView (d.convScriptsOff c at') = convView d :=
  foldl_convView (fun d n => by split <;> rfl) _ d

theorem tripUnit_convView (d : Dev) (u cause cx : Nat) : convView (d.tripUnit u cause cx) = convView d := by
  unfold Dev.tripUnit
  split <;> rfl

/-- What is bound to a converter that is lost is no converter, and nothing of SYS. -/
theorem convLost_convView (d : Dev) (c at' : Nat) : convView (d.convLost c at') = convView d := by
  have hoff := convScriptsOff_convView d c at'
  unfold Dev.convLost
  extract_lets d1
  split
  · split
    · exact (tripUnit_convView d1 c 5 0).trans hoff
    · exact hoff
  · split <;> exact hoff

theorem afterConv_convView (b d : Dev) (c at' : Nat) : convView (b.afterConv d c at') = convView d := by
  unfold Dev.afterConv
  split
  · exact convLost_convView d c at'
  · rfl

/-- A rotation leaves of the converters and of SYS what its event of Table 10.4 leaves of them. -/
theorem rotation_convView (k : Fin 4) (r : CalEnv) (d : Dev) : convView (d.rotation k r) = convView (d.calRotation k r) :=
  afterConv_convView _ _ _ _

theorem rotation_conv (k : Fin 4) (r : CalEnv) (d : Dev) : (d.rotation k r).mando.conv = (d.calRotation k r).mando.conv :=
  congrArg Prod.fst (rotation_convView k r d)

theorem rotation_sys (k : Fin 4) (r : CalEnv) (d : Dev) : (d.rotation k r).sys = (d.calRotation k r).sys :=
  congrArg Prod.snd (rotation_convView k r d)

theorem sliceStall_convView (k : Fin 4) (j : Fin 9) (at' : Nat) (d : Dev) :
    convView (d.sliceStall k j at') = convView (d.stallSlice k.val j.val at') :=
  afterConv_convView _ _ _ _

theorem sliceStall_conv (k : Fin 4) (j : Fin 9) (at' : Nat) (d : Dev) :
    (d.sliceStall k j at').mando.conv = (d.stallSlice k.val j.val at').mando.conv :=
  congrArg Prod.fst (sliceStall_convView k j at' d)

theorem sliceStall_sys (k : Fin 4) (j : Fin 9) (at' : Nat) (d : Dev) :
    (d.sliceStall k j at').sys = (d.stallSlice k.val j.val at').sys :=
  congrArg Prod.snd (sliceStall_convView k j at' d)

/-! ### One converter of the device -/

section device

variable {d : Dev} {k : Fin 4} {f : Fin 9}

theorem conv_fin (d : Dev) (k : Fin 4) : d.conv k.val = d.mando.conv[k] := vgetD_fin _ k _

theorem onConv_conv (d : Dev) (k : Fin 4) (g : Converter → Converter) :
    (d.onConv k.val g).mando.conv[k] = g d.mando.conv[k] :=
  vupdN_fin_get _ k g

/-- A slice as its retirement leaves it (R294). -/
def retiredBy (cause : Nat) (s : Slice) : Slice := { s with duty := .retired, pos := 0, cause := BitVec.ofNat 4 cause }

/-- A retirement is one change of the slice, whether or not the converter fails with it, and one record (R294, R302). -/
theorem retireSlice_conv (d : Dev) (k : Fin 4) (j cause : Nat) : ∃ b, (d.retireSlice k.val j cause).mando.conv[k] =
    { (d.mando.conv[k]).onSlice j (retiredBy cause) with failed := b } := by
  unfold Dev.retireSlice
  extract_lets d1 left d2
  have h1 : d2.mando.conv[k] = (d.mando.conv[k]).onSlice j (retiredBy cause) := onConv_conv d k _
  split
  · exact ⟨true, (onConv_conv d2 k _).trans (by rw [h1])⟩
  · exact ⟨_, h1⟩

theorem retireSlice_recorded (d : Dev) (c j cause : Nat) :
    (d.retireSlice c j cause).sys.recorded = BitVec.ofNat 32 (d.sys.recorded.toNat + 1) := by
  unfold Dev.retireSlice
  extract_lets d1 left d2
  split <;> rfl

theorem passes_iff (r : CalResult) : r.passes = true ↔ Accepted r := by
  simp only [CalResult.passes, Accepted, Bool.and_eq_true, decide_eq_true_eq, and_assoc]

/-! ### The exchange (R292) -/

theorem calExchange_due {connect sp old : Nat} (hs : (d.mando.conv[k]).spare = some sp)
    (ho : (d.mando.conv[k]).atPos (d.mando.conv[k]).next = some old)
    (hx : (d.mando.conv[k]).expiry < d.wmStart (d.time.wm + 1)) :
    let c := d.mando.conv[k]
    (d.calExchange k.val connect).mando.conv[k] =
      { ((c.onSlice sp (fun s => { s with duty := .active, pos := c.next })).onSlice old
          (fun s => { s with duty := .idle, pos := 0 })).recordExchange
            { pos := c.next, at' := 2 * (c.expiry + min connect 2000) + 1, coef := some (c.slice old).coef } with
        next := (c.next + 1) % c.w, exchanges := satInc c.exchanges, expiry := c.expiry + c.interval.toNat * 1000000
        freed := some old } := by
  intro c
  simp only [Dev.calExchange, conv_fin, hs, ho, if_neg (Nat.not_le.mpr hx)]
  exact onConv_conv d k _

/-! ### Attempts on the freed slice (R294, Table 10.5) -/

theorem freedAttempt_accepted {r : CalResult} (ha : Accepted r) : (d.freedAttempt k.val f.val r).mando.conv[k] =
    ((d.mando.conv[k]).onSlice f.val (fun s => { s with attempts := 0, coef := r.coef, duty := .spare, pos := 0 })).freedDone
      (2 * d.time.now) := by
  have hpass := (passes_iff r).mpr ha
  simp only [Dev.freedAttempt, Dev.calAttempt, hpass, if_true, onConv_conv, onSlice_onSlice]

/-- An attempt that is not accepted and not the third in a row is counted, and the slice stays freed. -/
theorem freedAttempt_rejected {r : CalResult} (ha : ¬Accepted r) (hduty : ((d.mando.conv[k]).slices[f]).duty ≠ .retired)
    (hn : ((d.mando.conv[k]).slices[f]).attempts.toNat < 2) : (d.freedAttempt k.val f.val r).mando.conv[k] =
      (d.mando.conv[k]).onSlice f.val
        (fun s => { s with attempts := ((d.mando.conv[k]).slices[f]).attempts + 1, fails := satInc s.fails }) := by
  have hpass := mt (passes_iff r).mp ha
  have hthree : ((d.mando.conv[k]).slices[f]).attempts.toNat + 1 < 3 := by omega
  have hnext : BitVec.ofNat 2 (((d.mando.conv[k]).slices[f]).attempts.toNat + 1) =
      ((d.mando.conv[k]).slices[f]).attempts + 1 := by
    simp [BitVec.ofNat_add]
  have hconv : (d.calAttempt k.val f.val r).mando.conv[k] = (d.mando.conv[k]).onSlice f.val
      (fun s => { s with attempts := ((d.mando.conv[k]).slices[f]).attempts + 1, fails := satInc s.fails }) := by
    simp only [Dev.calAttempt, conv_fin, slice_fin, if_neg hpass, if_pos hthree, hnext, onConv_conv]
  have hkeep : ¬(d.calAttempt k.val f.val r).sliceRetired k.val f.val = true := by
    rw [Dev.sliceRetired, conv_fin, hconv, slice_fin, onSlice_slice, beq_iff_eq]
    exact hduty
  unfold Dev.freedAttempt
  dsimp only
  rw [if_neg hpass, if_neg hkeep, hconv]

/-- The third attempt in a row that is not accepted retires the slice. -/
theorem freedAttempt_third {r : CalResult} (ha : ¬Accepted r) (hn : 2 ≤ ((d.mando.conv[k]).slices[f]).attempts.toNat) :
    (∃ e : Converter, (d.freedAttempt k.val f.val r).mando.conv[k] = e.freedDone (2 * d.time.now) ∧
      e.slices[f] = retiredBy 1 { (d.mando.conv[k]).slices[f] with
        attempts := 0, fails := satInc ((d.mando.conv[k]).slices[f]).fails }) ∧
    (d.freedAttempt k.val f.val r).sys.recorded = BitVec.ofNat 32 (d.sys.recorded.toNat + 1) := by
  have hpass := mt (passes_iff r).mp ha
  have hthree : ¬((d.mando.conv[k]).slices[f]).attempts.toNat + 1 < 3 := by omega
  have hcal : d.calAttempt k.val f.val r = (d.onConv k.val fun x => x.onSlice f.val
      (fun s => { s with attempts := 0, fails := satInc s.fails })).retireSlice k.val f.val 1 := by
    simp only [Dev.calAttempt, conv_fin, slice_fin, if_neg hpass, if_neg hthree]
  obtain ⟨b, hconv⟩ := retireSlice_conv (d.onConv k.val fun x => x.onSlice f.val
    (fun s => { s with attempts := 0, fails := satInc s.fails })) k f.val 1
  rw [← hcal, onConv_conv, onSlice_onSlice] at hconv
  have hretired : (d.calAttempt k.val f.val r).sliceRetired k.val f.val = true := by
    rw [Dev.sliceRetired, conv_fin, hconv, slice_fin, beq_iff_eq]
    exact congrArg Slice.duty (onSlice_slice _ f _)
  unfold Dev.freedAttempt
  dsimp only
  rw [if_neg hpass, if_pos hretired, onConv_conv, hconv]
  refine ⟨⟨_, rfl, onSlice_slice _ f _⟩, ?_⟩
  rw [hcal]
  exact retireSlice_recorded _ k.val f.val 1

/-! ### The next event of a rotation (Table 10.4) -/

theorem calRotation_exchange {r : CalEnv} (hu : d.convUsable k.val = true) (hx : (d.mando.conv[k]).failed = false)
    (hf : (d.mando.conv[k]).freed = none) (hi : (d.mando.conv[k]).idleCal = none) :
    d.calRotation k r = d.calExchange k.val r.connect := by
  simp only [Dev.calRotation, conv_fin, hu, hx, hf, hi, Bool.not_true, Bool.or_self, Bool.false_eq_true, if_false]

theorem calRotation_freed {r : CalEnv} (hu : d.convUsable k.val = true) (hx : (d.mando.conv[k]).failed = false)
    (hf : (d.mando.conv[k]).freed = some f.val) : d.calRotation k r = d.freedAttempt k.val f.val r.result := by
  simp only [Dev.calRotation, conv_fin, hu, hx, hf, Bool.not_true, Bool.or_self, Bool.false_eq_true, if_false]

/-! ### A stall (R295) -/

/-- A converter behind a stall of slice `j` at an instant: the tick marked, the exchange recorded, the failure counted and the
slice retired; `b` tells whether the converter fails with it. -/
def stalledAt (b : Bool) (j : Fin 9) (at' : Nat) (c : Converter) : Converter :=
  { c.onSlice j.val (fun s => retiredBy 2 { s with fails := satInc s.fails }) with
    exch := { pos := (c.slices[j]).pos, at' := at' + 1, coef := some (c.slices[j]).coef } :: c.exch.take 127
    stalls := at' :: c.stalls.take 127, failed := b }

theorem stallSlice_due {j : Fin 9} {at' : Nat} (hu : d.convUsable k.val = true) (hx : (d.mando.conv[k]).failed = false)
    (ha : ((d.mando.conv[k]).slices[j]).duty = .active)
    (ht : d.tickPosition k.val at' = some ((d.mando.conv[k]).slices[j]).pos) :
    (∃ b, (d.stallSlice k.val j.val at').mando.conv[k] =
      Converter.settle (at' + 1) 3 (stalledAt b j at' d.mando.conv[k])) ∧
    (d.stallSlice k.val j.val at').sys.recorded = BitVec.ofNat 32 (d.sys.recorded.toNat + 1) := by
  have hs : (d.conv k.val).slice j.val = (d.mando.conv[k]).slices[j] := by rw [conv_fin, slice_fin]
  have hf : (d.conv k.val).failed = false := by rw [conv_fin, hx]
  unfold Dev.stallSlice
  extract_lets s d1
  rw [if_neg (by simp only [s, hs, ha, hf, hu, ht, ne_eq, not_true_eq_false, decide_false, Bool.not_true, Bool.or_self,
    Bool.false_eq_true, not_false_eq_true])]
  obtain ⟨b, hconv⟩ := retireSlice_conv d1 k j.val 2
  have hstall : { (d1.mando.conv[k]).onSlice j.val (retiredBy 2) with failed := b } =
      stalledAt b j at' d.mando.conv[k] := by
    rw [stalledAt, ← onSlice_onSlice _ j (fun s => { s with fails := satInc s.fails }) (retiredBy 2), ← hs, onConv_conv]
    rfl
  rw [onConv_conv, hconv, hstall]
  exact ⟨⟨b, rfl⟩, retireSlice_recorded d1 k.val j.val 2⟩

/-- The stalled slice leaves its position vacant, which the spare takes. -/
theorem stalledAt_settled {c : Converter} {sp j : Fin 9} (hp : Placed c) (hact : (c.slices[j]).duty = .active)
    (hs : c.spare = some sp.val) (b : Bool) (at' : Nat) :
    let e := (stalledAt b j at' c).settle (at' + 1) 3
    e.slices[sp] = { c.slices[sp] with duty := .active, pos := (c.slices[j]).pos } ∧
    e.slices[j] = retiredBy 2 { c.slices[j] with fails := satInc (c.slices[j]).fails } := by
  have hj : (stalledAt b j at' c).slices[j] = retiredBy 2 { c.slices[j] with fails := satInc (c.slices[j]).fails } :=
    onSlice_slice c j _
  have hduty : ((stalledAt b j at' c).slices[j]).duty = .retired := by rw [hj]; rfl
  have hother (i : Fin 9) (hi : i ≠ j) : (stalledAt b j at' c).slices[i] = c.slices[i] :=
    onSlice_slice_ne c (Fin.val_ne_of_ne hi.symm) _
  have hsp : sp ≠ j := by
    rintro rfl
    exact absurd (duty_of_spare hs) (by rw [slice_fin, hact]; decide)
  have hspare : (stalledAt b j at' c).spare = some sp.val := by
    rw [spare_of_others hother (by rw [hact]; decide) (by rw [hduty]; decide), hs]
  have hvacant := atPos_isNone_of_left hp hact hother (by rw [hduty]; decide)
  obtain ⟨hfull, hplace⟩ := hp
  obtain ⟨hpos, -⟩ := hplace j hact
  constructor
  · rw [settle_vacant_slice (at' + 1) 2 hspare hpos hvacant fun q hq hne =>
      atPos_isSome_of_others hother (fun h => hne h.2.symm) (hfull q hq), hother sp hsp]
  · rw [settle_slice _ _ (by rw [hduty]; decide) (by rw [hduty]; decide), hj]

end device

end Sys2Proof.Laws

namespace Sys2Proof.Proofs

open Sys2Proof.Machine Sys2Proof.Safety Sys2Proof.Laws

/-- Settles O41. A rotation is the exchange or one attempt on the freed slice; behind it only an idle slice may become the
spare and only the spare active, so that the slices told of stay. A stall leaves one position vacant, which the spare takes. -/
theorem slicesExchanged : Obligations.SlicesExchanged := by
  unfold Obligations.SlicesExchanged
  intro k s c hu hx
  refine ⟨fun sp old r hf hi hs ho hexp => completes_of_act rfl ?exchange, fun f r hf hduty => ⟨fun hp ha =>
    completes_of_act rfl ?accepted, fun ha hn => completes_of_act rfl ?rejected, fun ha hn => completes_of_act rfl ?third⟩,
    fun sp j at' hp hs hact ht => completes_of_act rfl ?stall⟩
  case exchange =>
    have hne : old.val ≠ sp.val :=
      ne_of_duty (duty_of_atPos ho) (by rw [← slice_fin, duty_of_spare hs]; decide)
    rw [Dev.settle_mando, logFlush_mando, rotation_conv, calRotation_exchange hu hx hf hi, calExchange_due hs ho hexp]
    simp only [recordExchange_slices, onSlice_slice_ne _ hne, onSlice_slice, and_self, c]
  case accepted =>
    rw [Dev.settle_mando, logFlush_mando, rotation_conv, calRotation_freed hu hx hf, freedAttempt_accepted ha]
    have hother (g : Slice → Slice) (i : Fin 9) (hi : i ≠ f) := onSlice_slice_ne c (Fin.val_ne_of_ne hi.symm) g
    dsimp only
    rw [freedDone_slices_of_spare _ hp hduty (hother _) rfl (by rw [onSlice_slice]), onSlice_slice]
    exact ⟨rfl, rfl, rfl, rfl, freedDone_freed _ _⟩
  case rejected =>
    rw [Dev.settle_mando, logFlush_mando, rotation_conv, calRotation_freed hu hx hf,
      freedAttempt_rejected ha (by rw [hduty]; decide) hn, Converter.onSlice, vupdN_eq_set]
  case third =>
    obtain ⟨⟨e, hconv, hslice⟩, hrec⟩ := freedAttempt_third ha hn
    have hretired : (e.slices[f]).duty = .retired := congrArg Slice.duty hslice
    rw [Dev.settle_mando, logFlush_mando, Dev.settle_sys, logFlush_sys, rotation_conv, rotation_sys,
      calRotation_freed hu hx hf, hconv]
    dsimp only
    rw [freedDone_slice _ (by rw [hretired]; decide) (by rw [hretired]; decide), hslice]
    exact ⟨rfl, rfl, rfl, freedDone_freed _ _, hrec⟩
  case stall =>
    obtain ⟨⟨b, hconv⟩, hrec⟩ := stallSlice_due hu hx hact ht
    obtain ⟨hsp, hj⟩ := stalledAt_settled hp hact hs b at'
    rw [Dev.settle_mando, logFlush_mando, Dev.settle_sys, logFlush_sys, sliceStall_conv, sliceStall_sys, hconv]
    dsimp only
    rw [hsp, hj]
    exact ⟨rfl, rfl, rfl, rfl, rfl, hrec⟩

end Sys2Proof.Proofs

/-! ## Sensor readings and I²C transactions (R321, R322, R337, R338) -/

namespace Sys2Proof.Laws

open Sys2Proof.Machine Sys2Proof.Safety

/-! ### The sequence of readings (R321, R322) -/

/-- The mean that a sequence gives the reading `k`: of the samples at its place in the order, without the first four. -/
def sampleMean (order : List Nat) (vs : List (List Int)) (k : Nat) : Nat :=
  match order.findIdx? (· == k) with
  | some i => (averageOf 4 ((vs.getD i []).drop 4)).1
  | none => 0

/-- The readings that a sequence takes. -/
def sequenceReads (vs : List (List Int)) (d : Dev) : SenseReads :=
  let mean := sampleMean (senseOrder d.image.senseCfg) vs
  { sref := mean 0, temp := [mean 1, mean 2, mean 3, mean 4], daylight := mean 5, gas := [mean 6, mean 7],
    presence := mean 8, range := d.sense.lightRange, at' := d.scriptInstant }

theorem senseSequence_of_due {d : Dev} {vs : List (List Int)} (hs : d.image.sensing = true)
    (hu : d.convUsable 3 = true) (hf : d.convFailed 3 = false) (hw : d.time.wm = 4)
    (hlen : vs.length = (senseOrder d.image.senseCfg).length) (hvs : ∀ l ∈ vs, l.length = 20) :
    d.senseSequence vs = { d with sense := { d.sense with taken := some (sequenceReads vs d) } } := by
  unfold Dev.senseSequence
  rw [if_neg (by simpa [hs, hu, hf, hw, hlen] using hvs)]
  rfl

theorem ite_nil_sublist {α : Type} (b : Bool) (l : List α) : (if b then l else []).Sublist l := by
  cases b
  · exact List.nil_sublist l
  · exact List.Sublist.refl l

/-- The order of the readings is the list of R321 with the channels left out that are not enabled. -/
theorem senseOrder_sublist (c : List Byte) : (senseOrder c).Sublist (upTo 9) :=
  (((((ite_nil_sublist _ [0]).append ((List.filter_sublist (l := upTo 4)).map (· + 1))).append
    (ite_nil_sublist _ [5])).append (ite_nil_sublist _ [6])).append (ite_nil_sublist _ [7])).append (ite_nil_sublist _ [8])

theorem senseOrder_nodup (c : List Byte) : (senseOrder c).Nodup := (senseOrder_sublist c).nodup List.nodup_range

theorem lt_of_mem_senseOrder {c : List Byte} {k : Nat} (h : k ∈ senseOrder c) : k < 9 :=
  List.mem_range.mp ((senseOrder_sublist c).subset h)

/-- A reading stands at one place of the order alone, so its mean is that of the samples there. -/
theorem sampleMean_of_getElem? {order : List Nat} {vs : List (List Int)} {i k : Nat} {l : List Int}
    (hn : order.Nodup) (hk : order[i]? = some k) (hl : vs[i]? = some l) :
    sampleMean order vs k = (averageOf 4 (l.drop 4)).1 := by
  obtain ⟨hi, rfl⟩ := List.getElem?_eq_some_iff.mp hk
  have hfind : order.findIdx? (· == order[i]) = some i := by
    refine List.findIdx?_eq_some_iff_getElem.mpr ⟨hi, by simp, fun j hji => ?_⟩
    simpa using fun h => hji.ne ((hn.getElem_inj_iff).mp h)
  simp [sampleMean, hfind, hl]

theorem readingOf_sequenceReads (vs : List (List Int)) (d : Dev) {k : Nat} (h : k < 9) :
    readingOf (sequenceReads vs d) k = sampleMean (senseOrder d.image.senseCfg) vs k := by
  interval_cases k <;> rfl

/-! ### What the master sends (R337) -/

/-- A write that succeeds: the address and every byte of WR between START and STOP. -/
theorem i2cWire_written {c : List Byte} {e : I2cEnd} (he : e.code = 0) (hn : byteAt c 3 ≤ 4) :
    i2cWire c false e =
      .start :: .tx (BitVec.ofNat 8 (2 * byteAt c 1)) :: ((c.drop 4).take (byteAt c 3)).map I2cSym.tx ++ [.stop] := by
  have hlen : ((c.drop 4).take (byteAt c 3)).length ≤ 4 := (List.length_take_le _ _).trans hn
  simp [i2cWire, he, i2cWriteBytes, List.take_of_length_le hlen]

/-! ### The end of one transaction (R338) -/

theorem onI2c_eq (d : Dev) (x : Fin 8) (f : I2cDev → I2cDev) :
    d.onI2c x.val f = { d with sense := { d.sense with i2c := d.sense.i2c.set x.val (f d.sense.i2c[x]) } } := by
  rw [Dev.onI2c, Dev.onSense, vupdN_eq_set]

theorem onI2c_same (d : Dev) (x : Fin 8) (f : I2cDev → I2cDev) :
    ((d.onI2c x.val f).sense.i2c[x]) = f d.sense.i2c[x] :=
  vupdN_fin_get _ x f

theorem onI2c_other (d : Dev) {x y : Fin 8} (h : x ≠ y) (f : I2cDev → I2cDev) :
    ((d.onI2c x.val f).sense.i2c[y]) = d.sense.i2c[y] :=
  vupdN_get_ne _ (Fin.val_ne_of_ne h) f

/-- A write leaves its device with the master's part on the wire and its failure, if any, kept. -/
theorem i2cWriteEnd_same (d : Dev) (x : Fin 8) (e : I2cEnd) :
    let c := (d.image.i2c x.val).getD []
    ((d.i2cWriteEnd x.val e).sense.i2c[x]) = { d.sense.i2c[x] with
      wire := i2cWire c false e, fast := byteAt c 2 = 1
      writeFail := if e.code = 0 then none else some e.code } := by
  dsimp only
  rw [Dev.i2cWriteEnd, onI2c_same, Dev.i2cSend, onI2c_same]
  rfl

theorem i2cWriteEnd_other (d : Dev) {x y : Fin 8} (h : x ≠ y) (e : I2cEnd) :
    ((d.i2cWriteEnd x.val e).sense.i2c[y]) = d.sense.i2c[y] := by
  rw [Dev.i2cWriteEnd, onI2c_other _ h, Dev.i2cSend, onI2c_other _ h]
  rfl

theorem i2cWriteEnd_stuck (d : Dev) (x : Nat) (e : I2cEnd) :
    (d.i2cWriteEnd x e).sense.stuck = if e.code = 3 && e.sdaLow then satInc d.sense.stuck else d.sense.stuck := rfl

/-- A read leaves its device with the master's part on the wire and its outcome for the next boundary. -/
theorem i2cReadEnd_same (d : Dev) (x : Fin 8) (e : I2cEnd) :
    let c := (d.image.i2c x.val).getD []
    ((d.i2cReadEnd x.val e).sense.i2c[x]) = { d.sense.i2c[x] with
      wire := i2cWire c true e, fast := byteAt c 2 = 1, outcome := some (e.code, e.data) } := by
  dsimp only
  rw [Dev.i2cReadEnd, onI2c_same, Dev.i2cSend, onI2c_same]
  rfl

/-! ### The transactions of a phase (R337, R338) -/

theorem i2cWritePhase_of_due {d : Dev} (es : List I2cEnd) (hm : d.sys.mode = .run) (hlo : 8 ≤ d.time.wm)
    (hhi : d.time.wm < 120) : d.i2cWritePhase es = Dev.i2cPhase Dev.i2cWriteEnd d.i2cWrites es false d := by
  unfold Dev.i2cWritePhase
  rw [if_neg (by simp [hm, hlo, hhi])]

/-- Behind a transaction that leaves SDA low the next one is not started. -/
theorem i2cPhase_stuck {f : Dev → Nat → I2cEnd → Dev} (d : Dev) (x y : Nat) {e : I2cEnd} (e2 : I2cEnd) (he : e.code = 3)
    (hs : e.sdaLow = true) :
    Dev.i2cPhase f [x, y] [e, e2] false d = f (f d x e) y I2cEnd.skipped := by
  simp [Dev.i2cPhase, he, hs]

theorem i2cReadPhase_of_written {d : Dev} {x : Fin 8} (e : I2cEnd) (hm : d.sys.mode = .run) (hlo : 128 ≤ d.time.wm)
    (hhi : d.time.wm < 248) (hx : d.i2cReads = [x.val]) (hw : (d.sense.i2c[x]).writeFail = none) :
    d.i2cReadPhase [e] = d.i2cReadEnd x.val e := by
  have hof : (d.i2cOf x.val).writeFail = none := by rw [Dev.i2cOf, vgetD_fin, hw]
  unfold Dev.i2cReadPhase
  rw [if_neg (by simp [hm, hlo, hhi])]
  simp [hx, hof, Dev.i2cPhase]

/-- A failed write stands for the read that follows, which is not run. -/
theorem i2cReadPhase_of_failed {d : Dev} {x : Fin 8} {c : Nat} (e : I2cEnd) (hm : d.sys.mode = .run)
    (hlo : 128 ≤ d.time.wm) (hhi : d.time.wm < 248) (hx : d.i2cReads = [x.val])
    (hw : (d.sense.i2c[x]).writeFail = some c) :
    d.i2cReadPhase [e] =
      d.onI2c x.val fun y => { y with outcome := some (c, []), writeFail := none, wire := [] } := by
  have hof : (d.i2cOf x.val).writeFail = some c := by rw [Dev.i2cOf, vgetD_fin, hw]
  unfold Dev.i2cReadPhase
  rw [if_neg (by simp [hm, hlo, hhi])]
  simp [hx, hof, Dev.i2cPhase]

/-! ### A clock held low (R338) -/

theorem i2cTimeout_write {d : Dev} {x : Fin 8} {c : List Byte} (bytes : Nat) (hm : d.sys.mode = .run)
    (hc : d.image.i2c x.val = some c) (hx : x.val ∈ d.i2cWrites) :
    d.i2cTimeout x false bytes = { d with sense := { d.sense with
      timeout := satInc d.sense.timeout
      i2c := d.sense.i2c.set x.val { d.sense.i2c[x] with
        wire := i2cWire c false { code := 4, bytes := bytes, sdaLow := false, data := [] }
        fast := byteAt c 2 = 1, writeFail := some 4 } } } := by
  simp [Dev.i2cTimeout, hm, hx, Dev.i2cWriteEnd, Dev.i2cSend, Dev.i2cCount, onI2c_eq, hc, Dev.onSense]

theorem i2cTimeout_read {d : Dev} {x : Fin 8} {c : List Byte} (bytes : Nat) (hm : d.sys.mode = .run)
    (hc : d.image.i2c x.val = some c) (hx : x.val ∈ d.i2cReads) :
    d.i2cTimeout x true bytes = { d with sense := { d.sense with
      timeout := satInc d.sense.timeout
      i2c := d.sense.i2c.set x.val { d.sense.i2c[x] with
        wire := i2cWire c true { code := 4, bytes := bytes, sdaLow := false, data := [] }
        fast := byteAt c 2 = 1, outcome := some (4, []) } } } := by
  simp [Dev.i2cTimeout, hm, hx, Dev.i2cReadEnd, Dev.i2cSend, Dev.i2cCount, onI2c_eq, hc, Dev.onSense]

end Sys2Proof.Laws

namespace Sys2Proof.Proofs

open Sys2Proof.Machine Sys2Proof.Safety Sys2Proof.Laws

/-- Settles O43. A reading stands at one place of the sequence's order alone; each phase is the end of its one due transaction, or
of two, of which the second is skipped. What the master sent until a clock was held low is what the operand says of it (log 184). -/
theorem readingsAndTransactions : Obligations.ReadingsAndTransactions := by
  unfold Obligations.ReadingsAndTransactions
  intro s hl
  refine ⟨fun vs hs hu hf hw hlen hvs => completes_of_act rfl ?sequence, fun x e hm =>
    ⟨fun hlo hhi hx => completes_of_act rfl ?write, fun y hxy hlo hhi hx he hsda e2 => completes_of_act rfl ?stuck,
      fun hlo hhi hx => ⟨fun hw => completes_of_act rfl ?read, fun c hw => completes_of_act rfl ?failed⟩,
      fun bytes c h hc hh => ⟨fun hx => ?writeTimeout, fun hx => ?readTimeout⟩⟩⟩
  case sequence =>
    rw [Dev.settle_sense, logFlush_sense, senseSequence_of_due hs hu hf hw hlen hvs]
    refine ⟨_, rfl, rfl, rfl, fun i k l hk hv => ?_⟩
    rw [readingOf_sequenceReads _ _ (lt_of_mem_senseOrder (List.mem_of_getElem? hk)),
      sampleMean_of_getElem? (senseOrder_nodup _) hk hv]
  case write =>
    rw [Dev.settle_sense, logFlush_sense, i2cWritePhase_of_due _ hm hlo hhi, hx]
    have hend := i2cWriteEnd_same s.dev x e
    refine ⟨congrArg I2cDev.writeFail hend, fun he c hc hn => ?_⟩
    rw [← i2cWire_written he hn, ← Option.getD_some (a := c) (b := []), ← hc]
    exact congrArg I2cDev.wire hend
  case stuck =>
    rw [Dev.settle_sense, logFlush_sense, i2cWritePhase_of_due _ hm hlo hhi, hx, i2cPhase_stuck _ _ _ _ he hsda,
      i2cWriteEnd_other _ hxy.symm, i2cWriteEnd_same, i2cWriteEnd_same, i2cWriteEnd_stuck, i2cWriteEnd_stuck]
    simp [he, hsda, I2cEnd.skipped]
  case read =>
    rw [Dev.settle_sense, logFlush_sense, i2cReadPhase_of_written e hm hlo hhi hx hw, i2cReadEnd_same]
  case failed =>
    rw [Dev.settle_sense, logFlush_sense, i2cReadPhase_of_failed e hm hlo hhi hx hw, onI2c_same]
    exact ⟨rfl, rfl⟩
  case writeTimeout => exact hh ▸ becomes_of_quiet rfl (i2cTimeout_write bytes hm hc hx) hl rfl
  case readTimeout => exact hh ▸ becomes_of_quiet rfl (i2cTimeout_read bytes hm hc hx) hl rfl

end Sys2Proof.Proofs

/-! ## Every command runs (R569 to R571) -/

namespace Sys2Proof.Laws

open Sys2Proof.Machine Sys2Proof.Safety

/-! ### What a lane's instruction leaves in the log -/

theorem fetchFail_logged (d : Dev) (t : Fin 64) (w : Window) (ws : List Nat) : Logged (d.fetchFail t w ws) :=
  logFlush_logPend _

/-- An instruction that runs raises no event, and one whose code is lost has written its own. -/
theorem rhRaw_logged {d : Dev} (h : Logged d) (t : Fin 64) (imm cost need : Nat)
    (f : Window → Frame → List Frame → Window) : Logged (d.rhRaw t imm cost need f) := by
  fun_cases Dev.rhRaw d t imm cost need f
  case case2 => exact fetchFail_logged _ _ _ _
  all_goals exact h

theorem rhConst_logged {d : Dev} (h : Logged d) (t : Fin 64) (imm n : Nat) : Logged (d.rhConst t imm n) := by
  unfold Dev.rhConst Dev.rhGuard
  split
  · exact h
  · split
    · split
      · exact fetchFail_logged _ _ _ _
      · exact rhRaw_logged h _ _ _ _ _
    · exact h

theorem rhCall_logged {d : Dev} (h : Logged d) (t : Fin 64) (fn : BitVec 16) : Logged (d.rhCall t fn) := by
  unfold Dev.rhCall
  split
  · exact h
  · exact rhRaw_logged h _ _ _ _ _

/-! ### Every row -/

/-- A command acts on the device and has its events written, or is an instruction of a lane that leaves none waiting. -/
inductive Acts (c : Instr) (s : State) : Prop
  | act (f : Dev → Dev) (h : exec c s = s.act f)
  | lane (f : Dev → Dev) (h : exec c s = s.lane f) (hf : Logged s.dev → Logged (f s.dev))

theorem exec_acts (c : Instr) (s : State) : Acts c s := by
  cases c with
  | rhCall t fn => exact .lane _ rfl fun h => rhCall_logged h t fn
  | rhLdc8u t => exact .lane _ rfl fun h => rhConst_logged h t 0 1
  | rhLdc16u t => exact .lane _ rfl fun h => rhConst_logged h t 0 2
  | rhLdc32 t ty => exact .lane _ rfl fun h => rhConst_logged h t 1 4
  | rhNop | rhPushI8 | rhPushI16 | rhPushI32 | rhPushU32 | rhPushQ | rhPushF | rhDrop | rhDup | rhSwap | rhOver |
    rhRot | rhPick | rhLdL | rhStL | rhTeeL | rhAddI | rhSubI | rhMulI | rhDivI | rhRemI | rhNegI | rhAbsI | rhAddsI |
    rhSubsI | rhMulsI | rhNegsI | rhAbssI | rhMinI | rhMaxI | rhAddU | rhSubU | rhMulU | rhDivU | rhRemU | rhAddsU |
    rhSubsU | rhMulsU | rhMinU | rhMaxU | rhAddQ | rhSubQ | rhMulQ | rhDivQ | rhNegQ | rhAbsQ | rhMinQ | rhMaxQ |
    rhAddF | rhSubF | rhMulF | rhDivF | rhNegF | rhAbsF | rhMinF | rhMaxF | rhSqrtF | rhFloorF | rhCeilF | rhRoundF |
    rhTruncF | rhCmpI | rhCmpU | rhCmpQ | rhCmpF | rhAnd | rhOr | rhXor | rhNot | rhShlI | rhShlU | rhShrI |
    rhShrU | rhRotl | rhRotr | rhClz | rhPopc | rhEqz | rhI2u | rhU2i | rhI2f | rhU2f | rhQ2f | rhF2i | rhF2u |
    rhF2q | rhI2q | rhU2q | rhQ2i | rhFBits | rhFFrom | rhQBits | rhQFrom | rhBr | rhBrz | rhBrnz | rhLoop | rhRet |
    rhSelect | rhLd8u | rhLd8s | rhLd16u | rhLd16s | rhLd32 | rhSt8 | rhSt16 | rhSt32 | rhIn | rhInst | rhOut |
    rhOutget | rhPrev | rhEdgeR | rhEdgeF | rhCapN | rhCapX | rhCapCp | rhTStart | rhTExp | rhTLeft | rhTime |
    rhRegRd | rhRegWr | rhSelf | rhHRd | rhHWr | rhHGen | rhLWr | rhLStat | rhSRun | rhSStop | rhSPar | rhSStat |
    rhFRect | rhFAbort | rhFSten | rhFStat =>
    exact .lane _ rfl fun h => rhRaw_logged h _ _ _ _ _
  | csNEarlyRise => exact .act id rfl
  | _ => exact .act _ rfl

theorem exec_completes (c : Instr) (s : State) : Completes c s (fun _ => True) := by
  cases exec_acts c s with
  | act f h => exact ⟨_, h, rfl, trivial⟩
  | lane f h _ => exact ⟨_, h, rfl, trivial⟩

theorem exec_logged {c : Instr} {s t : State} (hl : Logged s.dev) (hx : exec c s = .next t) : Logged t.dev := by
  cases exec_acts c s with
  | act f h => exact act_logged (h.symm.trans hx)
  | lane f h hf =>
    cases h.symm.trans hx
    exact hf hl

end Sys2Proof.Laws

namespace Sys2Proof.Proofs

open Sys2Proof.Machine Sys2Proof.Safety Sys2Proof.Laws

/-- Settles O1: the queue's front is what a step takes. -/
theorem stepRunsTheFront : Obligations.StepRunsTheFront := by
  unfold Obligations.StepRunsTheFront
  intro c s
  rfl

/-- Settles O2: a step of an empty queue is the model's idle step (log 1). -/
theorem emptyQueueIdles : Obligations.EmptyQueueIdles := by
  unfold Obligations.EmptyQueueIdles
  intro s h
  unfold step
  rw [h]

/-- Settles O3: every arm of the dispatch is an effect on the device alone. That a row whose event cannot occur, and a Rhamet
row with no open window, complete with no change is logs 105 and 28. -/
theorem everyCommandCompletes : Obligations.EveryCommandCompletes := by
  unfold Obligations.EveryCommandCompletes
  exact exec_completes

/-- Settles O4: a command's events are written or counted at its end, and an instruction of a lane raises none that it does
not write itself. -/
theorem eventsNeverWait : Obligations.EventsNeverWait := by
  unfold Obligations.EventsNeverWait
  intro s s' hl hs
  unfold step at hs
  split at hs
  case h_1 =>
    cases hs
    exact hl
  case h_2 c rest _ => exact exec_logged (s := { s with pending := rest }) hl hs

end Sys2Proof.Proofs

/-! ## The Line follows its medium (R346, R365, R368, R375, R379) -/

namespace Sys2Proof.Laws

open Sys2Proof.Machine Sys2Proof.Safety

/-! ### What is received (R368, R375) -/

theorem phyCfgApply_of_idle {d : Dev} {w : BitVec 32} (hw : d.line.cfgPend = some w) (hm : d.time.wm = 0)
    (ht : d.line.tx = none) (hr : d.line.rx = none) :
    d.phyCfgApply = { d with line := { d.line with cfg := w, cfgPend := none } } := by
  simp [Dev.phyCfgApply, hw, hm, ht, hr, Dev.onLine]

/-- A carrier behind the end of the last frame known is stamped. -/
theorem carrier_of_unknown {d : Dev} {at' : Nat} (noise : BitVec 8) (hr : d.rxReady = true) (hb : d.line.busyUntil ≤ at') :
    d.carrier at' noise = { d with line := { d.line with noise := noise, carrierAt := some at' } } := by
  simp [Dev.carrier, hr, Nat.not_lt.mpr hb, Dev.onLine]

theorem bandLevel_of_ready {d : Dev} (b : Bool) (hr : d.rxReady = true) :
    d.bandLevel b = { d with line := { d.line with bandUse := b } } := by
  simp [Dev.bandLevel, hr, Dev.onLine]

/-- The reception that the header of a tone preamble starts (R349). -/
def toneHeard (l : LineState) (p : PreambleEnv) : RxProgress :=
  { mode := .tone, tmid := 0, len := p.toneLen, codes := [], classB := false, inputs := l.combine p.inputs
    rssi := rssiOf (l.combine p.inputs) p.inputs, start := p.first, mark := p.mark, copy := false, other := none }

/-- The header of a tone frame whose LEN is in range starts its reception, and the medium is busy to its end. -/
theorem readHeader_tone {d : Dev} {p : PreambleEnv} (hp : p.tone = true) (h1 : 1 ≤ p.toneLen) (h2 : p.toneLen ≤ 32) :
    d.readHeader p = { d with line := { d.line with
      rx := some (toneHeard d.line p), carrierAt := none
      busyUntil := max d.line.busyUntil (p.first + (24 + 4 * p.toneLen) * 1000000) } } := by
  have hlen : (decide (p.toneLen < 1) || decide (32 < p.toneLen)) = false := by
    simp [Nat.not_lt.mpr h1, Nat.not_lt.mpr h2]
  unfold Dev.readHeader
  simp only [hp, hlen, if_true, Bool.false_eq_true, if_false]
  rfl

section preamble
variable {d : Dev} {p : PreambleEnv} {r : RxProgress} (hready : d.rxReady = true) (htx : d.line.tx = none)
include hready htx

theorem preamble_of_free (hrx : d.line.rx = none) : d.preamble p = d.readHeader p := by
  simp [Dev.preamble, hready, htx, hrx]

theorem preamble_of_secondHeader (hrx : d.line.rx = some r) (h : d.secondHeader r p = true) :
    d.preamble p = { d with line := { d.line with
      rx := some { r with other := some (p.first, (headerBanner r.inputs p.header).isSome) } } } := by
  simp [Dev.preamble, hready, htx, hrx, h, Dev.onLine]

theorem preamble_of_ended (hrx : d.line.rx = some r) (h : d.secondHeader r p = false) (he : d.rxEnds r ≤ p.first) :
    d.preamble p = d.readHeader p := by
  simp [Dev.preamble, hready, htx, hrx, h, he]

/-- Before the last symbol of the frame being received the stronger preamble captures, and a weaker one is ignored. -/
theorem preamble_of_lasting (hrx : d.line.rx = some r) (h : d.secondHeader r p = false) (hl : p.first < d.rxLast r) :
    d.preamble p = if r.rssi + 32 ≤ rssiOf (d.line.combine p.inputs) p.inputs then
      (d.onLine fun l => { l with captured := satInc l.captured }).readHeader p else d := by
  have he : ¬ d.rxEnds r ≤ p.first := by
    have : d.rxLast r ≤ d.rxEnds r := Nat.sub_le _ _
    omega
  simp [Dev.preamble, hready, htx, hrx, h, he, hl]

end preamble

theorem secondHeader_tone {d : Dev} {p : PreambleEnv} (r : RxProgress) (hp : p.tone = true) : d.secondHeader r p = false := by
  simp [Dev.secondHeader, hp]

/-- A carrier preamble within 150 µs of its place is the second header of a robust frame (R365). -/
theorem secondHeader_of_near {d : Dev} {p : PreambleEnv} {r : RxProgress} (hp : p.tone = false)
    (hm : r.mode = .rob4 ∨ r.mode = .rob6) (hc : r.copy = false) (ho : r.other = none)
    (hn : ((p.first : Int) - (d.plusWm r.start 128 : Int)).natAbs ≤ 150000) : d.secondHeader r p = true := by
  have hrob : r.mode.robust = true := by
    rcases hm with h | h <;> rw [h] <;> rfl
  simp [Dev.secondHeader, hp, hrob, hc, ho, hn]

end Sys2Proof.Laws

namespace Sys2Proof.Proofs

open Sys2Proof.Machine Sys2Proof.Safety Sys2Proof.Laws

/-- Settles O44. Each row changes the Line alone; a preamble starts a reception where none lasts, or takes its place. -/
theorem lineMediumFollowed : Obligations.LineMediumFollowed := by
  unfold Obligations.LineMediumFollowed
  intro s hl d l
  refine ⟨?cfg, fun hready => ⟨?carrier, ?inUse, ?notInUse, ?tone, ?second⟩⟩
  case cfg =>
    intro w hw hm ht hr
    exact becomes_of_quiet rfl (phyCfgApply_of_idle hw hm ht hr) hl rfl
  case carrier =>
    intro at' noise hb
    exact becomes_of_quiet rfl (carrier_of_unknown noise hready hb) hl rfl
  case inUse => exact becomes_of_quiet rfl (bandLevel_of_ready true hready) hl rfl
  case notInUse => exact becomes_of_quiet rfl (bandLevel_of_ready false hready) hl rfl
  case tone =>
    intro p hp h1 h2 htx inputs level heard
    refine ⟨fun hrx => ?free, fun r hrx he => ?ended, fun r hrx hlast => ?lasting⟩
    case free =>
      exact becomes_of_quiet rfl ((preamble_of_free hready htx hrx).trans (readHeader_tone hp h1 h2)) hl rfl
    case ended =>
      exact becomes_of_quiet rfl ((preamble_of_ended hready htx hrx (secondHeader_tone r hp) he).trans
        (readHeader_tone hp h1 h2)) hl rfl
    case lasting =>
      have hpre := preamble_of_lasting hready htx hrx (secondHeader_tone r hp) hlast
      refine ⟨fun hstrong => ?_, fun hweak => ?_⟩
      · exact becomes_of_quiet rfl ((hpre.trans (if_pos hstrong)).trans (readHeader_tone hp h1 h2)) hl rfl
      · exact becomes_of_quiet rfl (hpre.trans (if_neg (Nat.not_le.mpr hweak))) hl rfl
  case second =>
    intro p r hp htx hrx hm hc ho hn
    exact becomes_of_quiet rfl (preamble_of_secondHeader hready htx hrx (secondHeader_of_near hp hm hc ho hn)) hl rfl

end Sys2Proof.Proofs

/-! ## Frames sent or held back (R369, R373, R376, R384) -/

namespace Sys2Proof.Laws

open Sys2Proof.Machine Sys2Proof.Safety

/-! ### What a frame start contends with (R373, R377) -/

/-- A queued frame contends as such: it is neither a repeat nor a convoy frame. -/
theorem dueQueued_kind {d : Dev} {k rnd : Nat} {c : Contender} (h : d.dueQueued k rnd = some c) : c.kind = 0 := by
  unfold Dev.dueQueued at h
  obtain ⟨q, -, rfl⟩ := Option.map_eq_some_iff.mp h
  rfl

theorem dueBeacon_of_later (d : Dev) {k : Nat} (hk : k ≠ 0) : d.dueBeacon k = none := by
  simp [Dev.dueBeacon, hk]

theorem startFrames_of_later (d : Dev) {k : Nat} (hk : k ≠ 0) : d.startFrames k = d := by
  simp [Dev.startFrames, hk]

/-- At a frame start other than the first, with neither a repeat nor a convoy frame due, the queued frame is sent, or held back
where the medium is busy. -/
theorem frameStart_of_queued {d : Dev} {k rnd : Nat} {c : Contender} (hk : k ≠ 0) (hw : d.time.wm = 32 * k)
    (hready : d.rxReady = true) (hs : d.lineSilent = false) (hrep : d.line.rep = none) (hcv : d.dueConvoy k = none)
    (hq : d.dueQueued k rnd = some c) :
    d.frameStart k rnd none = if d.busyAt (d.wmStart (32 * k)) then d.defer k c else d.transmit k c := by
  have hrepeat : d.dueRepeat k rnd = none := by simp [Dev.dueRepeat, hrep]
  have hkind : c.kind ≠ 3 := by
    rw [dueQueued_kind hq]
    decide
  simp [Dev.frameStart, hw, hready, hs, startFrames_of_later d hk, hcv, dueBeacon_of_later d hk, hrepeat, hq, hkind]

/-! ### The frame sent or held back (R376, R384) -/

@[simp] theorem checkpoint_line (d : Dev) : d.checkpoint.line = d.line := by
  unfold Dev.checkpoint
  split <;> rfl

/-- A queued frame that is held back counts in TX_DEFER alone. -/
theorem defer_of_queued (d : Dev) (k : Nat) {c : Contender} (hc : c.kind = 0) :
    d.defer k c = { d with line := { d.line with txDefer := satInc d.line.txDefer } } := by
  simp [Dev.defer, hc, Dev.onLine]

/-- A frame that is sent leaves the queue and goes on air under the next LSEQ, sealed. -/
theorem transmit_line (d : Dev) (k : Nat) (c : Contender) :
    (d.transmit k c).line.lseq = BitVec.ofNat 32 ((d.line.lseq.toNat + 1) % 2 ^ 32) ∧
    (d.transmit k c).line.queue = d.line.queue.filter (fun q => q ≠ c.frame) ∧
    ∃ t, (d.transmit k c).line.tx = some t ∧ t.frame = d.onAir c.frame ∧ t.lseq = (d.line.lseq.toNat + 1) % 2 ^ 32 ∧
      t.bytes = d.macBytes { c with frame := d.onAir c.frame } ((d.line.lseq.toNat + 1) % 2 ^ 32) ∧
      t.first = d.wmStart (32 * k) + (18 + 23 * c.slot) * 10000 / 3 + 50000 := by
  unfold Dev.transmit
  rw [checkpoint_line]
  refine ⟨rfl, List.filter_congr fun q _ => ?_, _, rfl, rfl, rfl, rfl, rfl⟩
  rw [bne, beq_eq_decide]
  simp

end Sys2Proof.Laws

namespace Sys2Proof.Proofs

open Sys2Proof.Machine Sys2Proof.Safety Sys2Proof.Laws

/-- Settles O45. The one frame that contends is the queued one, which is sent or held back. That it carries LSEQ after its
increase is log 72. -/
theorem framesSent : Obligations.FramesSent := by
  unfold Obligations.FramesSent
  intro k rnd s d
  refine ⟨fun c hk hw hready hs hrep hcv hq => ?start, fun t hl ht => ?sent⟩
  case start =>
    have hk' : k.val ≠ 0 := fun h => hk (Fin.ext h)
    have hstart := frameStart_of_queued hk' hw hready hs hrep hcv hq
    refine ⟨fun hfree => completes_of_act rfl ?_, fun hbusy => completes_of_act rfl ?_⟩
    · rw [Dev.settle_line, logFlush_line, hstart, if_neg (by simp [hfree])]
      exact transmit_line d k.val c
    · rw [Dev.settle_line, logFlush_line, hstart, if_pos hbusy, defer_of_queued d k.val (dueQueued_kind hq)]
  case sent =>
    have hsent : d.frameSent = d.onLine fun l => { l with
        tx := none, ownEnd := some t.ends, txFrames := satInc l.txFrames, awaits := l.awaits ++ t.await } := by
      simp only [Dev.frameSent, ht]
    exact becomes_of_quiet rfl hsent hl rfl

end Sys2Proof.Proofs

/-! ## Unicast frames of the Line (R387 to R391, R398, R400) -/

namespace Sys2Proof.Laws

open Sys2Proof.Machine Sys2Proof.Safety

/-- What the model takes out of a list by `!=`. -/
theorem filter_bne {α : Type} (l : List α) (f : α → Nat) (n : Nat) :
    l.filter (fun x => f x != n) = l.filter (fun x => f x ≠ n) := by
  simp [bne, beq_eq_decide]

/-! ### Frames queued (R377, R378, R387) -/

theorem OnlyLine.classB {d e : Dev} (h : OnlyLine d e) : e.classB = d.classB := by
  obtain ⟨l, rfl⟩ := h
  rfl

/-- A frame that fits is queued behind the others. -/
theorem enqueue_of_fits {d : Dev} {q : QFrame} (h : Fits d q) :
    d.enqueue q = { d with line := { d.line with queue := queued d q } } := by
  unfold Dev.enqueue
  exact if_neg (Nat.not_lt.mpr h)

/-- A frame that starts no ladder goes in its own mode on the fixed map. -/
theorem sendMode_of_noLadder {l : LineState} {q : QFrame} (h : q.step = 0) : l.sendMode q = (q.mode, map0) := by
  simp [LineState.sendMode, h]

theorem sendMode_of_robust {l : LineState} {q : QFrame} (h : q.step = 3) : l.sendMode q = (.rob4, map0) := by
  simp [LineState.sendMode, h]

/-- Where nothing but the Line differs, a frame that starts no ladder fits as well. -/
theorem fits_of_noLadder {d e : Dev} {q : QFrame} (hq : q.step = 0) (h : OnlyLine d e) (hf : Fits d q) : Fits e q := by
  unfold Fits at *
  rw [sendMode_of_noLadder hq] at *
  rwa [h.classB, h.time]

/-- A frame that this node originates towards a neighbour takes the next end-to-end number. -/
theorem originated_of_fits {d : Dev} {q : QFrame} (hq : q.step = 0) (hf : Fits d q) :
    d.nextEseq.1.enqueue q = { d with line := { d.line with eseq := d.line.eseq + 1, queue := queued d q } } := by
  rw [enqueue_of_fits (fits_of_noLadder hq (onlyLine_nextEseq d) hf)]
  rfl

/-! ### What a queued frame leaves -/

@[simp] theorem enqueue_members (d : Dev) (q : QFrame) : (d.enqueue q).line.members = d.line.members := by
  unfold Dev.enqueue
  dsimp only
  split <;> rfl

@[simp] theorem mapFor_members (d : Dev) (n : Nat) : (d.mapFor n).line.members = d.line.members := by
  unfold Dev.mapFor
  extract_lets has
  split
  · rfl
  · exact enqueue_members _ _

/-- A routed frame as it waits when it must go in a robust mode: towards its next hop, on the third step of the ladder. -/
def robustHop (d : Dev) (q : QFrame) (n : Nat) (sr : Option (Nat × List Nat)) : QFrame :=
  { q with ldst := n, sr, ackreq := true, step := 3, mode := .rob4, map := map0, at' := d.time.now }

/-- A robust frame with a next hop and of no more than 1.000 s is queued towards it (R378, R402). -/
theorem sendRouted_robust {d : Dev} {q : QFrame} {n : Nat} {sr : Option (Nat × List Nat)}
    (hn : d.line.nextHop d.junction q.fdst q.sr = some (n, sr))
    (hf : frameNs .rob4 map0.codes d.classB (robustHop d q n sr).len d.time.msLen ≤ 1000000000) :
    robustHop d q n sr ∈ (d.sendRouted q true).line.queue := by
  have hmap := onlyLine_mapFor d n
  have hfits : Fits (d.mapFor n) { q with ldst := n, sr, ackreq := true, step := 3 } := by
    unfold Fits
    rw [sendMode_of_robust rfl, hmap.classB, hmap.time]
    exact hf
  simp only [Dev.sendRouted, hn, if_true, Dev.onLine_line, enqueue_of_fits hfits, queued, hmap.time,
    sendMode_of_robust (q := { q with ldst := n, sr, ackreq := true, step := 3 }) rfl]
  exact List.mem_append_right _ (List.mem_singleton.mpr rfl)

theorem sendRouted_members (d : Dev) (q : QFrame) (robust : Bool) : (d.sendRouted q robust).line.members = d.line.members := by
  unfold Dev.sendRouted
  split
  · rfl
  · exact (enqueue_members _ _).trans (mapFor_members _ _)

/-! ### Tone maps (R388 to R390) -/

/-- The map of a MAP_OFFER holds two bits a carrier. -/
theorem bitsOf_pair (v c : Nat) : bitsOf v (2 * c + 1) (2 * c) = v / 4 ^ c % 4 := by
  have hbase : 2 ^ (2 * c) = 4 ^ c := Nat.pow_mul 2 2 c
  have hwidth : 2 * c + 1 + 1 - 2 * c = 2 := by omega
  have hmod : 2 ^ (2 * c + 1 + 1 - 2 * c) = 4 := congrArg (2 ^ ·) hwidth
  calc bitsOf v (2 * c + 1) (2 * c)
    _ = v / 2 ^ (2 * c) % 2 ^ (2 * c + 1 + 1 - 2 * c) :=
      congrArg (· % 2 ^ (2 * c + 1 + 1 - 2 * c)) (Nat.shiftRight_eq_div_pow v (2 * c))
    _ = v / 4 ^ c % 4 := congrArg₂ (fun a m => v / a % m) hbase hmod

/-- A MAP_OFFER of a map with enough carriers names the map by the lowest free TMID, under which it is kept as issued. -/
theorem offerMap_of_fits {d : Dev} {n : Nat} {snr : List Int} {q : QFrame} (hc : 10 ≤ mapOn (codesFromSnr snr))
    (hq : q = toNeighbour d 5 1 .rob4 n (BitVec.ofNat 8 d.line.freeTmid ::
      leBytes 10 ((codesFromSnr snr).reverse.foldl (fun v c => 4 * v + c) 0))) (hf : Fits d q) :
    (d.offerMap n snr).line.queue = queued d q ∧ ∀ x ∈ (d.offerMap n snr).line.neigh, x.addr = n →
      x.issued = some { tmid := d.line.freeTmid, codes := codesFromSnr snr } := by
  have hfits := fits_of_noLadder (by rw [hq]; rfl) ((onlyLine_nextEseq d).trans (onlyLine_onLine _ fun l => l.onNeigh n
    (fun x => { x with issuedPrev := x.issued, issued := some { tmid := d.line.freeTmid, codes := codesFromSnr snr }
                       lowRun := 0 }))) hf
  have hoffer : d.offerMap n snr = (d.nextEseq.1.onLine fun l => l.onNeigh n (fun x => { x with
      issuedPrev := x.issued, issued := some { tmid := d.line.freeTmid, codes := codesFromSnr snr }
      lowRun := 0 })).enqueue q := by
    subst hq
    unfold Dev.offerMap
    exact if_neg (Nat.not_lt.mpr hc)
  rw [hoffer, enqueue_of_fits hfits]
  constructor
  · subst hq
    rfl
  · intro x hx ha
    obtain ⟨y, -, rfl⟩ := List.mem_map.mp hx
    by_cases hy : (y.addr == n) = true
    · rw [if_pos hy]
    · rw [if_neg hy] at ha
      exact absurd (beq_iff_eq.mpr ha) hy

/-! ### The rows -/

section received
variable {e : RxEnd} {d d1 : Dev} {f : RxFrame} {m : Mac}

theorem rxAck_of_awaited {a : AwaitAck} (hr : d.receive 3 e = (d1, some (f, m))) (hb : m.body.length = 4)
    (ha : d1.line.awaits.find? (fun a => a.lseq == leNat m.body && a.frame.ldst == m.lsrc) = some a) :
    (d.rxAck e).line = { d1.line with awaits := d1.line.awaits.filter (fun b => b.lseq ≠ leNat m.body) } := by
  simp only [Dev.rxAck, hr, hb, bne_self_eq_false, Bool.false_eq_true, if_false, Dev.onLine_line, ha,
    filter_bne]

theorem rxMapAsk_of_received (hr : d.receive 4 e = (d1, some (f, m))) : d.rxMapAsk e = d1.offerMap m.lsrc f.snr := by
  simp only [Dev.rxMapAsk, hr]

/-- An offered map with enough carriers becomes the map towards its sender, from the first step of the ladder on. -/
theorem rxMapOffer_of_map (hr : d.receive 5 e = (d1, some (f, m))) (hb : m.body.length = 11)
    (ht : (offeredMap m.body).tmid ≠ 0) (hc : 10 ≤ mapOn (offeredMap m.body).codes) :
    (d.rxMapOffer e).line = { d1.line with
      neigh := d1.line.neigh.map (fun n => if n.addr = m.lsrc then
        { n with mapTo := some (offeredMap m.body), mapAt := d.si, step := 1 } else n) } := by
  unfold offeredMap at ht hc
  simp only [Dev.rxMapOffer, hr, hb, bne_self_eq_false, Bool.false_eq_true, if_false, bitsOf_pair, if_neg ht,
    if_neg (Nat.not_lt.mpr hc), Dev.onLine_line, LineState.onNeigh, beq_iff_eq]
  rfl

/-- A JOIN_ACC for this node's UID joins it, or reports the clash. -/
theorem rxJoinAcc_of_own (hr : d.receive 7 e = (d1, some (f, m))) (hb : m.body.length = 9)
    (hu : leAt m.body 0 8 = Config.uid.toNat) (hs : byteAt m.body 8 ≤ 1) :
    (d.rxJoinAcc e).line = if byteAt m.body 8 = 0 then { d1.line with joined := true, addrClash := false }
      else { d1.line with addrClash := true } := by
  simp only [Dev.rxJoinAcc, hr, hb, hu, Nat.not_lt.mpr hs, bne_self_eq_false, decide_false, Bool.or_self,
    Bool.false_eq_true, if_false]
  split <;> rfl

/-- The reply to an own probe is reported. -/
theorem rxProbe_of_reply (hr : d.receive 11 e = (d1, some (f, m))) (hp : d.line.probe = 1) (hd : d.line.probeDst = m.lsrc) :
    (d.rxProbe e).line = { d1.line with
      probe := 2, probeMargin := BitVec.ofInt 8 (d.line.margin f), probeRssi := BitVec.ofNat 16 f.rssi } := by
  simp [Dev.rxProbe, hr, hp, hd]

/-- Any other probe is returned to its sender. -/
theorem rxProbe_of_other {q : QFrame} (hr : d.receive 11 e = (d1, some (f, m))) (hp : d.line.probe ≠ 1)
    (hq : q = { toNeighbour d1 11 1 .tone m.lsrc [] with due := f.ends + 2000000 }) (hf : Fits d1 q) :
    (d.rxProbe e).line = { d1.line with eseq := d1.line.eseq + 1, queue := queued d1 q } := by
  have hprobe : d.rxProbe e = d1.nextEseq.1.enqueue q := by
    subst hq
    simp only [Dev.rxProbe, hr, hp, decide_false, Bool.false_and, Bool.false_eq_true, if_false]
    rfl
  rw [hprobe, originated_of_fits (by rw [hq]; rfl) hf]

/-- The JOIN_ACC that answers a member which reaches the junction itself. -/
def joinAccepted (addr eseq : Nat) (m : Mac) : QFrame :=
  { QFrame.base 7 1 .normal (leBytes 8 (leAt m.body 0 8) ++ leBytes 1 0) with osrc := addr, fdst := m.osrc, eseq }

/-- The member table of the junction with the entry of a member that joins without a path. -/
def membersWith (d : Dev) (l : LineState) (m : Mac) : List Member :=
  { addr := m.osrc, uid := leAt m.body 0 8, path := [], hop := byteAt m.body 9, heard := d.ms } ::
    l.members.filter (fun x => x.addr != m.osrc)

/-- The junction enters a member whose address no other device holds, and answers it. -/
theorem rxJoinReq_of_member (hr : d.receive 6 e = (d1, some (f, m))) (hb : m.body.length = 12)
    (h0 : byteAt m.body 11 = 0) (hj : d.junction = true) (hsr : m.sr = none)
    (hu : ∀ x ∈ d.line.members, x.addr = m.osrc → x.uid = leAt m.body 0 8) :
    d.rxJoinReq e = (d1.onLine fun l => { l with members := membersWith d l m }).nextEseq.1.sendRouted
      (joinAccepted d.addr (d1.line.eseq + 1).toNat m) true := by
  have hclash : d.line.members.any (fun x =>
      x.addr == m.osrc && x.uid != leAt m.body 0 8 && decide (d.ms < x.heard + 65536)) = false := by
    rw [List.any_eq_false]
    intro x hx h
    simp only [Bool.and_eq_true, beq_iff_eq, bne_iff_ne] at h
    exact h.1.2 (hu x hx h.1.1)
  simp only [Dev.rxJoinReq, hr, hb, h0, hj, hsr, hclash, bne_self_eq_false, Bool.or_self, Bool.not_true,
    Bool.false_eq_true, if_false]
  rfl

end received

end Sys2Proof.Laws

namespace Sys2Proof.Proofs

open Sys2Proof.Machine Sys2Proof.Safety Sys2Proof.Laws

/-- Settles O46. What the MAC does first changes the Line alone, so that a frame finds the rest of the device as it was. That an
accepted map starts at step 1 is log 148, and that a MAP_ASK or PROBE is taken whatever its body holds is log 73. -/
theorem unicastFramesTakeEffect : Obligations.UnicastFramesTakeEffect := by
  unfold Obligations.UnicastFramesTakeEffect
  intro e f s d1 m
  refine ⟨?ack, ?ask, ?offer, ?join, ?accepted, ?probe⟩
  case ack =>
    intro a hr hb ha
    refine completes_of_act rfl ?_
    rw [Dev.settle_line, logFlush_line, rxAck_of_awaited hr hb ha]
  case ask =>
    intro q hr hc hq hf
    refine completes_of_act rfl ?_
    rw [Dev.settle_line, logFlush_line, rxMapAsk_of_received hr]
    exact offerMap_of_fits hc hq hf
  case offer =>
    intro hr hb ht hc
    refine completes_of_act rfl ?_
    rw [Dev.settle_line, logFlush_line, rxMapOffer_of_map hr hb ht hc]
  case join =>
    intro hr hb h0 hj hsr hu hlen
    have hline : OnlyLine s.dev d1 := by simpa [hr] using onlyLine_receive 6 e s.dev
    have hj1 : d1.junction = true := by
      obtain ⟨l, rfl⟩ := hline
      exact hj
    refine completes_of_act rfl ?_
    rw [Dev.settle_line, logFlush_line, rxJoinReq_of_member hr hb h0 hj hsr hu]
    refine ⟨?members, _, sendRouted_robust (n := m.osrc) (sr := none) ?hop ?fits, rfl, rfl, rfl, rfl⟩
    case members =>
      rw [sendRouted_members]
      exact congrArg _ (filter_bne _ _ _)
    case hop =>
      have hjunction : (d1.onLine fun l => { l with members := membersWith s.dev l m }).nextEseq.1.junction = true := hj1
      rw [hjunction]
      simp [LineState.nextHop, joinAccepted, QFrame.base, Dev.nextEseq, membersWith]
    case fits =>
      have hd := (hline.trans (onlyLine_onLine d1 fun l => { l with members := membersWith s.dev l m })).trans
        (onlyLine_nextEseq _)
      rw [hd.classB, hd.time]
      exact hlen
  case accepted =>
    intro hr hb hu
    refine ⟨fun hs => completes_of_act rfl ?_, fun hs => completes_of_act rfl ?_⟩
    · rw [Dev.settle_line, logFlush_line, rxJoinAcc_of_own hr hb hu (by omega), if_pos hs]
    · rw [Dev.settle_line, logFlush_line, rxJoinAcc_of_own hr hb hu (by omega), if_neg (by omega)]
  case probe =>
    intro hr
    refine ⟨fun hp hd => completes_of_act rfl ?_, fun q hp hq hf => completes_of_act rfl ?_⟩
    · rw [Dev.settle_line, logFlush_line, rxProbe_of_reply hr hp hd]
    · rw [Dev.settle_line, logFlush_line, rxProbe_of_other hr hp hq hf]

end Sys2Proof.Proofs

/-! ## What the Line does in time and by command (R387, R390, R391, R398, R400, R407) -/

namespace Sys2Proof.Laws

open Sys2Proof.Machine Sys2Proof.Safety

/-! ### Frames not acknowledged (R387) -/

section ack
variable {d : Dev} {lseq : Nat} {a : AwaitAck} (ha : d.line.awaits.find? (fun a => a.lseq == lseq) = some a)
  (hd : a.deadline ≤ d.time.now)
include ha hd

/-- The fourth step of the ladder gives the link up; a neighbour that is not the parent is lost with its map and routes alone. -/
theorem ackTimeout_of_exhausted (hs : 4 ≤ a.frame.step) (hp : d.line.parent ≠ some a.frame.ldst) :
    d.ackTimeout lseq = { d with line := { d.line with
      awaits := d.line.awaits.filter (fun b => b.lseq ≠ lseq), ackFail := satInc d.line.ackFail
      neigh := d.line.neigh.map (fun n => if n.addr = a.frame.ldst then { n with mapTo := none } else n)
      routes := d.line.routes.filter (fun r => r.next ≠ a.frame.ldst) } } := by
  simp only [Dev.ackTimeout, ha, Nat.not_lt.mpr hd, hs, if_true, if_false, Dev.dropNeighbour, Dev.onLine,
    LineState.onNeigh, if_neg hp, filter_bne, beq_iff_eq]

/-- A frame goes one step down the ladder and waits again. -/
theorem ackTimeout_of_ladder (hs : a.frame.step < 4)
    (hf : Fits d { a.frame with step := a.frame.step + 1, slot := none }) :
    d.ackTimeout lseq = { d with line := { d.line with
      awaits := d.line.awaits.filter (fun b => b.lseq ≠ lseq)
      queue := queued d { a.frame with step := a.frame.step + 1, slot := none } } } := by
  have hfits : Fits (d.onLine fun l => { l with awaits := l.awaits.filter (fun b => b.lseq ≠ lseq) })
      { a.frame with step := a.frame.step + 1, slot := none } := hf
  simp only [Dev.ackTimeout, ha, Nat.not_lt.mpr hd, Nat.not_le.mpr hs, if_false, filter_bne, enqueue_of_fits hfits]
  rfl

end ack

/-! ### Tone maps, joining and probes (R390, R391, R398, R400) -/

theorem mapRefresh_of_aged {d : Dev} {n : Nat} {x : Neighbour} (hx : d.line.neighbour n = some x) (hm : x.mapTo.isSome = true)
    (ha : x.mapAt + d.line.refreshUs ≤ d.si) (hf : Fits d (toNeighbour d 4 1 .rob4 n [])) :
    d.mapRefresh n = { d with line := { d.line with
      eseq := d.line.eseq + 1, queue := queued d (toNeighbour d 4 1 .rob4 n []) } } := by
  rw [← originated_of_fits rfl hf]
  simp only [Dev.mapRefresh, hx, hm, ha, decide_true, Bool.and_self, if_true]
  rfl

theorem probeGo_of_fits {d : Dev} {n : Nat} (hf : Fits d (toNeighbour d 11 1 .tone n [])) :
    d.probeGo n = { d with line := { d.line with
      eseq := d.line.eseq + 1, queue := queued d (toNeighbour d 11 1 .tone n []), probe := 1, probeDst := n
      probeAt := d.ms } } := by
  have hsent : d.sendProbe n 0 = d.nextEseq.1.enqueue (toNeighbour d 11 1 .tone n []) := rfl
  rw [Dev.probeGo, hsent, originated_of_fits rfl hf]
  rfl

theorem probeTimeout_of_due {d : Dev} (hp : d.line.probe = 1) (ha : d.line.probeAt + 16 ≤ d.ms) :
    d.probeTimeout = { d with line := { d.line with probe := 3 } } := by
  simp [Dev.probeTimeout, hp, ha, Dev.onLine]

theorem jclr_of_junction {d : Dev} (addr : Nat) (hj : d.junction = true) :
    d.jclr addr = { d with line := { d.line with members := d.line.members.filter (fun m => m.addr ≠ addr) } } := by
  simp only [Dev.jclr, hj, if_true, Dev.onLine, filter_bne]

/-- The way of a member to the junction is its parent (R402). -/
theorem nextHop_toJunction (l : LineState) : l.nextHop false 0 none = l.parent.map (fun a => (a, none)) := by
  simp [LineState.nextHop]

/-- A member's JOIN_REQ, before it has a next hop. -/
def joinRequest (d : Dev) : QFrame :=
  { QFrame.base 6 2 .normal (leBytes 8 Config.uid.toNat ++ leBytes 1 d.sys.role.toNat ++ leBytes 1 d.line.hop ++
      leBytes 1 (b2n d.line.params.relay) ++ [0]) with osrc := d.addr, fdst := 0, eseq := (d.line.eseq + 1).toNat }

theorem joinReq_queue (d : Dev) : d.joinReq.line.queue = (d.nextEseq.1.sendRouted (joinRequest d) true).line.queue := rfl

/-- The JOIN_REQ of a member with a parent is queued towards it (R398). -/
theorem joinReq_queued {d : Dev} {p : Nat} (hj : d.junction = false) (hp : d.line.parent = some p)
    (hf : frameNs .rob4 map0.codes d.classB 36 d.time.msLen ≤ 1000000000) :
    ∃ q ∈ d.joinReq.line.queue, q.ftype = 6 ∧ q.fdst = 0 ∧ q.ldst = p ∧ q.body.take 8 = leBytes 8 Config.uid.toNat := by
  have hhop : d.nextEseq.1.line.nextHop d.nextEseq.1.junction 0 none = some (p, none) := by
    rw [show d.nextEseq.1.junction = false from hj, nextHop_toJunction]
    exact congrArg _ hp
  rw [joinReq_queue]
  refine ⟨robustHop d.nextEseq.1 (joinRequest d) p none, sendRouted_robust hhop ?fits, rfl, rfl, rfl, ?body⟩
  case fits =>
    rw [(onlyLine_nextEseq d).classB, (onlyLine_nextEseq d).time]
    simpa [robustHop, joinRequest, QFrame.base, QFrame.len] using hf
  case body => simp [robustHop, joinRequest, QFrame.base]

theorem joinRetry_of_due {d : Dev} (hj : d.junction = false) (hm : d.line.joined = false) (hs : d.lineSilent = false)
    (hd : d.line.joinNext ≤ d.ms) (h0 : d.line.joinNext ≠ 0) : d.joinRetry = d.joinReq := by
  simp [Dev.joinRetry, hj, hm, hs, Nat.not_lt.mpr hd, h0]

/-! ### A producer that is silent (R407) -/

/-- STALE is set on the producer's elements and kept on every other. -/
theorem mem_staleGroup (c : CycleState) (g k : Nat) (es : List Nat) :
    k ∈ (c.staleGroup g es).stale ↔ k ∈ c.stale ∨ ∃ i ∈ es, k = elemKey (0x100 + g) i := by
  have hkeys : k ∈ es.map (elemKey (0x100 + g)) ↔ ∃ i ∈ es, k = elemKey (0x100 + g) i := by
    simp only [List.mem_map, eq_comm]
  simp only [CycleState.staleGroup, List.mem_append, List.mem_filter, ← hkeys, Bool.not_eq_true', List.contains_eq_mem,
    decide_eq_false_iff_not]
  tauto

theorem courierStale_of_silent {d : Dev} {g p : Nat} {x : GroupDecl} (hx : d.image.group g = some x)
    (hc : x.convoy = false) (hp : p ≠ d.addr)
    (hd : (pairFind d.line.lastFrom (g, p)).getD 0 + x.staleN * 2 ^ x.e ≤ d.ms) :
    d.courierStale g p = { d with cycle := d.cycle.staleGroup g (x.elemsOf p) } := by
  simp [Dev.courierStale, hx, hc, hp, hd]

end Sys2Proof.Laws

namespace Sys2Proof.Proofs

open Sys2Proof.Machine Sys2Proof.Safety Sys2Proof.Laws

/-- Settles O48. Each row changes the Line, or the STALE marks, alone. That a MAP_ASK and a PROBE have an empty body is log 73, and
that these effects come by their rows is log 66. -/
theorem lineTimesOut : Obligations.LineTimesOut := by
  unfold Obligations.LineTimesOut
  intro s hl d l
  refine ⟨fun lseq a ha hd => ⟨?exhausted, ?ladder⟩, ?refresh, ?retry, ?go, ?timeout, ?jclr, ?stale⟩
  case exhausted => exact fun hs hp => becomes_of_quiet rfl (ackTimeout_of_exhausted ha hd hs hp) hl rfl
  case ladder => exact fun hs hf => becomes_of_quiet rfl (ackTimeout_of_ladder ha hd hs hf) hl rfl
  case refresh => exact fun n x hx hm ha hf => becomes_of_quiet rfl (mapRefresh_of_aged hx hm ha hf) hl rfl
  case retry =>
    intro hj hm hs hd h0
    refine completes_of_act rfl ?_
    rw [Dev.settle_line, logFlush_line, joinRetry_of_due hj hm hs hd h0]
    exact ⟨rfl, fun p hp hf => joinReq_queued hj hp hf⟩
  case go => exact fun dst hf => becomes_of_quiet rfl (probeGo_of_fits hf) hl rfl
  case timeout => exact fun hp ha => becomes_of_quiet rfl (probeTimeout_of_due hp ha) hl rfl
  case jclr => exact fun a hj => becomes_of_quiet rfl (jclr_of_junction a.toNat hj) hl rfl
  case stale =>
    intro g p x hx hc hp hd
    refine completes_of_act rfl ?_
    rw [Dev.settle_cycle, logFlush_cycle, courierStale_of_silent hx hc hp hd]
    exact ⟨rfl, fun k => mem_staleGroup d.cycle g.toNat k _⟩

end Sys2Proof.Proofs

/-! ## Sessions (R426 to R428) -/

namespace Sys2Proof.Machine

/-- The seat and the time base, which the reads of the larder leave as they are (R241). -/
def Dev.seatAndTime (d : Dev) : SeatState × TimeState := (d.seat, d.time)

end Sys2Proof.Machine

namespace Sys2Proof.Laws

open Sys2Proof.Machine Sys2Proof.Safety

/-! ### What the larder's reads leave (R241 to R244) -/

section seatAndTime

@[simp] theorem seatAndTime_ite (c : Prop) [Decidable c] (a b : Dev) :
    (if c then a else b).seatAndTime = if c then a.seatAndTime else b.seatAndTime := apply_ite Dev.seatAndTime c a b

variable (d : Dev)

@[simp] theorem onStore_seatAndTime (f : StoreState → StoreState) : (d.onStore f).seatAndTime = d.seatAndTime := rfl

@[simp] theorem event_seatAndTime (code subject detail tag aux : Nat) :
    (d.event code subject detail tag aux).seatAndTime = d.seatAndTime := rfl

@[simp] theorem onRegion_seatAndTime (g : Nat) (f : RegionStat → RegionStat) :
    (d.onRegion g f).seatAndTime = d.seatAndTime := by
  obtain ⟨rs, h⟩ := onRegion_regions d g f
  rw [h]
  rfl

@[simp] theorem cellWrite_seatAndTime (g : Nat) (b : List Byte) : (d.cellWrite g b).seatAndTime = d.seatAndTime := by
  rw [cellWrite_keeps]
  rfl

@[simp] theorem retireGroup_seatAndTime (g cause : Nat) : (d.retireGroup g cause).seatAndTime = d.seatAndTime := by
  simp [Dev.retireGroup]

@[simp] theorem uncorrPot_seatAndTime (kind p aux : Nat) : (d.uncorrPot kind p aux).seatAndTime = d.seatAndTime := by
  unfold Dev.uncorrPot
  split <;> rfl

@[simp] theorem uncorrShared_seatAndTime (kind aux : Nat) : (d.uncorrShared kind aux).seatAndTime = d.seatAndTime := rfl

theorem larderFindBy_seatAndTime (g : Nat) (e : EccFind) (mate : Bool) :
    (d.larderFindBy g e mate).seatAndTime = d.seatAndTime := by
  fun_cases Dev.larderFindBy d g e mate <;> simp +zetaDelta [Dev.remapFind, Dev.loseGroup]

theorem larderReads_seatAndTime (finds : List (Nat × EccFind)) : (d.larderReads finds).seatAndTime = d.seatAndTime := by
  unfold Dev.larderReads
  exact List.foldlRecOn (motive := fun x => x.seatAndTime = d.seatAndTime) finds _ rfl
    fun x hx f _ => (larderFindBy_seatAndTime x _ _ _).trans hx

end seatAndTime

/-- Reads that show nothing change nothing. -/
theorem larderReads_clean (d : Dev) {finds : List (Nat × EccFind)} (h : ∀ f ∈ finds, f.2 = .clean) :
    d.larderReads finds = d := by
  unfold Dev.larderReads
  refine List.foldlRecOn (motive := fun x => x = d) finds _ rfl fun x hx f hf => ?_
  rw [hx, h f hf]
  rfl

/-! ### The key as it is read (R241, R426) -/

section key

variable (d : Dev) (env : SeatEnv)

theorem readKey_seat : (d.readKey env).seat = d.seat := congrArg Prod.fst (larderReads_seatAndTime d _)

theorem readKey_ms : (d.readKey env).ms = d.ms := by
  have ht : (d.readKey env).time = d.time := congrArg Prod.snd (larderReads_seatAndTime d _)
  rw [Dev.ms, ht, Dev.ms]

theorem readKey_clean {env : SeatEnv} (h : ∀ f ∈ env.finds, f = .clean) : d.readKey env = d := by
  refine larderReads_clean d fun f hf => ?_
  obtain ⟨i, -, rfl⟩ := List.mem_map.mp hf
  rw [List.getD_eq_getElem?_getD]
  cases hx : env.finds[i]? with
  | none => rfl
  | some x => exact h x (List.mem_of_getElem? hx)

theorem readKey_lockedOut : (d.readKey env).lockedOut = d.lockedOut := by
  simp [Dev.lockedOut, readKey_seat, readKey_ms]

theorem readKey_onSeat_seat (f : SeatState → SeatState) : ((d.readKey env).onSeat f).seat = (d.onSeat f).seat :=
  congrArg f (readKey_seat d env)

end key

/-! ### CHALLENGE and RESPOND (R426, R427) -/

/-- CHALLENGE is locked out: four RESPONDs in a row have failed, and 4,096 milestones have not passed since (R427). -/
abbrev Locked (d : Dev) : Prop := 4 ≤ d.seat.failRun ∧ d.ms < d.seat.failAt + 4096

theorem lockedOut_iff (d : Dev) : d.lockedOut = true ↔ Locked d := by
  simp [Dev.lockedOut, Locked]

/-- The run of failures that the next one adds to (DEDUCED, log 44). -/
def failRunNow (d : Dev) : Nat := if 4 ≤ d.seat.failRun ∧ ¬ Locked d then 0 else d.seat.failRun

section session

variable {d : Dev} {env : SeatEnv} {r : SeatReq}

theorem doChallenge_granted (hk : ∃ x ∈ keyAsRead d env, x ≠ 0) (hl : ¬ Locked d) :
    d.doChallenge env = (.ok, leBytes 32 env.nonce.toNat, (d.readKey env).onSeat fun s =>
      { s with nonce := some (leBytes 32 env.nonce.toNat, d.ms) }) := by
  have hkey : (d.readKey env).hostKey.all (· == 0) = false := by
    obtain ⟨x, hx, h0⟩ := hk
    exact List.all_eq_false.mpr ⟨x, hx, by simpa using h0⟩
  have hlock : (d.readKey env).lockedOut = false := by
    rw [readKey_lockedOut, ← Bool.not_eq_true, lockedOut_iff]
    exact hl
  simp only [Dev.doChallenge, hkey, hlock, Bool.or_self, Bool.false_eq_true, if_false, readKey_ms]

theorem doChallenge_denied (h : (∀ x ∈ keyAsRead d env, x = 0) ∨ Locked d) :
    d.doChallenge env = (.denied, [], d.readKey env) := by
  have hno : ((d.readKey env).hostKey.all (· == 0) || (d.readKey env).lockedOut) = true := by
    rcases h with h | h
    · have hkey : (d.readKey env).hostKey.all (· == 0) = true := List.all_eq_true.mpr fun x hx => by simpa using h x hx
      rw [hkey, Bool.true_or]
    · rw [readKey_lockedOut, (lockedOut_iff d).mpr h, Bool.or_true]
  simp only [Dev.doChallenge, hno, if_true]

/-- A RESPOND within 256 milestones of its nonce that carries the MAC of the local path. -/
def RightMac (d : Dev) (env : SeatEnv) (r : SeatReq) (nonce : Option (List Byte × Nat)) : Prop :=
  ∃ n at', nonce = some (n, at') ∧ d.ms < at' + 256 ∧
    r.payload = hmacSha256 (keyAsRead d env) ([0x48, 0x46, 0x4E, 0x53] ++ leBytes 8 Config.uid.toNat ++ n ++ [0])

theorem doRespond_right {nonce : Option (List Byte × Nat)} (h : RightMac d env r nonce) :
    d.doRespond .spi r env nonce = (.ok, [], (d.readKey env).onSeat fun s => { s with priv := true, failRun := 0 }) := by
  obtain ⟨n, at', rfl, hms, hmac⟩ := h
  have hpay : (r.payload == (d.readKey env).sessionMac .spi n) = true := beq_iff_eq.mpr hmac
  simp only [Dev.doRespond, readKey_ms, hms, hpay, decide_true, Bool.and_self, if_true]

theorem doRespond_wrong {nonce : Option (List Byte × Nat)} (h : ¬ RightMac d env r nonce) :
    d.doRespond .spi r env nonce = (.denied, [], (d.readKey env).onSeat fun s => { s with
      authFail := satInc s.authFail, failRun := min 4 (failRunNow d + 1)
      failAt := if failRunNow d = 3 then d.ms else s.failAt }) := by
  have hrun : (if (decide (4 ≤ d.seat.failRun) && !d.lockedOut) = true then 0 else d.seat.failRun) = failRunNow d := by
    unfold failRunNow
    refine if_congr ?_ rfl rfl
    rw [← lockedOut_iff]
    simp
  unfold Dev.doRespond
  extract_lets d' good run
  have hgood : good = false := by
    rw [← Bool.not_eq_true]
    intro hg
    dsimp only [good] at hg
    split at hg
    next n at' =>
      rw [Bool.and_eq_true, decide_eq_true_eq, beq_iff_eq, readKey_ms] at hg
      exact h ⟨n, at', rfl, hg.1, hg.2⟩
    next => exact Bool.false_ne_true hg
  have hnow : run = failRunNow d := by
    rw [← hrun]
    simp only [run, d', readKey_seat, readKey_lockedOut]
  rw [if_neg (by rw [hgood]; exact Bool.false_ne_true), hnow, readKey_ms]

end session

/-- The answer of a request that reads larder groups, from what performing it leaves. -/
theorem answersWith_of_run {i : Instr} {s : State} {r : SeatReq} {env : SeatEnv} {cmd status : Nat} {st : SeatStatus}
    {p : List Byte} {d e : Dev} {run : Option (List Byte × Nat) → Dev → SeatStatus × List Byte × Dev}
    (hi : exec i s = s.act (Dev.port fun d => Dev.spi (d.sequenced .spi cmd r run))) (hn : NextOfHolder s.dev r)
    (hrun : run s.dev.seat.nonce (heardDev s.dev) = (st, p, e)) (hst : st.code = status) (hseat : e.seat = d.seat)
    (hclean : (∀ f ∈ env.finds, f = .clean) → e = d) (hl : Logged d) (hs : d.sys = s.dev.sys) :
    AnswersWith i env s (answered d cmd r status p) := by
  have hf : Dev.port (fun d => Dev.spi (d.sequenced .spi cmd r run)) s.dev = answered e cmd r status p := by
    rw [Dev.port, if_pos (pd_of_heeded hn.1), sequenced_nextOfHolder hn cmd hrun, hst]
    rfl
  refine completes_of_act hi ?_
  rw [hf]
  constructor
  · have hans : (answered e cmd r status p).seat = (answered d cmd r status p).seat := by
      simp only [answered, hseat]
    rw [← hans]
    rfl
  · intro hc
    rw [hclean hc, logFlush_logged (d := answered d cmd r status p) hl, settle_same (d := answered d cmd r status p) hs]

end Sys2Proof.Laws

namespace Sys2Proof.Proofs

open Sys2Proof.Machine Sys2Proof.Safety Sys2Proof.Laws

/-- Settles O52. The reads of the key leave the seat and the time, by which alone the session is judged. That every request of the
expected SEQ, a refused CHALLENGE too, ends the nonce is log 137. -/
theorem sessionsOpened : Obligations.SessionsOpened := by
  unfold Obligations.SessionsOpened
  intro r env s hl hn d key locked run right
  have hchallenge {st p e d'} (status : Nat) (h : d.doChallenge env = (st, p, e)) (hst : st.code = status)
      (hseat : e.seat = d'.seat) (hclean : (∀ f ∈ env.finds, f = .clean) → e = d') (hl : Logged d')
      (hs : d'.sys = s.dev.sys) : AnswersWith (.challenge r env) env s (answered d' 0x20 r status p) :=
    answersWith_of_run (run := fun _ x => x.doChallenge env) rfl hn h hst hseat hclean hl hs
  have hrespond {st p e d'} (status : Nat) (h : d.doRespond .spi r env s.dev.seat.nonce = (st, p, e)) (hst : st.code = status)
      (hseat : e.seat = d'.seat) (hclean : (∀ f ∈ env.finds, f = .clean) → e = d') (hl : Logged d')
      (hs : d'.sys = s.dev.sys) : AnswersWith (.respond r env) env s (answered d' 0x21 r status p) :=
    answersWith_of_run (run := fun n x => x.doRespond .spi r env n) rfl hn h hst hseat hclean hl hs
  have hclean (f : SeatState → SeatState) : (∀ f ∈ env.finds, f = .clean) → (d.readKey env).onSeat f = d.onSeat f :=
    fun hc => by rw [readKey_clean d hc]
  refine ⟨fun hk hlock => ?granted, fun h => ?denied, fun h => ?right, fun h => ?wrong, ?close⟩
  case granted =>
    exact hchallenge 0 (doChallenge_granted hk hlock) rfl (readKey_onSeat_seat d env _) (hclean _) hl rfl
  case denied => exact hchallenge 2 (doChallenge_denied h) rfl (readKey_seat d env) (readKey_clean d) hl rfl
  case right => exact hrespond 0 (doRespond_right h) rfl (readKey_onSeat_seat d env _) (hclean _) hl rfl
  case wrong =>
    have hrun : run = failRunNow d := if_congr Iff.rfl rfl rfl
    rw [hrun]
    exact hrespond 2 (doRespond_wrong h) rfl (readKey_onSeat_seat d env _) (hclean _) hl rfl
  case close => exact becomes_answered (run := fun _ x => x.doClose) rfl hn rfl rfl hl rfl

end Sys2Proof.Proofs

/-! ## The tunnel channels of the junction (R431, R432, Table 14.6) -/

namespace Sys2Proof.Machine

/-- The tunnel channels, which no request of a host changes but those of the tunnel port. -/
def Dev.channels (d : Dev) : Vector (Option Tunnel) 8 := d.seat.tuns

end Sys2Proof.Machine

namespace Sys2Proof.Laws

open Sys2Proof.Machine Sys2Proof.Safety

/-! ### Requests leave the channels as they are (R421, R431)

A lemma `f_channels` says of each function that a request runs that it leaves the channels, so that `simp` carries
`Dev.channels` through them. -/

theorem channels_of_seat {d e : Dev} (h : e.seat = d.seat) : e.channels = d.channels := congrArg SeatState.tuns h

@[simp] theorem channels_ite (c : Prop) [Decidable c] (a b : Dev) :
    (if c then a else b).channels = if c then a.channels else b.channels := apply_ite Dev.channels c a b

section updates

variable (d : Dev)

@[simp] theorem onTime_channels (f : TimeState → TimeState) : (d.onTime f).channels = d.channels := rfl
@[simp] theorem onSys_channels (f : SysState → SysState) : (d.onSys f).channels = d.channels := rfl
@[simp] theorem onCycle_channels (f : CycleState → CycleState) : (d.onCycle f).channels = d.channels := rfl
@[simp] theorem onStore_channels (f : StoreState → StoreState) : (d.onStore f).channels = d.channels := rfl
@[simp] theorem onPot_channels (p : Nat) (f : PotState → PotState) : (d.onPot p f).channels = d.channels := rfl
@[simp] theorem bootRead_channels : d.bootRead.channels = d.channels := rfl
@[simp] theorem orderReset_channels (source : Nat) (kind : ResetKind) : (d.orderReset source kind).channels = d.channels := rfl
@[simp] theorem accepted_channels (ws : List HostWrite) : (d.accepted ws).channels = d.channels := rfl
@[simp] theorem doRelease_channels : d.doRelease.2.2.channels = d.channels := rfl
@[simp] theorem doClose_channels : d.doClose.2.2.channels = d.channels := rfl

@[simp] theorem latchReads_channels (who : Fin 17) (frac : BitVec 16) (as : List Nat) :
    (d.latchReads who frac as).channels = d.channels := by
  simp [Dev.latchReads, Dev.msLoRead, Dev.siLoRead]

@[simp] theorem larderFind_channels (g : Nat) (e : EccFind) : (d.larderFind g e).channels = d.channels :=
  channels_of_seat (congrArg Prod.fst (larderFindBy_seatAndTime d g e false))

@[simp] theorem markLostRead_channels (g : Nat) : (d.markLostRead g).channels = d.channels := by
  unfold Dev.markLostRead
  split
  · exact channels_of_seat (congrArg Prod.fst (onRegion_seatAndTime d g _))
  · rfl

@[simp] theorem readKey_channels (e : SeatEnv) : (d.readKey e).channels = d.channels := channels_of_seat (readKey_seat d e)

@[simp] theorem potCommand_channels (p : Nat) (a : PotAction) (host : Bool) :
    (d.potCommand p a host).channels = d.channels := by
  simp [Dev.potCommand]

@[simp] theorem potCmdWrite_channels (v : Word) : (d.potCmdWrite v true).channels = d.channels := by
  fun_cases Dev.potCmdWrite v true d <;> simp +zetaDelta

/-! ### What each command performs -/

@[simp] theorem doTake_channels (who : Holder) (r : SeatReq) : (d.doTake who r).2.channels = d.channels := by
  unfold Dev.doTake
  split <;> rfl

@[simp] theorem doSeatReset_channels (r : SeatReq) : (d.doSeatReset r).2.channels = d.channels := by
  fun_cases Dev.doSeatReset r d <;> rfl

@[simp] theorem readLarder_channels (g n : Nat) (fs : List EccFind) : (Dev.readLarder g n fs d).2.channels = d.channels := by
  induction n generalizing g fs d with
  | zero => rfl
  | succ n ih =>
    rw [Dev.readLarder]
    dsimp only
    rw [ih]
    split <;> simp

@[simp] theorem doRead_channels (who : Holder) (r : SeatReq) (e : SeatEnv) : (d.doRead who r e).2.2.channels = d.channels := by
  fun_cases Dev.doRead who r e d
  case case3 as step out =>
    exact List.foldlRecOn (b := ([], d)) (motive := fun x => x.2.channels = d.channels) as step rfl
      fun x hx w _ => Eq.trans (by simp +zetaDelta) hx
  all_goals simp +zetaDelta

@[simp] theorem writeRegs_channels (a : Nat) (ws : List Nat) (words : Nat) :
    (d.writeRegs a ws words).2.channels = d.channels := by
  fun_cases Dev.writeRegs a ws words d
  case case4 =>
    exact List.foldlRecOn (b := d) (motive := fun x => x.channels = d.channels) _ _ rfl
      fun x hx w _ => (potCmdWrite_channels x _).trans hx
  all_goals rfl

@[simp] theorem doWrite_channels (who : Holder) (r : SeatReq) (e : SeatEnv) :
    (d.doWrite who r e).2.2.channels = d.channels := by
  fun_cases Dev.doWrite who r e d <;> simp +zetaDelta

@[simp] theorem doChallenge_channels (e : SeatEnv) : (d.doChallenge e).2.2.channels = d.channels := by
  fun_cases Dev.doChallenge e d
  · exact readKey_channels d e
  · exact readKey_channels d e

@[simp] theorem doRespond_channels (who : Holder) (r : SeatReq) (e : SeatEnv) (nonce : Option (List Byte × Nat)) :
    (d.doRespond who r e nonce).2.2.channels = d.channels := by
  fun_cases Dev.doRespond who r e nonce d
  · exact readKey_channels d e
  · exact readKey_channels d e

end updates

/-! ### What judges a request -/

theorem gate_channels {r : SeatReq} {ident : Bool} {d : Dev} {x : Response × Dev} (h : d.gate r ident = some x) :
    x.2.channels = d.channels := by
  unfold Dev.gate at h
  split at h
  · cases h; rfl
  split at h
  · cases h; rfl
  · cases h

@[simp] theorem hear_channels (who : Holder) (d : Dev) : (d.hear who).channels = d.channels := by
  unfold Dev.hear
  split <;> rfl

section judged

variable {run : Option (List Byte × Nat) → Dev → SeatStatus × List Byte × Dev}
  (hrun : ∀ n d, (run n d).2.2.channels = d.channels)
include hrun

theorem bySeq_channels (cmd : Nat) (r : SeatReq) (d : Dev) : (d.bySeq cmd r run).2.channels = d.channels := by
  unfold Dev.bySeq
  split
  · exact hrun _ _
  · extract_lets again
    cases again <;> rfl

theorem sequenced_channels (who : Holder) (cmd : Nat) (r : SeatReq) (d : Dev) :
    (d.sequenced who cmd r run).2.channels = d.channels := by
  unfold Dev.sequenced
  extract_lets d1
  have h1 : d1.channels = d.channels := hear_channels who d
  split
  next x hx => exact (gate_channels hx).trans h1
  next =>
    split
    · exact h1
    split
    · exact h1
    · exact (bySeq_channels hrun cmd r d1).trans h1

end judged

theorem seatIdentify_channels (who : Holder) (r : SeatReq) (d : Dev) : (d.seatIdentify who r).2.channels = d.channels := by
  unfold Dev.seatIdentify
  extract_lets d1
  have h1 : d1.channels = d.channels := hear_channels who d
  split
  next x hx => exact (gate_channels hx).trans h1
  next => exact h1

theorem seatTake_channels (who : Holder) (r : SeatReq) (d : Dev) : (d.seatTake who r).2.channels = d.channels := by
  unfold Dev.seatTake
  extract_lets d1
  have h1 : d1.channels = d.channels := hear_channels who d
  split
  next x hx => exact (gate_channels hx).trans h1
  next =>
    split
    · exact h1
    split
    · exact (doTake_channels d1 who r).trans h1
    · exact (bySeq_channels (fun _ _ => rfl) 0x02 r d1).trans h1

theorem seatReset_channels (who : Holder) (r : SeatReq) (d : Dev) : (d.seatReset who r).2.channels = d.channels := by
  unfold Dev.seatReset
  extract_lets d1
  have h1 : d1.channels = d.channels := hear_channels who d
  split
  next x hx => exact (gate_channels hx).trans h1
  next => split <;> simp [h1]

/-- No request that reaches the seat changes a tunnel channel. -/
theorem seatAny_channels (who : Holder) (cmd : Nat) (r : SeatReq) (e : SeatEnv) (d : Dev) :
    (d.seatAny who cmd r e).2.channels = d.channels := by
  unfold Dev.seatAny
  split
  · exact seatIdentify_channels who r d
  · exact seatTake_channels who r d
  · exact sequenced_channels (fun _ x => doRelease_channels x) who 0x03 r d
  · exact sequenced_channels (fun _ x => doRead_channels x who r e) who 0x10 r d
  · exact sequenced_channels (fun _ x => doWrite_channels x who r e) who 0x11 r d
  · exact sequenced_channels (fun _ x => doChallenge_channels x e) who 0x20 r d
  · exact sequenced_channels (fun n x => doRespond_channels x who r e n) who 0x21 r d
  · exact sequenced_channels (fun _ x => doClose_channels x) who 0x22 r d
  · exact seatReset_channels who r d
  · split
    · split
      next x hx => exact (gate_channels hx).trans (hear_channels who d)
      next => exact hear_channels who d
    · exact sequenced_channels (fun _ _ => rfl) who cmd r d

end Sys2Proof.Laws

namespace Sys2Proof.Laws

open Sys2Proof.Machine Sys2Proof.Safety

/-! ### What the Line queues does not depend on the seat -/

/-- A frame that would last too long is counted and not queued (R378). -/
theorem enqueue_of_tooLong {d : Dev} {q : QFrame} (h : ¬ Fits d q) :
    d.enqueue q = { d with line := { d.line with tooLong := satInc d.line.tooLong } } := by
  unfold Dev.enqueue
  exact if_pos (Nat.not_le.mp h)

section seatless

variable (d : Dev) (f : SeatState → SeatState)

theorem enqueue_onSeat (q : QFrame) : (d.onSeat f).enqueue q = (d.enqueue q).onSeat f := by
  by_cases h : Fits d q
  · have h' : Fits (d.onSeat f) q := h
    rw [enqueue_of_fits h, enqueue_of_fits h']
    rfl
  · have h' : ¬ Fits (d.onSeat f) q := h
    rw [enqueue_of_tooLong h, enqueue_of_tooLong h']
    rfl

theorem mapFor_onSeat (n : Nat) : (d.onSeat f).mapFor n = (d.mapFor n).onSeat f := by
  have hask : (d.onSeat f).askMap n = (d.askMap n).onSeat f := enqueue_onSeat d.nextEseq.1 f (toNeighbour d 4 1 .rob4 n [])
  unfold Dev.mapFor
  extract_lets has' has
  split
  next h => exact (congrArg (fun x : Dev => x.onSeat f) (if_pos h)).symm
  next h => exact hask.trans (congrArg (fun x : Dev => x.onSeat f) (if_neg h)).symm

theorem sendRouted_onSeat (q : QFrame) (robust : Bool) : (d.onSeat f).sendRouted q robust = (d.sendRouted q robust).onSeat f := by
  have hhop : (d.onSeat f).line.nextHop (d.onSeat f).junction q.fdst q.sr = d.line.nextHop d.junction q.fdst q.sr := rfl
  unfold Dev.sendRouted
  rw [hhop]
  cases d.line.nextHop d.junction q.fdst q.sr with
  | none => rfl
  | some x =>
    dsimp only
    rw [mapFor_onSeat, enqueue_onSeat]
    rfl

theorem sendTunnel_onSeat (dst ch kind : Nat) (inner : List Byte) :
    (d.onSeat f).sendTunnel dst ch kind inner = (d.sendTunnel dst ch kind inner).onSeat f :=
  sendRouted_onSeat d.nextEseq.1 f _ false

end seatless

/-! ### Channels (R431) -/

section tunnels

variable {d : Dev} {r : SeatReq} {ch : Fin 8} {t : Tunnel}

theorem tun_fin (d : Dev) (ch : Fin 8) : d.tun ch.val = d.seat.tuns[ch] := vgetD_fin d.seat.tuns ch none

theorem setTun_fin (d : Dev) (ch : Fin 8) (t : Option Tunnel) :
    d.setTun ch.val t = { d with seat := { d.seat with tuns := d.seat.tuns.set ch t } } := by
  simp [Dev.setTun, Dev.onSeat, vupdN]

theorem tunOpen_free {target : Nat} (hn : d.seat.tuns[ch] = none)
    (hfree : ∀ (i : Fin 8) x, d.seat.tuns[i] = some x → x.target ≠ target) :
    d.tunOpen target ch.val = (.ok, [], d.setTun ch.val (some { target, awaiting := false, rx := none })) := by
  unfold Dev.tunOpen
  extract_lets taken
  have htaken : taken = false := by
    refine List.any_eq_false.mpr fun t ht => ?_
    obtain ⟨i, hi, rfl⟩ := List.getElem_of_mem ht
    rw [Vector.length_toList] at hi
    cases hx : d.seat.tuns.toList[i] with
    | none => exact Bool.false_ne_true
    | some x => simpa using hfree ⟨i, hi⟩ x (by simpa using hx)
  simp only [tun_fin, hn, htaken, Option.isSome_none, Bool.or_self, Bool.false_eq_true, if_false]

theorem tunSend_closed (frame : List Byte) (env : SeatEnv) (hn : d.seat.tuns[ch] = none) :
    d.tunSend frame env ch.val = (.denied, [], d) := by
  simp only [Dev.tunSend, tun_fin, hn]

theorem tunRecv_closed (hn : d.seat.tuns[ch] = none) : d.tunRecv ch.val = (.denied, [], d) := by
  simp only [Dev.tunRecv, tun_fin, hn]

theorem tunClose_closed (hn : d.seat.tuns[ch] = none) : d.tunClose ch.val = (.denied, [], d) := by
  simp [Dev.tunClose, tun_fin, hn]

theorem tunSend_awaiting (frame : List Byte) (env : SeatEnv) (ht : d.seat.tuns[ch] = some t) (ha : t.awaiting = true) :
    d.tunSend frame env ch.val = (.busy, [], d) := by
  simp only [Dev.tunSend, tun_fin, ht, ha, if_true]

theorem tunSend_remote {frame : List Byte} (env : SeatEnv) (ht : d.seat.tuns[ch] = some t) (ha : t.awaiting = false)
    (h0 : t.target ≠ 0) (hlen : frame.length ≤ 137) : d.tunSend frame env ch.val =
      (.ok, [], (d.setTun ch.val (some { t with awaiting := true })).sendTunnel t.target ch.val 1 frame) := by
  simp only [Dev.tunSend, tun_fin, ht, ha, Bool.false_eq_true, if_false, Nat.not_lt.mpr hlen, h0]

/-- A frame for the junction's own seat is judged at once as a remote host's, and its answer arrives. -/
theorem tunSend_own {frame : List Byte} {cmd : Nat} {q : SeatReq} (env : SeatEnv) (ht : d.seat.tuns[ch] = some t)
    (ha : t.awaiting = false) (h0 : t.target = 0) (hlen : frame.length ≤ 137) (hq : parseRequest frame = some (cmd, q)) :
    d.tunSend frame env ch.val = (.ok, [],
      ((d.setTun ch.val (some { t with awaiting := true })).seatAny (.remote ch.val) cmd q env).2.tunArrive ch.val
        ((d.setTun ch.val (some { t with awaiting := true })).seatAny (.remote ch.val) cmd q env).1.bytes) := by
  simp only [Dev.tunSend, tun_fin, ht, ha, Bool.false_eq_true, if_false, Nat.not_lt.mpr hlen, h0, if_true, hq]

/-- The answer that a channel awaits waits in it from its arrival on. -/
theorem tunArrive_awaited (bs : List Byte) (ht : d.seat.tuns[ch] = some t) (ha : t.awaiting = true) :
    d.tunArrive ch.val bs = (d.setTun ch.val (some { t with awaiting := false, rx := some bs })).attnTun := by
  simp only [Dev.tunArrive, tun_fin, ht, ha, if_true]

/-- What the own seat answers waits in the channel, whose request changes no channel itself. -/
theorem own_answer_arrives (cmd : Nat) (q : SeatReq) (env : SeatEnv) {d' : Dev} {out : Response × Dev}
    (hd : d' = d.setTun ch.val (some { t with awaiting := true })) (ho : out = d'.seatAny (.remote ch.val) cmd q env) :
    out.2.tunArrive ch.val out.1.bytes =
      (out.2.setTun ch.val (some { t with awaiting := false, rx := some out.1.bytes })).attnTun := by
  have hkept : out.2.seat.tuns = d'.seat.tuns := by
    rw [ho]
    exact seatAny_channels _ cmd q env d'
  have hwaits : out.2.seat.tuns[ch] = some { t with awaiting := true } := by
    rw [hkept, hd, setTun_fin]
    simp
  exact tunArrive_awaited (t := { t with awaiting := true }) _ hwaits rfl

theorem tunRecv_waiting {b : List Byte} (ht : d.seat.tuns[ch] = some t) (hb : t.rx = some b) :
    d.tunRecv ch.val = (.ok, b, d.setTun ch.val (some { t with rx := none })) := by
  simp only [Dev.tunRecv, tun_fin, ht, hb]

theorem tunClose_remote (ht : d.seat.tuns[ch] = some t) (h0 : t.target ≠ 0) :
    d.tunClose ch.val = (.ok, [], (d.setTun ch.val none).sendTunnel t.target ch.val 3 []) := by
  simp only [Dev.tunClose, Dev.closeTun, tun_fin, ht, Option.isSome_some, if_true, h0, if_false]

/-! ### Tunnel commands (R431, Table 14.6) -/

/-- The payload of an answer: a BUSY carries the progress of start-up. -/
def tunPayload (d : Dev) (st : SeatStatus) (p : List Byte) : List Byte :=
  if st = .busy then [d.sys.progress.setWidth 8] else p

/-- A tunnel command that is heeded is performed on its channel and answered. -/
theorem tunCommand_heeded {run : Nat → Dev → SeatStatus × List Byte × Dev} {st : SeatStatus} {p : List Byte} {e : Dev}
    (h : TunnelCommand d r ch) (hrun : run ch.val d = (st, p, e)) : d.tunCommand r run =
      { e with seat := { e.seat with last := some (answerTo r st.code (tunPayload d st p)) } } := by
  obtain ⟨⟨-, hcrc, hboot⟩, hready, hch⟩ := h
  have hgate : d.gate r false = none := by simp [Dev.gate, hcrc, hboot]
  have hbits : bitsOf r.addr.toNat 19 16 = ch.val := by rw [← hch, bitsOf, Nat.shiftRight_eq_div_pow]
  have hno : (!d.tunReady || decide (8 ≤ ch.val)) = false := by simp [hready]
  simp only [Dev.tunCommand, hgate, hbits, hno, Bool.false_eq_true, if_false, hrun]
  cases st <;> simp [Dev.spi, Dev.onSeat, SeatReq.answer, answerTo, tunPayload, SeatStatus.code]

theorem port_tunnel {f : Dev → Dev} (h : TunnelCommand d r ch) : Dev.port f d = f d := by
  obtain ⟨⟨hpd, -, -⟩, -⟩ := h
  exact if_pos hpd

/-- A tunnel command that raises no event and leaves SYS as it is. -/
theorem becomes_of_tunnel {i : Instr} {s : State} {run : Nat → Dev → SeatStatus × List Byte × Dev} {st : SeatStatus}
    {p : List Byte} {e : Dev} (hi : exec i s = s.act (Dev.port fun d => d.tunCommand r run)) (h : TunnelCommand s.dev r ch)
    (hrun : run ch.val s.dev = (st, p, e)) (hl : Logged e) (hs : e.sys = s.dev.sys) :
    Becomes i s { e with seat := { e.seat with last := some (answerTo r st.code (tunPayload s.dev st p)) } } :=
  becomes_of_quiet hi ((port_tunnel h).trans (tunCommand_heeded h hrun)) hl hs

/-- What a tunnel command completes in beside the attention bits. -/
theorem completes_of_tunnel {i : Instr} {s : State} {run : Nat → Dev → SeatStatus × List Byte × Dev} {st : SeatStatus}
    {p : List Byte} {e : Dev} (hi : exec i s = s.act (Dev.port fun d => d.tunCommand r run)) (h : TunnelCommand s.dev r ch)
    (hrun : run ch.val s.dev = (st, p, e)) :
    Completes i s (fun z => z.line = e.line ∧ z.seat.tuns = e.seat.tuns ∧ z.seat.holder = e.seat.holder ∧
      z.seat.last = some (answerTo r st.code (tunPayload s.dev st p))) := by
  refine completes_of_act hi ?_
  rw [port_tunnel h, tunCommand_heeded h hrun]
  exact ⟨rfl, rfl, rfl, rfl⟩

end tunnels

end Sys2Proof.Laws

namespace Sys2Proof.Proofs

open Sys2Proof.Machine Sys2Proof.Safety Sys2Proof.Laws

/-- Settles O53. Each command is performed on the channel it names; a request through the own seat leaves the channels as they
were until its answer arrives. That a channel which is not open is DENIED is logs 45 and 57. -/
theorem tunnelsUsed : Obligations.TunnelsUsed := by
  unfold Obligations.TunnelsUsed
  intro ch r env s hl htun d
  refine ⟨fun hn => ⟨fun hfree => ?opened, fun c hc => ?closed⟩, fun t ht =>
    ⟨fun ha => ?busy, fun ha h0 hlen => ?sent, fun cmd q ha h0 hlen hq => ?own, fun b hb => ?received, fun h0 => ?close⟩⟩
  case opened =>
    have htarget : bitsOf r.addr.toNat 11 0 = r.addr.toNat % 2 ^ 12 := rfl
    have hopen := tunOpen_free hn hfree
    rw [setTun_fin] at hopen
    rw [← htarget] at hopen ⊢
    exact becomes_of_tunnel rfl htun hopen hl rfl
  case closed =>
    simp only [List.mem_cons, List.not_mem_nil, or_false] at hc
    rcases hc with rfl | rfl | rfl
    · exact becomes_of_tunnel rfl htun (tunSend_closed r.payload env hn) hl rfl
    · exact becomes_of_tunnel rfl htun (tunRecv_closed hn) hl rfl
    · exact becomes_of_tunnel rfl htun (tunClose_closed hn) hl rfl
  case busy => exact becomes_of_tunnel rfl htun (tunSend_awaiting r.payload env ht ha) hl rfl
  case sent =>
    obtain ⟨z, hz, hp, hline, htuns, -, hlast⟩ := completes_of_tunnel (i := .tunSend r env) rfl htun (tunSend_remote env ht ha h0 hlen)
    refine ⟨z, hz, hp, ?_, hlast, ?_⟩
    · rw [htuns, (onlyLine_sendTunnel _ _ _ _ _).seat, setTun_fin]
    · rw [hline, Dev.setTun, sendTunnel_onSeat]
      rfl
  case own =>
    obtain ⟨z, hz, hp, -, htuns, hholder, hlast⟩ := completes_of_tunnel (i := .tunSend r env) rfl htun (tunSend_own env ht ha h0 hlen hq)
    rw [own_answer_arrives cmd q env rfl rfl] at htuns hholder
    rw [setTun_fin d] at htuns hholder
    refine ⟨z, hz, hp, hlast, _, rfl, ?_, hholder⟩
    rw [htuns, setTun_fin]
    exact Vector.getElem_set_self _
  case received =>
    have hrecv := tunRecv_waiting ht hb
    rw [setTun_fin] at hrecv
    exact becomes_of_tunnel rfl htun hrecv hl rfl
  case close =>
    obtain ⟨z, hz, hp, -, htuns, -, hlast⟩ := completes_of_tunnel (i := .tunClose r) rfl htun (tunClose_remote ht h0)
    refine ⟨z, hz, hp, ?_, hlast⟩
    rw [htuns, (onlyLine_sendTunnel _ _ _ _ _).seat, setTun_fin]

end Sys2Proof.Proofs

/-! ## The link of the building bus (R433, R435, R436, R541, R542; its machine is clause 9's, log 26) -/

namespace Sys2Proof.Laws

open Sys2Proof.Machine Sys2Proof.Safety

/-- A row that changes the bus alone. -/
theorem becomes_of_bus {i : Instr} {s : State} {f : Dev → Dev} {g : BusState → BusState} {b : BusState}
    (hi : exec i s = s.act f) (hl : Logged s.dev) (hf : f s.dev = s.dev.onBus g) (hg : g s.dev.bus = b) :
    Becomes i s { s.dev with bus := b } := by
  subst hg
  exact becomes_of_quiet hi hf hl rfl

section link

variable {b : BusState}

/-! ### The token used and passed on (R435) -/

/-- A node that has sent what it may passes the token on, unless a poll is due or it has no other station to pass it to. -/
theorem doneWithToken_passes (ht : b.tokens < 49) (hs : b.sole = false) (hn : b.next ≠ b.mac) :
    b.doneWithToken = { b.passTo with tokens := b.tokens + 1 } := by
  simp [BusState.doneWithToken, ht, hs, hn]

theorem sendSome_nothing (n : Nat) (hr : b.replies = []) (ho : b.order = []) : b.sendSome n = b.doneWithToken := by
  cases n with
  | zero => rfl
  | succ n => simp only [BusState.sendSome, hr, ho]

theorem sendable_of_data {x : BusSlot} (ht : x.ftype = 6) (hlen : x.len.toNat ≤ 501) (hp : x.peer.toNat ≤ 127) :
    x.sendable = true := by
  simp [BusSlot.sendable, ht, hlen, hp]

/-- One frame that expects no reply is sent from its slot, which is free again. -/
theorem sendSome_one {i : Fin 4} (n : Nat) (hr : b.replies = []) (ho : b.order = [i.val]) (ht : (b.txq[i]).ftype = 6)
    (hlen : (b.txq[i]).len.toNat ≤ 501) (hp : (b.txq[i]).peer.toNat ≤ 127) : b.sendSome (n + 1) =
      (({ b with order := [], txq := b.txq.set i { b.txq[i] with full := false } } : BusState).emit 6 (b.txq[i]).peer.toNat
        (b.txq[i]).octets).doneWithToken := by
  have hslot : vgetD b.txq i.val BusSlot.reset = b.txq[i] := vgetD_fin _ _ _
  have htxq : vupdN b.txq i.val (fun s => { s with full := false }) = b.txq.set i { b.txq[i] with full := false } := by
    simp [vupdN]
  have hsix : (b.txq[i]).ftype.toNat = 6 := congrArg BitVec.toNat ht
  have hfive : ¬ (b.txq[i]).ftype = 5 := by rw [ht]; decide
  rw [BusState.sendSome]
  simp only [hr, ho, hslot, htxq, sendable_of_data ht hlen hp, hfive, hsix, Bool.not_true, Bool.false_eq_true, if_false,
    decide_false, Bool.false_and]
  exact sendSome_nothing n rfl rfl

theorem useToken_nothing (hr : b.replies = []) (ho : b.order = []) : b.useToken = b.doneWithToken :=
  sendSome_nothing _ hr ho

theorem useToken_one {i : Fin 4} (hm : b.maxInfo ≠ 0) (hr : b.replies = []) (ho : b.order = [i.val])
    (ht : (b.txq[i]).ftype = 6) (hlen : (b.txq[i]).len.toNat ≤ 501) (hp : (b.txq[i]).peer.toNat ≤ 127) :
    b.useToken = (({ b with order := [], txq := b.txq.set i { b.txq[i] with full := false } } : BusState).emit 6
      (b.txq[i]).peer.toNat (b.txq[i]).octets).doneWithToken := by
  obtain ⟨n, hn⟩ := Nat.exists_eq_succ_of_ne_zero fun h => hm (BitVec.eq_of_toNat_eq h)
  rw [BusState.useToken, hn]
  exact sendSome_one n hr ho ht hlen hp

/-! ### Frames heard (R433, R435, R436) -/

theorem sawOther_idle (h : b.run = .idle) : b.sawOther = b := by
  simp [BusState.sawOther, h]

/-- What was sent last has no part in whether the link takes part. -/
theorem active_of_quieted (b : BusState) : ({ b with sent := [], outbox := [] } : BusState).active = b.active := rfl

theorem replied_of_waiting {dst : Nat} (hr : b.run = .waitReply) (hd : dst = b.mac.toNat) :
    b.replied dst = b.doneWithToken := by
  simp [BusState.replied, hr, hd]

theorem replied_idle (dst : Nat) (h : b.run = .idle) : b.replied dst = b := by
  simp [BusState.replied, h, sawOther_idle h]

/-! ### Receive slots (R541) -/

theorem freeSlot_lowest {v : Vector BusSlot 4} {i : Fin 4} (hi : (v[i]).full = false)
    (hlow : ∀ j : Fin 4, j < i → (v[j]).full = true) : freeSlot v = some i.val := by
  unfold freeSlot upTo
  rw [List.find?_range_eq_some]
  refine ⟨?_, List.mem_range.mpr i.isLt, fun j hj => ?_⟩
  · rw [vgetD_fin v i, hi]
    rfl
  · have hfull := hlow ⟨j, hj.trans i.isLt⟩ hj
    rw [vgetD_fin v ⟨j, hj.trans i.isLt⟩, hfull]
    rfl

theorem freeSlot_none {v : Vector BusSlot 4} (hfull : ∀ i : Fin 4, (v[i]).full = true) : freeSlot v = none := by
  unfold freeSlot upTo
  rw [List.find?_eq_none]
  intro j hj
  have hj4 : j < 4 := List.mem_range.mp hj
  rw [vgetD_fin v ⟨j, hj4⟩, hfull]
  exact Bool.false_ne_true

theorem place_lowest {i : Fin 4} (ftype : Nat) (src : BitVec 8) (data : List Byte) (hi : (b.rxq[i]).full = false)
    (hlow : ∀ j : Fin 4, j < i → (b.rxq[j]).full = true) : b.place ftype src.toNat data = { b with
      rxq := b.rxq.set i (receivedSlot b (BitVec.ofNat 8 ftype) src data), rxSeq := b.rxSeq + 1 } := by
  simp [BusState.place, freeSlot_lowest hi hlow, receivedSlot, vupdN]

theorem place_full (ftype src : Nat) (data : List Byte) (hfull : ∀ i : Fin 4, (b.rxq[i]).full = true) :
    b.place ftype src data = { b with drop := satInc b.drop } := by
  simp only [BusState.place, freeSlot_none hfull]

theorem submit_free {i : Fin 4} (hi : (b.txq[i]).full = false) : b.submit i.val = { b with
    txq := b.txq.set i { b.txq[i] with full := true }, order := b.order ++ [i.val] } := by
  have hno : (decide (4 ≤ i.val) || (vgetD b.txq i.val BusSlot.reset).full) = false := by
    rw [vgetD_fin, hi, Bool.or_false]
    exact decide_eq_false (Nat.not_le.mpr i.isLt)
  simp [BusState.submit, hno, vupdN]

end link

/-! ### The rows -/

section rows

variable {d : Dev} {src dst : Nat} (ha : d.bus.active = true)
include ha

theorem busToken_own (hd : dst = d.bus.mac.toNat) :
    d.busToken dst = d.onBus fun b => ({ b.heard with sole := false } : BusState).useToken := by
  simp [Dev.busToken, Dev.onBus, ha, hd]

theorem busToken_other (hd : dst ≠ d.bus.mac.toNat) (hr : d.bus.run ≠ .listen) :
    d.busToken dst = d.onBus fun b => { b.heard with run := .idle } := by
  have hr' : d.bus.heard.run ≠ .listen := hr
  simp [Dev.busToken, Dev.onBus, ha, hd, hr']

theorem busPoll_own (hd : dst = d.bus.mac.toNat) (hr : d.bus.run = .idle) :
    d.busPoll src dst = d.onBus fun b => b.heard.emit 2 src [] := by
  have hr' : d.bus.heard.run = .idle := hr
  simp [Dev.busPoll, Dev.onBus, ha, hd, sawOther_idle hr', BusState.maySend, hr]

theorem busTest_own (data : List Byte) (hd : dst = d.bus.mac.toNat) (hr : d.bus.run = .idle) :
    d.busTest src dst data = d.onBus fun b => b.heard.emit 4 src data := by
  have hr' : d.bus.heard.run = .idle := hr
  simp [Dev.busTest, Dev.onBus, ha, hd, sawOther_idle hr', BusState.maySend, hr]

theorem busPollReply_own (hd : dst = d.bus.mac.toNat) (hr : d.bus.run = .pollMaster) :
    d.busPollReply src dst = d.onBus fun b =>
      ({ b.heard with sole := false, next := BitVec.ofNat 7 src, poll := b.mac, tokens := 0 } : BusState).passTo := by
  have hr' : d.bus.heard.run = .pollMaster := hr
  simp [Dev.busPollReply, Dev.onBus, ha, hd, hr']

theorem busReply_awaited (hd : dst = d.bus.mac.toNat) (hr : d.bus.run = .waitReply) :
    d.busReply dst = d.onBus fun b => b.heard.doneWithToken := by
  have hr' : d.bus.heard.run = .waitReply := hr
  simp [Dev.busReply, Dev.onBus, ha, replied_of_waiting hr' hd]

theorem busDataReply_own (data : List Byte) (hd : dst = d.bus.mac.toNat) (hr : d.bus.run = .idle) :
    d.busDataReply src dst data = d.onBus fun b => (b.heard.place 5 src data).emit 7 src [] := by
  have hr' : d.bus.heard.run = .idle := hr
  simp [Dev.busDataReply, Dev.onBus, ha, hd, sawOther_idle hr', BusState.maySend, hr]

theorem busData_own (data : List Byte) (hd : dst = d.bus.mac.toNat) (hr : d.bus.run = .idle) :
    d.busData src dst data = d.onBus fun b => b.heard.place 6 src data := by
  have hr' : d.bus.heard.run = .idle := hr
  simp [Dev.busData, Dev.onBus, ha, hd, replied_idle _ hr']

theorem busUnsupported_idle (hr : d.bus.run = .idle) :
    d.busUnsupported = d.onBus fun b => { b.heard with drop := satInc b.drop } := by
  have hr' : d.bus.heard.run = .idle := hr
  simp [Dev.busUnsupported, Dev.onBus, ha, sawOther_idle hr']

theorem busCrcErr_active :
    d.busCrcErr = d.onBus fun b => { b with crcErr := satInc b.crcErr, sent := [], outbox := [] } := by
  simp [Dev.busCrcErr, Dev.onBus, ha]

theorem busNoToken_silent (hr : d.bus.run = .idle ∨ d.bus.run = .listen) :
    d.busNoToken = d.onBus fun b =>
      { (({ b with sent := [], outbox := [], tokenLost := satInc b.tokenLost } : BusState).pollTo (b.after b.mac)) with
        next := b.mac, tokens := 0 } := by
  have hwaits : (d.bus.run == .listen || d.bus.run == .idle) = true := by
    rcases hr with h | h <;> rw [h] <;> rfl
  simp [Dev.busNoToken, Dev.onBus, ha, hwaits]

/-- A token that nobody has used is passed once more. -/
theorem busUsage_passed (hr : d.bus.run = .passToken) (h0 : d.bus.retries = 0) :
    d.busUsage = d.onBus fun b =>
      { (({ b with sent := [], outbox := [] } : BusState).emit 0 b.next.toNat []) with retries := b.retries + 1 } := by
  simp only [Dev.busUsage, Dev.onBus, active_of_quieted, ha, Bool.not_true, Bool.false_eq_true, if_false]
  simp only [hr, h0, Nat.zero_lt_one, if_true]

omit ha in
theorem busSubmit_waits {i : Fin 4} (hf : (d.bus.txq[i]).full = false) (hr : d.bus.run ≠ .useToken) :
    d.busSubmit i.val = d.onBus fun b => b.submit i.val := by
  have hrun : (d.bus.submit i.val).run ≠ .useToken := by rw [submit_free hf]; exact hr
  simp [Dev.busSubmit, Dev.onBus, hrun]

end rows

end Sys2Proof.Laws

namespace Sys2Proof.Proofs

open Sys2Proof.Machine Sys2Proof.Safety Sys2Proof.Laws

/-- Settles O54. Each frame is one change of the link: the token is used and passed on, a poll or a test answered at once. -/
theorem tokenPassed : Obligations.TokenPassed := by
  unfold Obligations.TokenPassed
  intro src dst data s hl ha b got
  refine ⟨fun hd hr ht hn => ⟨fun ho => ?passed, fun i ho h6 hlen hp hm => ?used⟩, fun hd hr => ?other,
    fun hd hr => ⟨?poll, ?test⟩, fun hd hr hsrc => ?successor, fun hd hr ht hs hn c hc => ?reply⟩
  case passed =>
    refine becomes_of_bus rfl hl (busToken_own ha hd) ?_
    dsimp only
    rw [useToken_nothing (b := { s.dev.bus.heard with sole := false }) hr ho,
      doneWithToken_passes (b := { s.dev.bus.heard with sole := false }) ht rfl hn]
    rfl
  case used =>
    refine becomes_of_bus rfl hl (busToken_own ha hd) ?_
    dsimp only
    rw [useToken_one (b := { s.dev.bus.heard with sole := false }) (i := i) hm hr ho h6 hlen hp]
    exact doneWithToken_passes ht rfl hn
  case other => exact becomes_of_bus rfl hl (busToken_other ha hd hr) rfl
  case poll => exact becomes_of_bus rfl hl (busPoll_own ha hd hr) rfl
  case test => exact becomes_of_bus rfl hl (busTest_own ha data hd hr) rfl
  case successor =>
    refine becomes_of_bus rfl hl (busPollReply_own ha hd hr) ?_
    have hnext : (src.setWidth 7).toNat = src.toNat := by
      rw [BitVec.toNat_setWidth, Nat.mod_eq_of_lt hsrc]
    simp only [BusState.passTo, BusState.emit, BitVec.ofNat_toNat, hnext]
    rfl
  case reply =>
    have hi : exec c s = s.act fun d => d.busReply dst.toNat := by
      simp only [List.mem_cons, List.not_mem_nil, or_false] at hc
      rcases hc with rfl | rfl <;> rfl
    refine becomes_of_bus hi hl (busReply_awaited ha hd hr) ?_
    rw [doneWithToken_passes (b := s.dev.bus.heard) ht hs hn]
    rfl

/-- Settles O55. Each row is one change of the link's counts, slots or state. That an unsupported frame counts in FRAMES_RX too is
log 78, and that T_USAGE_TIMEOUT sends the token again is log 79. -/
theorem busFramesQueued : Obligations.BusFramesQueued := by
  unfold Obligations.BusFramesQueued
  intro src dst data s hl ha b got
  refine ⟨fun hd hr => ⟨fun i hi hlow => ⟨?expecting, ?notExpecting⟩, fun hfull => ?full⟩, fun hr => ?unsupported, ?crc,
    fun hr => ?noToken, fun hr h0 => ?usage, fun i hf hr => ?submit⟩
  case expecting =>
    refine becomes_of_bus rfl hl (busDataReply_own ha data hd hr) ?_
    rw [place_lowest (b := s.dev.bus.heard) 5 src data hi hlow]
    rfl
  case notExpecting =>
    refine becomes_of_bus rfl hl (busData_own ha data hd hr) ?_
    rw [place_lowest (b := s.dev.bus.heard) 6 src data hi hlow]
    rfl
  case full =>
    refine becomes_of_bus rfl hl (busData_own ha data hd hr) ?_
    rw [place_full (b := s.dev.bus.heard) 6 _ data hfull]
    rfl
  case unsupported => exact becomes_of_bus rfl hl (busUnsupported_idle ha hr) rfl
  case crc => exact becomes_of_bus rfl hl (busCrcErr_active ha) rfl
  case noToken => exact becomes_of_bus rfl hl (busNoToken_silent ha hr) rfl
  case usage =>
    refine becomes_of_bus rfl hl (busUsage_passed ha hr h0) ?_
    dsimp only
    rw [h0]
    rfl
  case submit => exact becomes_of_bus rfl hl (busSubmit_waits hf hr) (submit_free hf)

end Sys2Proof.Proofs

/-! ## The services of the building bus (R438 to R442) -/

namespace Sys2Proof.Laws

open Sys2Proof.Machine Sys2Proof.Safety

/-- While no sole master holds the token, a message waits for it. -/
theorem busSay_waits {d : Dev} (mac : Nat) (m : BacMsg) (ha : d.bus.active = true) (hr : d.bus.run ≠ .useToken) :
    d.busSay mac m = saying d mac m := by
  simp [Dev.busSay, Dev.onBus, saying, ha, hr]

/-- A row whose only effect is a message that waits for the token. -/
theorem becomes_of_saying {i : Instr} {s : State} {f : Dev → Dev} {mac : Nat} {m : BacMsg} (hi : exec i s = s.act f)
    (hl : Logged s.dev) (hf : f s.dev = saying s.dev mac m) : Becomes i s (saying s.dev mac m) :=
  becomes_of_quiet hi hf hl rfl

section services

variable {d : Dev} {mac invoke : Nat}

theorem readProperty_says (r : BacRef) (ha : d.bus.active = true) (hr : d.bus.run ≠ .useToken) :
    d.readProperty mac invoke r = saying d mac (match d.readProp r with
      | .value v => .readAck invoke r v
      | .error e => .error invoke .readProperty e) := by
  unfold Dev.readProperty
  cases d.readProp r with
  | value v => exact busSay_waits _ _ ha hr
  | error e => exact busSay_waits _ _ ha hr

/-! ### Writes (R440) -/

theorem writeWord_finite {o : BusObject} {w : Word} (h2 : o.type = 2) (hw : w &&& 0x7F800000#32 ≠ 0x7F800000#32) :
    writeWord o (.real w) = .inl w := by
  simp only [writeWord, h2, if_true, (exponent_eq_ones w).not.mpr hw, if_false]

theorem writeWord_notFinite {o : BusObject} {w : Word} (h2 : o.type = 2) (hw : w &&& 0x7F800000#32 = 0x7F800000#32) :
    writeWord o (.real w) = .inr .valueOutOfRange := by
  simp only [writeWord, h2, if_true, (exponent_eq_ones w).mpr hw]

variable {o : BusObject} {type inst : Nat} (hobj : d.busObj type inst = some o)
include hobj

theorem writeProperty_staged {v : BacValue} {w : Word} (hout : o.outHatch ≠ 0xFF) (hw : writeWord o v = .inl w)
    (ha : d.bus.active = true) : d.writeProperty mac invoke { type, inst, prop := .presentValue } v =
      d.onBus fun b =>
        { b with writes := b.writes ++ [{ mac, invoke, hatch := o.outHatch, word := o.outWord, value := w }] } := by
  simp [Dev.writeProperty, hobj, hout, hw, ha]

theorem writeProperty_refused {v : BacValue} {e : BacError} (hout : o.outHatch ≠ 0xFF) (hw : writeWord o v = .inr e) :
    d.writeProperty mac invoke { type, inst, prop := .presentValue } v =
      d.busSay mac (.error invoke .writeProperty e) := by
  simp [Dev.writeProperty, hobj, hout, hw]

theorem writeProperty_noHatch (v : BacValue) (hout : o.outHatch = 0xFF) :
    d.writeProperty mac invoke { type, inst, prop := .presentValue } v =
      d.busSay mac (.error invoke .writeProperty .writeAccessDenied) := by
  simp [Dev.writeProperty, hobj, hout]

/-! ### Subscriptions (R442) -/

theorem subscribeCov_first {process lifetime : Nat} (hsubs : d.bus.subs = []) (hlife : lifetime ≤ 28800)
    (ha : d.bus.active = true) : d.subscribeCov mac invoke process type inst lifetime false =
      (d.onBus fun b => { b with subs := [{ mac, process, type, inst
                                            ends := if lifetime = 0 then none else some (d.si + lifetime * 1000000)
                                            value := d.busWord o, fault := d.busFault o }] }).busSay mac
        (.simpleAck invoke .subscribeCov) := by
  simp [Dev.subscribeCov, hobj, hsubs, Nat.not_lt.mpr hlife, ha]

end services

theorem covExpiry_keeps (d : Dev) :
    d.covExpiry = d.onBus fun b => { b with subs := b.subs.filter (fun x => x.ends.all (fun e => d.si < e)) } := by
  refine congrArg d.onBus (funext fun b => ?_)
  congr 1
  exact List.filter_congr fun x _ => by cases x.ends <;> rfl

/-! ### Who-Is and Who-Has (R441) -/

theorem whoIs_within (d : Dev) (lo hi : Nat) :
    d.whoIs (some (lo, hi)) = if lo ≤ d.bus.devInst.toNat ∧ d.bus.devInst.toNat ≤ hi then
      d.busSay 255 (.iAm d.bus.devInst.toNat) else d := by
  simp [Dev.whoIs]

/-- Who-Has by the Device object's own identifier is answered with its name. -/
theorem whoHas_device {d : Dev} {p : List Byte} (hp : d.image.busPayload = some p) :
    d.whoHas (.byId 8 d.bus.devInst.toNat) = d.busSay 255 (.iHave 8 d.bus.devInst.toNat (unpad (p.take 16))) := by
  simp [Dev.whoHas, hp]

end Sys2Proof.Laws

namespace Sys2Proof.Proofs

open Sys2Proof.Machine Sys2Proof.Safety Sys2Proof.Laws

/-- Settles O56. Each service is one message that waits for the token, a write staged, or the subscriptions changed. -/
theorem busServicesAnswered : Obligations.BusServicesAnswered := by
  unfold Obligations.BusServicesAnswered
  intro mac invoke s hl ha hr d b
  refine ⟨fun r => ?read, fun specs => ?multi, fun o type inst hobj _ => ⟨fun w h2 hout => ⟨?finite, ?notFinite⟩, ?noHatch,
    fun process lifetime hsubs hlife => ?subscribe⟩, ?whoIs, fun lo hi => ?whoIsWithin, fun p hp => ?whoHas, ?expiry⟩
  case read => exact becomes_of_saying rfl hl (readProperty_says r ha hr)
  case multi => exact becomes_of_saying rfl hl (busSay_waits _ _ ha hr)
  case finite => exact fun hw => becomes_of_bus rfl hl (writeProperty_staged hobj hout (writeWord_finite h2 hw) ha) rfl
  case notFinite =>
    intro hw
    exact becomes_of_saying rfl hl
      ((writeProperty_refused hobj hout (writeWord_notFinite h2 hw)).trans (busSay_waits _ _ ha hr))
  case noHatch =>
    exact fun v hout => becomes_of_saying rfl hl ((writeProperty_noHatch hobj v hout).trans (busSay_waits _ _ ha hr))
  case subscribe =>
    exact becomes_of_quiet rfl ((subscribeCov_first hobj hsubs hlife ha).trans (busSay_waits _ _ ha hr)) hl rfl
  case whoIs => exact becomes_of_saying rfl hl (busSay_waits _ _ ha hr)
  case whoIsWithin =>
    split_ifs with hin
    · exact becomes_of_saying rfl hl (((whoIs_within _ lo hi).trans (if_pos hin)).trans (busSay_waits _ _ ha hr))
    · exact becomes_of_quiet rfl ((whoIs_within _ lo hi).trans (if_neg hin)) hl rfl
  case whoHas => exact becomes_of_saying rfl hl ((whoHas_device hp).trans (busSay_waits _ _ ha hr))
  case expiry => exact becomes_of_bus rfl hl (covExpiry_keeps _) rfl

end Sys2Proof.Proofs

/-! ## Trips and events of a motor unit (R456, R466 to R468, R470) -/

namespace Sys2Proof.Laws

open Sys2Proof.Machine Sys2Proof.Safety

section units

variable (d : Dev) (u : Fin 2)

theorem unit_fin : d.unit u.val = d.whisk[u] := vgetD_fin _ _ _

theorem onUnit_fin (f : Whisk → Whisk) : d.onUnit u.val f = withUnit d u (f d.whisk[u]) := by
  rw [Dev.onUnit, withUnit, vupdN_eq_set]

/-- Two changes of one unit are one change. -/
theorem onUnit_onUnit (f g : Whisk → Whisk) : (d.onUnit u.val f).onUnit u.val g = d.onUnit u.val fun w => g (f w) := by
  simp only [Dev.onUnit, vupdN_eq_set, Fin.getElem_fin, Vector.getElem_set_self, Vector.set_set]

/-- A unit whose latch is clear trips; DIR keeps its last valid value (log 84). -/
theorem trip_of_unlatched {w : Whisk} (h : w.latched = false) (cause : Nat) :
    w.trip cause 0 = tripped w (BitVec.ofNat 4 cause) := by
  simp [Whisk.trip, h, tripped, Whisk.standstill]

variable {d u}

theorem tripUnit_of_powered (hp : d.pd 13 = true) (hl : (d.whisk[u]).latched = false) (cause : Nat) :
    d.tripUnit u.val cause 0 = withUnit d u (tripped d.whisk[u] (BitVec.ofNat 4 cause)) := by
  rw [Dev.tripUnit, if_pos hp, onUnit_fin, trip_of_unlatched hl]

/-- A row that changes one unit alone. -/
theorem becomes_of_unit {i : Instr} {s : State} {f : Dev → Dev} {w : Whisk} (hi : exec i s = s.act f)
    (hl : Logged s.dev) (hf : f s.dev = withUnit s.dev u w) : Becomes i s (withUnit s.dev u w) :=
  becomes_of_quiet hi hf hl rfl

/-! ### The rows -/

theorem whiskOver_trips (hu : d.whiskUsed u.val = true) (hp : d.pd 13 = true) (hl : (d.whisk[u]).latched = false) :
    d.whiskOver u = withUnit d u (tripped d.whisk[u] 3) := by
  rw [Dev.whiskOver, if_pos hu]
  exact tripUnit_of_powered hp hl 3

theorem whiskVdc_trips (hu : d.whiskUsed u.val = true) (hp : d.pd 13 = true) (hl : (d.whisk[u]).latched = false)
    (hr : (d.whisk[u]).run ≠ .off) : d.whiskVdc u = withUnit d u (tripped d.whisk[u] 4) := by
  have hon : (d.whiskUsed u.val && decide ((d.unit u.val).run ≠ .off)) = true := by
    rw [unit_fin, hu, decide_eq_true hr]
    rfl
  rw [Dev.whiskVdc, if_pos hon]
  exact tripUnit_of_powered hp hl 4

/-- The fault pin is noted, and trips the unit. -/
theorem whiskFault_trips (hu : d.whiskUsed u.val = true) (hp : d.pd 13 = true) (hl : (d.whisk[u]).latched = false) :
    d.whiskFault u = withUnit d u { tripped d.whisk[u] 2 with flt := true } := by
  have hnoted : ({ d.whisk[u] with flt := true } : Whisk).latched = false := hl
  have hpin : (d.onUnit u.val fun w => { w with flt := true }).pd 13 = true := hp
  rw [Dev.whiskFault, if_pos hu, Dev.tripUnit, if_pos hpin, onUnit_onUnit, onUnit_fin, trip_of_unlatched hnoted]
  rfl

theorem whiskAlign_drives (hp : d.pd 13 = true) (hr : (d.whisk[u]).run = .align) :
    d.whiskAlign u = withUnit d u ((d.whisk[u]).alignedDrive (d.image.whiskPar u.val)) := by
  have hgo : ¬ (decide ((d.unit u.val).run ≠ .align) || !d.pd 13) = true := by simp only [unit_fin, hr, hp]; decide
  rw [Dev.whiskAlign, if_neg hgo, onUnit_fin]

theorem whiskStill_stops (hp : d.pd 13 = true) (hr : (d.whisk[u]).est = .low) :
    d.whiskStill u = withUnit d u (d.whisk[u]).standstill := by
  have hgo : ¬ (decide ((d.unit u.val).est ≠ .low) || !d.pd 13) = true := by simp only [unit_fin, hr, hp]; decide
  rw [Dev.whiskStill, if_neg hgo, onUnit_fin]

theorem whiskLoss_counts (hu : d.whiskUsed u.val = true) (hl : (d.whisk[u]).lost = false) (hs : (d.whisk[u]).source ≠ 0) :
    d.whiskLoss u = withUnit d u { d.whisk[u] with lost := true, losses := satInc (d.whisk[u]).losses } := by
  have hgo : ¬ (!d.whiskUsed u.val || (d.unit u.val).lost || decide ((d.unit u.val).source = 0)) = true := by
    simp only [unit_fin, hu, hl, decide_eq_false hs]
    decide
  rw [Dev.whiskLoss, if_neg hgo, onUnit_fin]

theorem whiskEdge_stamps (rise : Bool) (stamp : Nat) (hu : d.whiskUsed u.val = true) :
    d.whiskEdge u rise stamp = withUnit d u { d.whisk[u] with edges := (stamp, rise) :: (d.whisk[u]).edges } := by
  rw [Dev.whiskEdge, if_pos hu, onUnit_fin]

end units

end Sys2Proof.Laws

namespace Sys2Proof.Proofs

open Sys2Proof.Machine Sys2Proof.Safety Sys2Proof.Laws

/-- Settles O57. Each event is one change of its unit. A trip keeps DIR (log 84), and a row acts without the decisions that its
event takes to count (log 85). -/
theorem motorEventsTakeEffect : Obligations.MotorEventsTakeEffect := by
  unfold Obligations.MotorEventsTakeEffect
  intro u s hl hu hp d w
  refine ⟨fun hlatch => ⟨?overcurrent, fun hr => ?vdc, ?fault⟩, fun hr => ?align, fun hr => ?still, fun hlost hs => ?loss, ?regain,
    fun rise stamp => ?edge⟩
  case overcurrent => exact becomes_of_unit rfl hl (whiskOver_trips hu hp hlatch)
  case vdc => exact becomes_of_unit rfl hl (whiskVdc_trips hu hp hlatch hr)
  case fault => exact becomes_of_unit rfl hl (whiskFault_trips hu hp hlatch)
  case align => exact becomes_of_unit rfl hl (whiskAlign_drives hp hr)
  case still => exact becomes_of_unit rfl hl (whiskStill_stops hp hr)
  case loss => exact becomes_of_unit rfl hl (whiskLoss_counts hu hlost hs)
  case regain => exact becomes_of_unit rfl hl (onUnit_fin s.dev u _)
  case edge => exact becomes_of_unit rfl hl (whiskEdge_stamps rise stamp hu)

end Sys2Proof.Proofs

/-! ## Decisions and estimates of a motor unit (R448 to R471) -/

namespace Sys2Proof.Laws

open Sys2Proof.Machine Sys2Proof.Safety

/-! ### Elements delivered together -/

theorem mapFind_mapPut_ne {κ α : Type} [DecidableEq κ] (m : List (κ × α)) {k j : κ} (v : α) (h : k ≠ j) :
    mapFind (mapPut m k v) j = mapFind m j := by
  simp only [mapFind, mapPut, List.find?_cons, h, decide_false, List.find?_filter]
  congr 2
  funext p
  by_cases hp : p.1 = j
  · simp [hp, h.symm]
  · simp [hp]

/-- Elements after the first leave the first as it is. -/
theorem setInput_later (d : Dev) (ch el : Nat) {l : List (Word × Nat)} (hl : ∀ p ∈ l, p.2 ≠ 0) :
    mapFind (l.foldl (fun d v => d.setInput ch (el + v.2) v.1) d).cycle.inputs (elemKey ch el) =
      mapFind d.cycle.inputs (elemKey ch el) := by
  induction l generalizing d with
  | nil => rfl
  | cons p l ih =>
    have hkey : elemKey ch (el + p.2) ≠ elemKey ch el := by
      have hp := hl p List.mem_cons_self
      unfold elemKey
      omega
    rw [List.foldl_cons, ih _ fun q hq => hl q (List.mem_cons_of_mem _ hq)]
    exact mapFind_mapPut_ne _ _ hkey

theorem setInputs_first (d : Dev) (ch el : Nat) (v : Word) (vs : List Word) :
    mapFind (d.setInputs ch el (v :: vs)).cycle.inputs (elemKey ch el) = some v := by
  have hlater : ∀ p ∈ vs.zipIdx 1, p.2 ≠ 0 := fun p hp => by
    have := List.le_snd_of_mem_zipIdx hp
    omega
  rw [Dev.setInputs, List.zipIdx_cons, List.foldl_cons, Nat.zero_add, setInput_later _ _ _ hlater]
  exact mapFind_mapPut _ _ _

theorem setInputs_whisk (d : Dev) (ch el : Nat) (vs : List Word) : (d.setInputs ch el vs).whisk = d.whisk := by
  unfold Dev.setInputs
  generalize vs.zipIdx = l
  induction l generalizing d with
  | nil => rfl
  | cons p l ih => exact ih _

/-! ### Decisions (R449 to R454, R468, R470, R471) -/

section decisions

variable {w : Whisk} {c : List Byte} {m : WhiskMode}

/-- A mode noted leaves the trip as it stands. -/
theorem noteMode_keeps (w : Whisk) (m : WhiskMode) : (w.noteMode m).run = w.run ∧ (w.noteMode m).cause = w.cause ∧
    (w.noteMode m).trips = w.trips ∧ (w.noteMode m).vector = w.vector := by
  unfold Whisk.noteMode
  split
  · exact ⟨rfl, rfl, rfl, rfl⟩
  · exact ⟨rfl, rfl, rfl, rfl⟩

theorem takeMode_same (h : m = w.mode) : w.takeMode m = w := if_pos h

theorem alignEnd_of_drive (h : w.run = .drive) : w.alignEnd c = w := by
  simp [Whisk.alignEnd, h]

theorem choose_of_drive (h : w.run = .drive) : w.choose c = { (w.rampStep c).compare c with
    vector := switchVector ((w.rampStep c).compare c).dpsi
      (if condF .gt ((w.rampStep c).compare c).current (parF c 0x14) then 0 else ((w.rampStep c).compare c).dT)
      (sectorOf ((w.rampStep c).compare c).theta) ((w.rampStep c).compare c).vector } := by
  simp only [Whisk.choose, h]

end decisions

/-- A unit with its target and direction as presented (R459). -/
def aimed (d : Dev) (u : Fin 2) (w : Whisk) : Whisk :=
  { w with ref := d.presented (0x058 + u.val) 1, dir := d.presented (0x058 + u.val) 2 != 0 }

/-- What a decision without the converter measures: the fault pin and the command pin (R471). -/
def pinsRead (x : WhiskSample) (w : Whisk) : Whisk :=
  { w with flt := !x.fltHigh, decisions := w.decisions + 1, pinSum := w.pinSum + x.pin }

/-- What becomes of a unit whose values have been taken: it trips, is released, stays latched or chooses its vector. -/
def judged (d : Dev) (u : Fin 2) (x : WhiskSample) (conv : Bool) (w : Whisk) : Whisk :=
  let c := d.image.whiskPar u.val
  let m := whiskModeOf (d.presented (0x058 + u.val) 0)
  if !w.latched && !conv then (w.trip 5 0).noteMode m
  else if !w.latched && 4 ≤ w.overRun then (w.trip 3 0).noteMode m
  else if !w.latched && 80 ≤ w.vdcRun then (w.trip 4 0).noteMode m
  else if w.latched then
    if m = .off && (d.routedCx u.val).isNone && x.fltHigh then
      { w with latched := false, run := .off, mode := .off, vector := 0 }
    else w.noteMode m
  else ((w.takeMode m).alignEnd c).choose c

section decisionRows

variable {d : Dev} {u : Fin 2} {x : WhiskSample}

theorem whiskDecision_unusable (hu : d.whiskUsed u.val = true) (hp : d.pd 13 = true)
    (hc : ¬ (d.convUsable u.val = true ∧ d.convFailed u.val = false)) :
    d.whiskDecision u x = withUnit d u (judged d u x false (aimed d u (pinsRead x d.whisk[u]))) := by
  have hconv : (d.convUsable u.val && !d.convFailed u.val) = false := by simpa using hc
  simp only [Dev.whiskDecision, hu, hp, hconv, onUnit_fin, Bool.not_true, Bool.or_false, Bool.false_eq_true, if_false]
  rfl

theorem whiskDecision_usable (hu : d.whiskUsed u.val = true) (hp : d.pd 13 = true)
    (hc : d.convUsable u.val = true ∧ d.convFailed u.val = false) : d.whiskDecision u x =
      withUnit d u (judged d u x true (aimed d u ((d.whisk[u]).estimator (d.image.whiskPar u.val) x))) := by
  simp only [Dev.whiskDecision, hu, hp, hc, onUnit_fin, Bool.not_true, Bool.not_false, Bool.or_false, Bool.and_true,
    Bool.false_eq_true, if_false, if_true]
  rfl

variable {w : Whisk}

/-- A unit without its converter trips (R471). -/
theorem judged_unusable (hl : w.latched = false) :
    judged d u x false w = (tripped w 5).noteMode (whiskModeOf (d.presented (0x058 + u.val) 0)) := by
  simp only [judged, hl, Bool.not_false, Bool.and_true, if_true, trip_of_unlatched hl]
  rfl

/-- MODE OFF with every cause gone releases the latch (R470). -/
theorem judged_released (hl : w.latched = true) (hm : whiskModeOf (d.presented (0x058 + u.val) 0) = .off)
    (hr : d.routedCx u.val = none) (hf : x.fltHigh = true) :
    judged d u x true w = { w with latched := false, run := .off, mode := .off, vector := 0 } := by
  simp [judged, hl, hm, hr, hf]

/-- A unit that drives, with its mode as before and inside its limits, chooses its vector (R450 to R454). -/
theorem judged_driven (hl : w.latched = false) (hr : w.run = .drive)
    (hm : whiskModeOf (d.presented (0x058 + u.val) 0) = w.mode) (ho : w.overRun < 4) (hv : w.vdcRun < 80) :
    judged d u x true w = w.choose (d.image.whiskPar u.val) := by
  simp [judged, hl, Nat.not_le.mpr ho, Nat.not_le.mpr hv, takeMode_same hm, alignEnd_of_drive hr]

end decisionRows

/-! ### Estimates (R458, R462, R464, R468, R469) -/

/-- What an estimate has measured and the rest of it leaves alone. -/
def Measured (w v : Whisk) : Prop :=
  v.decisions = w.decisions ∧ v.angle = w.angle ∧ v.rpmPrev = w.rpmPrev ∧ v.omega = w.omega ∧ v.rpm = w.rpm

theorem Measured.refl (w : Whisk) : Measured w w := ⟨rfl, rfl, rfl, rfl, rfl⟩

theorem Measured.trans {w v x : Whisk} (h : Measured w v) (h' : Measured v x) : Measured w x := by
  obtain ⟨hd, ha, hp, ho, hr⟩ := h
  obtain ⟨hd', ha', hp', ho', hr'⟩ := h'
  exact ⟨hd'.trans hd, ha'.trans ha, hp'.trans hp, ho'.trans ho, hr'.trans hr⟩

theorem measured_weaken (w : Whisk) (c : List Byte) : Measured w (w.weaken c) := ⟨rfl, rfl, rfl, rfl, rfl⟩

theorem measured_speedLoop (w : Whisk) (c : List Byte) : Measured w (w.speedLoop c) := by
  unfold Whisk.speedLoop
  split
  · exact .refl w
  · exact ⟨rfl, rfl, rfl, rfl, rfl⟩

theorem measured_estStep (w : Whisk) (c : List Byte) : Measured w (w.estStep c) := by
  unfold Whisk.estStep
  dsimp only
  split
  case h_1 => split <;> exact ⟨rfl, rfl, rfl, rfl, rfl⟩
  case h_2 => split <;> exact ⟨rfl, rfl, rfl, rfl, rfl⟩
  case h_3 =>
    split
    · exact ⟨rfl, rfl, rfl, rfl, rfl⟩
    · split <;> exact ⟨rfl, rfl, rfl, rfl, rfl⟩

theorem measured_brake (w : Whisk) : Measured w w.brake := by
  unfold Whisk.brake
  split
  · exact .refl w
  · dsimp only
    split
    · exact ⟨rfl, rfl, rfl, rfl, rfl⟩
    · split <;> exact ⟨rfl, rfl, rfl, rfl, rfl⟩

/-- What an estimate of a unit with its converter measures (R449, R466, R468), before the unit is controlled by it. -/
def measuring (c : List Byte) (now : Nat) (w : Whisk) : Whisk :=
  let omega := fDiv (fDiv (fMul w.angle fPi) (fN 180)) (fMul (fN 64) fT)
  { w with omega, rpmPrev := w.rpm, rpm := fDiv (fMul omega (fN 60)) (fMul (fMul (fN 2) fPi) (parN c 0 1))
           frac := w.pinFraction c now, angle := 0, decisions := 0, pinSum := 0
           rotation := if w.est = EstState.standstill then fAdd w.rotation w.angle else 0
           edges := w.edges.take 256 }

/-- What a unit makes of its measured speed: field weakening, the speed loop, the estimator's state, the brake rule. -/
def controlled (c : List Byte) (w : Whisk) : Whisk := (((w.weaken c).speedLoop c).estStep c).brake

theorem measured_controlled (c : List Byte) (w : Whisk) : Measured w (controlled c w) :=
  (((measured_weaken w c).trans (measured_speedLoop _ c)).trans (measured_estStep _ c)).trans (measured_brake _)

theorem whiskEstimate_usable {d : Dev} {u : Fin 2} (now : Nat) (hu : d.whiskUsed u.val = true) (hp : d.pd 13 = true)
    (hc : d.convUsable u.val = true ∧ d.convFailed u.val = false) (hn : 64 ≤ (d.whisk[u]).decisions) :
    d.whiskEstimate u now =
      (withUnit d u (controlled (d.image.whiskPar u.val) (measuring (d.image.whiskPar u.val) now d.whisk[u]))).whiskDeliver
        u.val := by
  simp only [Dev.whiskEstimate, hu, hp, hc, unit_fin, onUnit_fin, Nat.not_lt.mpr hn, Bool.not_true, Bool.or_false,
    Bool.false_eq_true, if_false, decide_false]
  rfl

theorem withUnit_get (d : Dev) (u : Fin 2) (w : Whisk) : (withUnit d u w).whisk[u] = w :=
  Vector.getElem_set_self _

theorem whiskDeliver_whisk (d : Dev) (u : Nat) : (d.whiskDeliver u).whisk = d.whisk := setInputs_whisk _ _ _ _

/-- The first element delivered is the speed (R469). -/
theorem whiskDeliver_speed (d : Dev) (u : Fin 2) :
    mapFind (d.whiskDeliver u.val).cycle.inputs (elemKey (0x058 + u.val) 3) = some (d.whisk[u]).speed := by
  rw [← unit_fin]
  exact setInputs_first _ _ _ _ _

end Sys2Proof.Laws

namespace Sys2Proof.Proofs

open Sys2Proof.Machine Sys2Proof.Safety Sys2Proof.Laws

/-- Settles O58. A decision takes the unit's values and then judges them; an estimate's speed is measured first and nothing that
follows it changes what was measured. -/
theorem motorDecisionsAndEstimates : Obligations.MotorDecisionsAndEstimates := by
  unfold Obligations.MotorDecisionsAndEstimates
  intro u x s hu hp d w c mode conv
  refine ⟨fun hl hc => ?unusable, fun hl hc hm hr hf => ?released, fun hl hc hr hm ho hv => ?driven,
    fun now hc hn => ?estimate⟩
  case unusable =>
    refine completes_of_act rfl ?_
    rw [whiskDecision_unusable hu hp hc, judged_unusable (w := aimed d u (pinsRead x w)) hl, Dev.settle_whisk, logFlush_whisk, withUnit_get]
    obtain ⟨hrun, hcause, htrips, hvector⟩ := noteMode_keeps (tripped (aimed d u (pinsRead x w)) 5) mode
    exact ⟨hrun, hcause, htrips, hvector⟩
  case released =>
    refine completes_of_act rfl ?_
    rw [whiskDecision_usable hu hp hc, judged_released (w := aimed d u (w.estimator c x)) hl hm hr hf,
      Dev.settle_whisk, logFlush_whisk, withUnit_get]
    exact ⟨rfl, rfl, rfl⟩
  case driven =>
    refine completes_of_act rfl ?_
    rw [whiskDecision_usable hu hp hc, judged_driven (w := aimed d u (w.estimator c x)) hl hr hm ho hv,
      Dev.settle_whisk, logFlush_whisk, withUnit_get, choose_of_drive (w := aimed d u (w.estimator c x)) hr]
    exact ⟨hr, rfl, rfl⟩
  case estimate =>
    refine completes_of_act rfl ?_
    rw [whiskEstimate_usable now hu hp hc hn, Dev.settle_whisk, logFlush_whisk, Dev.settle_cycle, logFlush_cycle,
      whiskDeliver_speed, whiskDeliver_whisk, withUnit_get]
    obtain ⟨hdecisions, hangle, hprev, homega, hrpm⟩ := measured_controlled c (measuring c now w)
    refine ⟨hdecisions, hangle, hprev, homega, ?_, rfl⟩
    rw [homega]
    exact hrpm

end Sys2Proof.Proofs

/-! ## The luminaire face (R508, R509, R515, R523 to R526, R529) -/

namespace Sys2Proof.Laws

open Sys2Proof.Machine Sys2Proof.Safety

/-! ### Frames (R508, R509) -/

section frames

variable (f : FaceState) (c : List Byte) (t : Nat) (want : Bool)

/-- A change of state leaves the end of the frame as it was taken. -/
theorem advance_frameEnd : (f.advance c t want).frameEnd = f.frameEnd := by
  unfold FaceState.advance
  dsimp only
  split
  · rfl
  all_goals split <;> rfl

variable {f}

theorem advance_dark (h : f.run = .dark) : (f.advance c t want).run = if want then .vrevRise else .dark := by
  simp only [FaceState.advance, h]
  cases want
  · rfl
  · rfl

theorem advance_lit (h : f.run = .lit) : (f.advance c t want).run = if want then .lit else .anodeFall := by
  simp only [FaceState.advance, h]
  cases want
  · rfl
  · rfl

/-- The sense slot of a frame changes neither the state nor the frame. -/
theorem sense_keeps (f : FaceState) (vs : Option (List Int)) :
    (f.sense c vs).run = f.run ∧ (f.sense c vs).frameEnd = f.frameEnd := by
  unfold FaceState.sense
  split
  · exact ⟨rfl, rfl⟩
  · dsimp only
    split <;> exact ⟨rfl, rfl⟩

end frames

/-- The face as a frame start of µs `t` takes its elements and its permit (R509). -/
def frameTaken (d : Dev) (t : Nat) : FaceState :=
  ({ d.face with
    frameEnd := t + leAt d.image.faceCfg 2 2
    elems := #v[d.presented 0x060 0, d.presented 0x060 1, d.presented 0x060 2, d.presented 0x060 3] } : FaceState).advance
      d.image.faceCfg t (decide (d.presented 0x060 0 ≠ 0) && d.face.permit)

section taken

variable {d : Dev} (t : Nat)

theorem frameTaken_frameEnd (d : Dev) : (frameTaken d t).frameEnd = t + leAt d.image.faceCfg 2 2 :=
  advance_frameEnd _ _ _ _

theorem frameTaken_dark (h : d.face.run = .dark) : (frameTaken d t).run =
    if d.presented 0x060 0 ≠ 0 ∧ d.face.permit = true then .vrevRise else .dark := by
  unfold frameTaken
  rw [advance_dark]
  · simp
  · exact h

theorem frameTaken_lit (h : d.face.run = .lit) : (frameTaken d t).run =
    if d.presented 0x060 0 ≠ 0 ∧ d.face.permit = true then .lit else .anodeFall := by
  unfold frameTaken
  rw [advance_lit]
  · simp
  · exact h

end taken

theorem faceFrame_face {d : Dev} {k : Nat} (heads : List Nat) (fv : Option (List Int)) (hp : d.pd 15 = true)
    (hpot : d.image.facePot < 16) (hus : leAt d.image.faceCfg 2 2 ≠ 0) (hend : d.face.frameEnd ≤ k * leAt d.image.faceCfg 2 2) :
    (d.faceFrame k heads fv).face.run = (frameTaken d (k * leAt d.image.faceCfg 2 2)).run ∧
    (d.faceFrame k heads fv).face.frameEnd = (frameTaken d (k * leAt d.image.faceCfg 2 2)).frameEnd := by
  have hgo : ¬ (!d.pd 15 || decide (d.image.facePot ≥ 16) || decide (leAt d.image.faceCfg 2 2 = 0) ||
      decide (k * leAt d.image.faceCfg 2 2 < d.face.frameEnd)) = true := by
    simp [hp, hpot, hus, hend]
  unfold Dev.faceFrame
  dsimp only
  rw [if_neg hgo]
  split
  · obtain ⟨hrun, hframe⟩ := sense_keeps d.image.faceCfg _ _
    refine ⟨hrun.trans ?_, hframe.trans ?_⟩
    · split <;> rfl
    · split <;> rfl
  · exact ⟨rfl, rfl⟩

/-! ### Operations (R515) -/

theorem faceOpComplete_finishes {d : Dev} {p : Fin 16} {o : FaceOp}
    (ho : d.face.ops.find? (fun x => x.pot == p.val && x.left == some 1) = some o) :
    d.faceOpComplete p = (d.opFinish o).onFace fun f => { f with ops := f.ops.erase o } := by
  simp only [Dev.faceOpComplete, ho]

theorem faceDraw_powered {d : Dev} (hp : d.pd 15 = true) (ps : List (Nat × Nat)) : d.faceDraw ps = d.onFace (·.draw ps) :=
  if_pos hp

/-! ### The flush of the stress counters (R525, R526) -/

theorem stressGroups_ne_nil (d : Dev) (new : List (Nat × Nat)) (lo : Nat) : d.stressGroups new lo ≠ [] := by
  intro h
  have hlen := congrArg List.length h
  simp [Dev.stressGroups, upTo] at hlen

/-- A flush queues one transaction for each half of the counters, and raises no event. -/
theorem stressFlush_stores {d : Dev} (hp : d.pd 15 = true) (hpot : d.image.facePot < 16)
    (hc : d.time.count.toNat % 256 = 0) (hw : d.time.wm = 0) (hf : d.store.failed = []) :
    d.stressFlush.face.energy = [] ∧ d.stressFlush.store.queue.length = d.store.queue.length + 2 ∧
    d.stressFlush.store.logPend = d.store.logPend := by
  have hgo : ¬ (!d.pd 15 || decide (d.image.facePot ≥ 16) || decide (d.time.count.toNat % 256 ≠ 0) ||
      decide (d.time.wm ≠ 0)) = true := by
    simp [hp, hpot, hc, hw]
  have htwo : ∀ gs gs' : List (Nat × List Byte), gs ≠ [] → gs' ≠ [] →
      ((d.store.writeTxn false 16 gs).writeTxn false 16 gs').queue.length = d.store.queue.length + 2 ∧
      ((d.store.writeTxn false 16 gs).writeTxn false 16 gs').logPend = d.store.logPend := by
    intro gs gs' hg hg'
    have hfirst := writeTxn_sound false 16 hf hg
    have hf' : (d.store.writeTxn false 16 gs).failed = [] := by rw [hfirst]; exact hf
    rw [writeTxn_sound false 16 hf' hg', hfirst]
    simp
  unfold Dev.stressFlush
  dsimp only
  rw [if_neg hgo]
  exact ⟨rfl, htwo _ _ (stressGroups_ne_nil _ _ _) (stressGroups_ne_nil _ _ _)⟩

/-! ### Forward-voltage passes (R529) -/

section passes

variable {d : Dev} (hfv : d.image.faceCfg.getD 0x20 0 = 1) (hp : d.pd 15 = true) (hpot : d.image.facePot < 16)
include hfv hp hpot

theorem fvPassStart_due : d.fvPassStart = d.onFace fun f =>
    if f.run = FaceRun.lit then (if f.fvRun.isNone then f.fvBegin else f) else { f with fvDue := true } := by
  have hbyte : byteAt d.image.faceCfg 0x20 = 1 := congrArg BitVec.toNat hfv
  simp [Dev.fvPassStart, hbyte, hp, hpot]

theorem fvPassStart_lit (hr : d.face.run = .lit) (hn : d.face.fvRun = none) :
    d.fvPassStart = { d with face := d.face.fvBegin } := by
  simp [fvPassStart_due hfv hp hpot, Dev.onFace, hr, hn]

theorem fvPassStart_waits (hr : d.face.run ≠ .lit) : d.fvPassStart = { d with face := { d.face with fvDue := true } } := by
  simp [fvPassStart_due hfv hp hpot, Dev.onFace, hr]

end passes

/-! ### The steps of a stencil (R522, R523) -/

theorem byteAt_drop (l : List Byte) (i j : Nat) : byteAt (l.drop i) j = byteAt l (i + j) := by
  simp only [byteAt, List.getD_eq_getElem?_getD, List.getElem?_drop]

theorem leAt_two (l : List Byte) (i : Nat) : leAt l i 2 = byteAt l i + 256 * byteAt l (i + 1) := by
  rw [← Nat.add_zero i, ← byteAt_drop, Nat.add_zero, ← byteAt_drop, leAt]
  rcases l.drop i with _ | ⟨a, _ | ⟨b, more⟩⟩
  · rfl
  · rfl
  · rfl

/-- Byte `i` of the step that a run takes next. -/
def stepByte (b : List Byte) (x : StencilRun) (i : Nat) : Nat := byteAt b (8 + 8 * x.step + i)

/-- The argument of the step. -/
def stepArg (b : List Byte) (x : StencilRun) : Nat := stepByte b x 6 + 256 * stepByte b x 7

/-- The area of the step. -/
def stepArea (b : List Byte) (x : StencilRun) : List Nat :=
  areaPixels (stepByte b x 1) (stepByte b x 1 + stepByte b x 3) (stepByte b x 2) (stepByte b x 2 + stepByte b x 4)

section steps

variable {b : List Byte} {x : StencilRun}

theorem leAt_stepArg (b : List Byte) (x : StencilRun) : leAt b (8 + 8 * x.step + 6) 2 = stepArg b x := leAt_two _ _

theorem stencilStep_end (h : stepByte b x 0 = 0) : stencilStep b x = ({ x with step := byteAt b 1 }, []) := by
  have hop : byteAt b (8 + 8 * x.step) = 0 := h
  simp [stencilStep, hop]

theorem stencilStep_ink (h : stepByte b x 0 = 1) : stencilStep b x = ({ x with
    step := x.step + 1
    ink := if stepByte b x 5 % 2 = 1 then min (x.params.getD (stepArg b x % 4) 0) 4095 else stepArg b x % 4096 }, []) := by
  have hop : byteAt b (8 + 8 * x.step) = 1 := h
  simp only [stencilStep, hop, leAt_stepArg, if_true]
  rfl

theorem stencilStep_fill (h : stepByte b x 0 = 2) :
    stencilStep b x = ({ x with step := x.step + 1 }, (stepArea b x).map fun q => (q, x.ink)) := by
  have hop : byteAt b (8 + 8 * x.step) = 2 := h
  simp only [stencilStep, hop, Nat.reduceEqDiff, if_false, if_true]
  rfl

theorem stencilStep_mask (h : stepByte b x 0 = 3) : stencilStep b x = ({ x with step := x.step + 1 },
    ((stepArea b x).zipIdx.filter fun q => (b.getD (stepArg b x + q.2 / 8) 0).getLsbD (q.2 % 8)).map fun q =>
      (q.1, x.ink)) := by
  have hop : byteAt b (8 + 8 * x.step) = 3 := h
  simp only [stencilStep, hop, leAt_stepArg, Nat.reduceEqDiff, if_false, if_true]
  rfl

theorem stencilStep_digits (h : stepByte b x 0 = 4) : stencilStep b x = ({ x with step := x.step + 1 },
    (upTo (stepByte b x 3)).flatMap fun i => glyphPixels (stepByte b x 1 + 4 * i) (stepByte b x 2) 3 x.ink
      (cellRows (x.params.getD (stepArg b x % 4) 0) (stepByte b x 3) i)) := by
  have hop : byteAt b (8 + 8 * x.step) = 4 := h
  simp only [stencilStep, hop, leAt_stepArg, Nat.reduceEqDiff, if_false, if_true]
  rfl

theorem stencilStep_arrow (h : stepByte b x 0 = 5) : stencilStep b x = ({ x with step := x.step + 1 },
    glyphPixels (stepByte b x 1) (stepByte b x 2) 5 x.ink (arrowRows.getD (stepArg b x % 4) [])) := by
  have hop : byteAt b (8 + 8 * x.step) = 5 := h
  simp only [stencilStep, hop, leAt_stepArg, Nat.reduceEqDiff, if_false, if_true]
  rfl

end steps

section stencils

variable {d : Dev} {r : Fin 16} {o : FaceOp} {k : Nat} {b : List Byte} {x x' : StencilRun} {g : FaceRegion} {op : Byte}
  {ps : List (Nat × Nat)}

theorem stepByte_of_atStencil (h : AtStencil d r o k b x g op) : stepByte b x 0 = op.toNat := by
  obtain ⟨-, -, -, -, -, -, -, -, hop⟩ := h
  exact congrArg BitVec.toNat hop

/-- The one operation in flight takes its step, and draws what lies in its region. -/
theorem stencilEvent_steps (h : AtStencil d r o k b x g op) (hs : stencilStep b x = (x', ps)) :
    d.stencilEvent op.toNat r =
      withOps d [{ o with run := some x', pixels := o.pixels ++ ps.filter fun p => g.holds p.1 }] := by
  obtain ⟨hops, hr, hleft, hwork, hb, hrun, hreg, hopen, hop⟩ := h
  subst hb
  have hopen' : stencilOpen (d.image.stencil k) x = true := decide_eq_true hopen
  have hnext : d.nextOp o = some op.toNat := by
    simp only [Dev.nextOp, hwork, hrun, hopen', if_true]
    exact congrArg (fun y : Byte => some y.toNat) hop
  have hstep : d.opStep k o = { o with run := some x', pixels := o.pixels ++ ps.filter fun p => g.holds p.1 } := by
    simp only [Dev.opStep, hrun, hr, hreg, hopen', if_true, hs]
  simp [Dev.stencilEvent, Dev.onFace, withOps, hops, hr, hleft, hnext, hwork, hstep]

/-- A step of a stencil that draws. -/
theorem becomes_of_drawing {i : Instr} {s : State} (hl : Logged s.dev) (h : AtStencil s.dev r o k b x g op)
    (hi : exec i s = s.act (Dev.stencilEvent op.toNat r)) (hs : stencilStep b x = ({ x with step := x.step + 1 }, ps)) :
    Becomes i s (withOps s.dev [drew o x g ps]) :=
  becomes_of_quiet hi (stencilEvent_steps h hs) hl rfl

/-- A step of a stencil that changes its run alone. -/
theorem becomes_of_run {i : Instr} {s : State} (hl : Logged s.dev) (h : AtStencil s.dev r o k b x g op)
    (hi : exec i s = s.act (Dev.stencilEvent op.toNat r)) (hs : stencilStep b x = (x', [])) :
    Becomes i s (withOps s.dev [{ o with run := some x' }]) := by
  refine becomes_of_quiet hi ((stencilEvent_steps h hs).trans ?_) hl rfl
  rw [List.filter_nil, List.append_nil]

end stencils

end Sys2Proof.Laws

namespace Sys2Proof.Proofs

open Sys2Proof.Machine Sys2Proof.Safety Sys2Proof.Laws

/-- Settles O60. A pass falls due at FV_PASS_START (log 66), and one that falls due outside LIT waits for it (log 95). -/
theorem faceDrawn : Obligations.FaceDrawn := by
  unfold Obligations.FaceDrawn
  intro s hl d f
  refine ⟨fun k heads fv hp hpot hus hend => ?frame, fun p o hp ho => ?operation, fun hp hpot hc hw hf => ?flush,
    fun hfv hp hpot => ⟨fun hr hn => ?pass, fun hr => ?passWaits⟩, fun r o k b x g op h => ?stencil⟩
  case frame =>
    intro on
    refine completes_of_act rfl ?_
    rw [Dev.settle_face, logFlush_face]
    obtain ⟨hrun, hframe⟩ := faceFrame_face heads fv hp hpot hus hend
    rw [hrun, hframe]
    exact ⟨(frameTaken_frameEnd _ d).trans (Nat.succ_mul _ _).symm, frameTaken_dark _, frameTaken_lit _⟩
  case operation =>
    refine completes_of_act rfl ?_
    rw [Dev.settle_face, logFlush_face, faceOpComplete_finishes ho, Dev.opFinish, faceDraw_powered hp]
    exact ⟨rfl, rfl, rfl⟩
  case flush =>
    refine completes_of_act rfl ?_
    obtain ⟨henergy, hqueue, hpend⟩ := stressFlush_stores hp hpot hc hw hf
    rw [logFlush_logged (hpend.trans hl)]
    exact ⟨henergy, hqueue⟩
  case pass => exact becomes_of_quiet rfl (fvPassStart_lit hfv hp hpot hr hn) hl rfl
  case passWaits => exact becomes_of_quiet rfl (fvPassStart_waits hfv hp hpot hr) hl rfl
  case stencil =>
    intro at' arg par area
    refine ⟨?stepEnd, ?stepInk, ?stepFill, ?stepMask, ?stepDigits, ?stepArrow⟩
    case stepEnd =>
      rintro rfl
      exact becomes_of_run hl h rfl (stencilStep_end (stepByte_of_atStencil h))
    case stepInk =>
      rintro rfl
      exact becomes_of_run hl h rfl (stencilStep_ink (stepByte_of_atStencil h))
    case stepFill =>
      rintro rfl
      exact becomes_of_drawing hl h rfl (stencilStep_fill (stepByte_of_atStencil h))
    case stepMask =>
      rintro rfl
      exact becomes_of_drawing hl h rfl (stencilStep_mask (stepByte_of_atStencil h))
    case stepDigits =>
      rintro rfl
      exact becomes_of_drawing hl h rfl (stencilStep_digits (stepByte_of_atStencil h))
    case stepArrow =>
      rintro rfl
      exact becomes_of_drawing hl h rfl (stencilStep_arrow (stepByte_of_atStencil h))

end Sys2Proof.Proofs
